-- ==== Sys2Proof/Word.lean ====
section
/-! DEFINITION. The byte of every line, and the plainest arithmetic on numbers. -/

namespace Sys2Proof

/-- One byte of a frame, a block or a body. -/
abbrev Byte := BitVec 8

end Sys2Proof
end

