-- ==== Sys2Proof/Syntax.lean ====
section
/-! DEFINITION. The commands of the ZT-3340: one constructor for each row of spec/opcode_table.json. A host command
carries what its frame carries (R189): the tag and the body bytes, whose fields chapter 11 lays out. -/

namespace Sys2Proof

/-- The two presetter heads (00_scope.md, Capacities). -/
inductive HeadId where
  | a
  | b
deriving DecidableEq, Repr

/-- The two time pulse lines (R178). -/
inductive PulseLine where
  | primary
  | secondary
deriving DecidableEq, Repr

/-- The commands, events and messages that change the part's state, in the order of spec/opcode_table.json. -/
inductive Instr where
  /-- POWER_ON, with the levels of BAUD1 and BAUD0 (R188, R203). -/
  | powerOn (baud1 baud0 : Bool)
  /-- RESET_N asserted (R202). -/
  | resetN
  /-- SUPERVISORY_FRAME: these bytes arrive on SV_RXD (R189, R190). -/
  | supervisoryFrame (bytes : List Byte)
  /-- FRAME_BYTE_TIMEOUT: more than 10 ms without a further byte of a supervisory frame (R189). -/
  | frameByteTimeout
  /-- UNKNOWN_KIND_FRAME: a frame whose kind names no command (R191). -/
  | unknownKindFrame (kind tag : Byte) (body : List Byte)
  /-- FRAME_SENT: the transmitter completes the frame it is sending (R197). -/
  | frameSent
  /-- RESET_EFFECT: the last byte of the RESET reply has been sent (R202). -/
  | resetEffect
  | loadType (tag : Byte) (body : List Byte)
  | deleteType (tag : Byte) (body : List Byte)
  | readType (tag : Byte) (body : List Byte)
  | register (tag : Byte) (body : List Byte)
  | loadInstance (tag : Byte) (body : List Byte)
  | quarantineTool (tag : Byte) (body : List Byte)
  | clearQuarantine (tag : Byte) (body : List Byte)
  | retire (tag : Byte) (body : List Byte)
  | delete (tag : Byte) (body : List Byte)
  | readInstance (tag : Byte) (body : List Byte)
  | listInstances (tag : Byte) (body : List Byte)
  | setCabinet (tag : Byte) (body : List Byte)
  | setPockets (tag : Byte) (body : List Byte)
  | learnEmpty (tag : Byte) (body : List Byte)
  | scanOnce (tag : Byte) (body : List Byte)
  | identify (tag : Byte) (body : List Byte)
  | readPocket (tag : Byte) (body : List Byte)
  | readCabinet (tag : Byte) (body : List Byte)
  | issue (tag : Byte) (body : List Byte)
  | cancel (tag : Byte) (body : List Byte)
  | handOut (tag : Byte) (body : List Byte)
  | benchReturn (tag : Byte) (body : List Byte)
  | setIssue (tag : Byte) (body : List Byte)
  | nextToMeasure (tag : Byte) (body : List Byte)
  | readRequest (tag : Byte) (body : List Byte)
  | listRequests (tag : Byte) (body : List Byte)
  | readPutaway (tag : Byte) (body : List Byte)
  | setCurve (tag : Byte) (body : List Byte)
  | setHead (tag : Byte) (body : List Byte)
  | zeroHead (tag : Byte) (body : List Byte)
  | measureBegin (tag : Byte) (body : List Byte)
  | measureEnd (tag : Byte) (body : List Byte)
  | measureAbort (tag : Byte) (body : List Byte)
  | readHead (tag : Byte) (body : List Byte)
  | regrindOut (tag : Byte) (body : List Byte)
  | regrindBack (tag : Byte) (body : List Byte)
  | setLink (tag : Byte) (body : List Byte)
  | linkRestart (tag : Byte) (body : List Byte)
  | readLink (tag : Byte) (body : List Byte)
  | setStation (tag : Byte) (body : List Byte)
  | setGroup (tag : Byte) (body : List Byte)
  | typeHold (tag : Byte) (body : List Byte)
  | typeRelease (tag : Byte) (body : List Byte)
  | sendData (tag : Byte) (body : List Byte)
  | readHandoff (tag : Byte) (body : List Byte)
  | readGroups (tag : Byte) (body : List Byte)
  | readBroadcast (tag : Byte) (body : List Byte)
  | setTime (tag : Byte) (body : List Byte)
  | setClock (tag : Byte) (body : List Byte)
  | readTime (tag : Byte) (body : List Byte)
  | start (tag : Byte) (body : List Byte)
  | reset (tag : Byte) (body : List Byte)
  | reportEnable (tag : Byte) (body : List Byte)
  | readPort (tag : Byte) (body : List Byte)
  /-- SCAN_INTERVAL: an automatic boundary of the cabinet (R34). -/
  | scanInterval (cabinet : Nat)
  /-- POCKET_COUNT: the cabinet's channel completes a count of a pass, after this many oscillation cycles (R32, R33). -/
  | pocketCount (cabinet cycles : Nat)
  /-- LEARN_MEASUREMENT: the cabinet's channel completes a count of a learning pass (R32, R35). -/
  | learnMeasurement (cabinet cycles : Nat)
  /-- PICK_TIMEOUT of the request's reservation (R62). -/
  | pickTimeout (request : Nat)
  /-- LATE_PICK_END of the pocket's late-pick memory (R63). -/
  | latePickEnd (cabinet pocket : Nat)
  /-- PUTAWAY_TIMEOUT of the instance's assignment (R70). -/
  | putawayTimeout (tool : Nat)
  /-- HEAD_STATUS: a head frame of kind 02h completes, with these body fields (R78, R207). -/
  | headStatus (head : HeadId) (status : Byte) (scaleTemp : BitVec 16)
  /-- CAPTURE: a head frame of kind 01h completes, with these body fields (R84, R207). -/
  | capture (head : HeadId) (z x : BitVec 24) (spindle scaleTemp toolTemp : BitVec 16) (flags : Byte)
  /-- HEAD_FRAME_BYTE_TIMEOUT: more than 10 ms without a further byte of a head frame (R207). -/
  | headFrameByteTimeout (head : HeadId)
  /-- HEAD_SILENCE: 2 s without a framed message from the head (R78). -/
  | headSilence (head : HeadId)
  /-- ZERO_AGE_LAPSE: the head's reference zero reaches the end of its zero life (R80). -/
  | zeroAgeLapse (head : HeadId)
  /-- HANDOFF_TIMEOUT of the station's IN_FLIGHT transaction (R160). -/
  | handoffTimeout (station : Nat)
  /-- HOLD_OFF_EXPIRY of a PENDING transaction of the station (R160). -/
  | holdOffExpiry (station : Nat)
  /-- BROADCAST_EXPIRY of the broadcast record with this number (R173). -/
  | broadcastExpiry (number : Nat)
  /-- STATION_BLOCK: these bytes arrive on the station's link (R135 to R142, R148). -/
  | stationBlock (station : Nat) (bytes : List Byte)
  /-- ACQUIRE_TIMEOUT: the link's acquisition count has reached 200 (R139). -/
  | acquireTimeout (station : Nat)
  /-- LINK_SILENCE: 100 ms without a byte on the link (R135). -/
  | linkSilence (station : Nat)
  /-- BLOCK_PERIOD: the part sends the link's block of this period (R144). -/
  | blockPeriod (station : Nat)
  /-- OUTSTANDING_TIMEOUT: 8 block periods without a verdict on an outstanding entry (R146). -/
  | outstandingTimeout (station : Nat)
  /-- ECHO_HELD_TIMEOUT: 8 block periods without a verdict on the echoed block (R148). -/
  | echoHeldTimeout (station : Nat)
  /-- PPS_PULSE on a pulse line (R178). -/
  | ppsPulse (line : PulseLine)
  /-- STEP_DEADLINE of a path checker (R178). -/
  | stepDeadline (line : PulseLine)
  /-- HALL_SECOND: hall time has entered a new whole second (R177). -/
  | hallSecond
  /-- HEAD_FRAME_DISCARDED: these bytes arrive on the head line, the first frame among them failing (R207). -/
  | headFrameDiscarded (head : HeadId) (bytes : List Byte)
deriving DecidableEq, Repr

end Sys2Proof
end

