-- ==== Sys2Proof/Machine/Records.lean ====
section
/-! DEFINITION. The records of the nine blocks as plain data: what each field of the spec's tables holds. -/

namespace Sys2Proof.Machine

/-- Records kept by number, as (number, record) pairs. -/
abbrev Table (α : Type) := List (Nat × α)

/-! ### Lengths of time and hall time -/

/-- Hall time: whole second and millisecond part (R177). -/
structure HallTime where
  sec : Nat
  ms : Nat
deriving DecidableEq, Repr

/-! ### TRG: types and instances (R1, R8) -/

/-- Class of a type (R1). -/
inductive ToolClass where
  | lengthOnly
  | lengthRadius
deriving DecidableEq, Repr

/-- Unit of a type's life (R1). -/
inductive LifeUnit where
  | seconds
  | hits
deriving DecidableEq, Repr

/-- The nominal that a regrind reduces (R1). -/
inductive Governed where
  | length
  | radius
deriving DecidableEq, Repr

/-- A tolerance band, both ends included (R110). -/
structure Band where
  lower : Int
  upper : Int
deriving DecidableEq, Repr

/-- A present type slot (R1). -/
structure TypeRec where
  cls : ToolClass
  adjustable : Bool
  nominalLength : Nat
  nominalRadius : Nat
  lengthBand : Band
  radiusBand : Band
  adjustBand : Option Band
  runoutLimit : Nat
  expansion : Nat
  adapter : Nat
  lifeUnit : LifeUnit
  budget : Nat
  warnLevel : Nat
  governed : Governed
  regrindStep : Nat
  regrindLimit : Nat
  keepOnReturn : Bool
  autoPrefetch : Bool
  autoReplace : Bool
  home : Option Nat
  held : Bool
deriving DecidableEq, Repr

/-- The thirteen custody states (R12). -/
inductive Custody where
  | unmeasured
  | atPresetter
  | staged
  | ready
  | reserved
  | issued
  | loaded
  | returning
  | quarantine
  | missing
  | regrindDue
  | atRegrind
  | retired
deriving DecidableEq, Repr

/-- Where an instance is (R11). -/
inductive Location where
  | pocket (cabinet pocket : Nat)
  | bench
  | head (h : HeadId)
  | toStation (station place : Nat)
  | toBench
  | backStation (station : Nat)
  | backBench
  | station (station place : Nat)
  | offsite
  | nowhere
deriving DecidableEq, Repr

/-- Why an instance is in quarantine (R8). -/
inductive QCause where
  | reject
  | typeHold
  | damaged
  | discrepancy
  | host
deriving DecidableEq, Repr

/-- The certified dimensions of an instance (R8). -/
structure Measurement where
  length : Nat
  radius : Nat
  runout : Nat
  time : HallTime
  head : HeadId
  thermalLimited : Bool
deriving DecidableEq, Repr

/-- The station an instance was last unloaded at, with its generation then (R8). -/
structure LastStation where
  station : Nat
  generation : Nat
deriving DecidableEq, Repr

/-- A present instance slot (R8). -/
structure InstRec where
  type : Nat
  custody : Custody
  loc : Location
  meas : Option Measurement
  generation : Nat
  life : Nat
  warned : Bool
  spent : Bool
  marks : Nat
  link : Option Nat
  qcause : Option QCause
  owed : Bool
  last : Option LastStation
deriving DecidableEq, Repr

/-- The cause of a custody transition, in the order of R17. -/
inductive Cause where
  | register
  | measureBegin
  | measureEnd
  | reserve
  | release
  | pick
  | handOut
  | latePick
  | benchReturn
  | place
  | putawayTimeout
  | discrepancy
  | identify
  | stationLoaded
  | verify
  | unloaded
  | typeHold
  | typeRelease
  | lifeZero
  | spentAtLimit
  | regrindOut
  | regrindBack
  | quarantineTool
  | clearQuarantine
  | retire
  | delete
deriving DecidableEq, Repr

/-- TRG: the type table and the instance table (R1, R8). -/
structure Trg where
  types : Table TypeRec
  insts : Table InstRec
deriving DecidableEq, Repr

/-! ### PSC: pockets, cabinets and passes (R28, R30, R34, R35) -/

/-- Zone of a pocket (R28). -/
inductive Zone where
  | stock
  | hold
deriving DecidableEq, Repr

/-- Pocket states (R28). -/
inductive PocketState where
  | disabled
  | empty
  | occupied
  | expectTake
  | expectPlace
  | unknown
  | fault
deriving DecidableEq, Repr

/-- The debounced presence (R28). -/
inductive Presence where
  | present
  | absent
  | undecided
deriving DecidableEq, Repr

/-- Why a departure mark stands (R42). -/
inductive MarkCause where
  | presetting
  | regrind
deriving DecidableEq, Repr

/-- A departure mark (R28). -/
structure DepMark where
  tool : Nat
  cause : MarkCause
deriving DecidableEq, Repr

/-- A pocket record (R28). -/
structure Pocket where
  zone : Zone
  enabled : Bool
  state : PocketState
  tool : Option Nat
  mark : Option DepMark
  baseline : Option Nat
  presentBound : Option Nat
  absentBound : Option Nat
  lastCount : Option Nat
  sensed : Presence
  run : Nat
deriving DecidableEq, Repr

/-- The pocket record after power-on and RESET (R28). -/
def Pocket.reset : Pocket :=
  { zone := .stock, enabled := false, state := .disabled, tool := none, mark := none, baseline := none,
    presentBound := none, absentBound := none, lastCount := none, sensed := .undecided, run := 0 }

/-- Scan modes (R30). -/
inductive ScanMode where
  | auto
  | single
deriving DecidableEq, Repr

/-- The settings of a cabinet (R30). -/
structure CabSettings where
  window : Nat
  presentDev : Nat
  absentDev : Nat
  interval : Nat
  debounce : Nat
  mode : ScanMode
  enabled : Bool
deriving DecidableEq, Repr

/-- The reset settings of a cabinet (R30). -/
def CabSettings.reset : CabSettings :=
  { window := 1024, presentDev := 300, absentDev := 100, interval := 100, debounce := 3, mode := .auto, enabled := false }

/-- A pass running on a channel (R34, R35). `current` is the pocket being measured. -/
inductive Pass where
  | auto (current : Nat)
  | single (handle current measured : Nat)
  | learn (handle current : Nat) (rest learned refused failed : List Nat)
deriving DecidableEq, Repr

/-- A learning pass accepted while another pass runs (R35). -/
structure HeldLearn where
  handle : Nat
  pockets : List Nat
deriving DecidableEq, Repr

/-- A cabinet with its scan channel (R30, R34). -/
structure Cabinet where
  settings : CabSettings
  pendingSettings : Option CabSettings
  pass : Option Pass
  heldLearn : Option HeldLearn
  boundary : Option Nat
deriving DecidableEq, Repr

/-- A cabinet after power-on and RESET (R46). -/
def Cabinet.reset : Cabinet :=
  { settings := CabSettings.reset, pendingSettings := none, pass := none, heldLearn := none, boundary := none }

/-- PSC: pocket records that differ from `Pocket.reset`, by pocket key; cabinets that differ from `Cabinet.reset`. -/
structure Psc where
  pockets : Table Pocket
  cabinets : Table Cabinet
deriving DecidableEq, Repr

/-! ### ISC: requests, late picks and put-away (R47, R63, R67, R68) -/

/-- Origin of a request (R47). -/
inductive Origin where
  | station (s : Nat)
  | supervisor
  | auto
deriving DecidableEq, Repr

/-- Destination of a request (R47). -/
inductive Dest where
  | station (s place : Nat)
  | bench
deriving DecidableEq, Repr

/-- Priority of a request (R47). -/
inductive Priority where
  | urgent
  | normal
  | prefetch
deriving DecidableEq, Repr

/-- Request states, the three leaving states included (R47). -/
inductive ReqState where
  | queued
  | waitingStock
  | reserved
  | issued
  | delivered
  | cancelled
  | expired
deriving DecidableEq, Repr

/-- Causes of REQUEST_STATE, in the order of R49. -/
inductive ReqCause where
  | entered
  | merged
  | noStock
  | reserved
  | released
  | pick
  | latePick
  | handOut
  | pickTimeout
  | pickMissed
  | typeHold
  | evicted
  | cancelledHost
  | cancelledStation
  | expired
  | delivered
  | instanceLost
deriving DecidableEq, Repr

/-- A request (R47). `entry` orders requests that entered at one tick (R49, order 4). -/
structure Request where
  number : Nat
  origin : Origin
  type : Nat
  dest : Dest
  prio : Priority
  neededBy : Option Nat
  minLife : Option Nat
  state : ReqState
  tool : Option Nat
  misses : Nat
  enqTick : Nat
  reserveTick : Option Nat
  entry : Nat
deriving DecidableEq, Repr

/-- A pocket's late-pick memory (R63). -/
structure LatePick where
  request : Nat
  tool : Nat
  endTick : Nat
deriving DecidableEq, Repr

/-- A put-away assignment (R68). -/
structure Assignment where
  cabinet : Nat
  pocket : Nat
  zone : Zone
  damaged : Bool
  tick : Nat
deriving DecidableEq, Repr

/-- ISC: the request queue in service order, the late-pick memory by pocket key, the assignments and the waiting
list (waiting tick) by instance, the damaged marks, and the three timing settings in seconds (R74). -/
structure Isc where
  queue : List Request
  nextNumber : Nat
  entries : Nat
  latePicks : Table LatePick
  assigned : Table Assignment
  waiting : Table Nat
  damaged : List Nat
  pickTimeout : Nat
  expiryGrace : Nat
  putawayTimeout : Nat
deriving DecidableEq, Repr

/-! ### MSU: heads, zeros and sessions (R77 to R83, R98, R100, R113) -/

/-- Line state of a head (R78). -/
inductive HeadLine where
  | silent
  | ready
  | fault
deriving DecidableEq, Repr

/-- A reference zero (R80). -/
structure Zero where
  z : Int
  x : Int
  time : HallTime
  tick : Nat
  temp : Int
deriving DecidableEq, Repr

/-- Settings of a head (R94, R100). -/
structure HeadSettings where
  masterLength : Nat
  masterRadius : Nat
  scaleCoeff : Nat
  offsets : List Int
  k : Nat
  n : Nat
  band : Nat
  zeroLife : Nat
  drift : Nat
deriving DecidableEq, Repr

/-- The reset settings of a head (R94, R100). -/
def HeadSettings.reset : HeadSettings :=
  { masterLength := 0, masterRadius := 0, scaleCoeff := 0, offsets := List.replicate 16 0, k := 3, n := 5, band := 15,
    zeroLife := 8, drift := 100 }

/-- A capture record (R83). `zFlag`, `xFlag`: the range flags, `rangeMark`: the RANGE mark. -/
structure Capture where
  zCount : Nat
  xCount : Nat
  spindle : Nat
  scaleTemp : Int
  toolTemp : Int
  zFlag : Bool
  xFlag : Bool
  z : Int
  x : Int
  rangeMark : Bool
deriving DecidableEq, Repr

/-- Verdicts (R83). -/
inductive Verdict where
  | pass
  | adjust
  | reject
  | unstable
  | drift
  | range
deriving DecidableEq, Repr

/-- The values of an evaluation (R113). -/
structure Values where
  length : Nat
  radius : Nat
  runout : Nat
  nominalLength : Nat
  nominalRadius : Nat
  dL : Int
  dR : Int
  thermalLimited : Bool
  rangeLimited : Bool
  spindle : Nat
  acceptedZ : Int
  highX : Int
  rawLength : Int
  rawRadius : Int
  scaleDiff : Int
  toolDiff : Int
  factor : Int
  agreeing : List Nat
deriving DecidableEq, Repr

/-- The result of a session (R113): an UNSTABLE one holds no values. -/
structure Result where
  verdict : Verdict
  time : HallTime
  values : Option Values
deriving DecidableEq, Repr

/-- Kind of a session, with what a MEASURE session names (R83). -/
inductive SessionKind where
  | measure (tool : Nat) (entry : Custody) (entryCause : Option QCause)
  | zero
deriving DecidableEq, Repr

/-- State of an open session (R83); IDLE is the absence of a session. -/
inductive SessionState where
  | capturing
  | awaitAdjust
  | evaluated
deriving DecidableEq, Repr

/-- An open session (R83). -/
structure Session where
  kind : SessionKind
  handle : Nat
  state : SessionState
  captures : List Capture
  windowStart : Nat
  result : Option Result
deriving DecidableEq, Repr

/-- What MSU keeps of a head (chapter 4), with the head receiver of R207. -/
structure Head where
  line : HeadLine
  lastFrame : Option Nat
  scaleTemp : Option Int
  zCurve : Option (List Int)
  xCurve : Option (List Int)
  zero : Option Zero
  zeroOk : Bool
  settings : HeadSettings
  session : Option Session
  rx : List Byte
  rxTick : Nat
deriving DecidableEq, Repr

/-- A head after power-on and RESET (R96, R98, R100). -/
def Head.reset : Head :=
  { line := .silent, lastFrame := none, scaleTemp := none, zCurve := none, xCurve := none, zero := none, zeroOk := false,
    settings := HeadSettings.reset, session := none, rx := [], rxTick := 0 }

/-- MSU: the two heads. -/
structure Msu where
  a : Head
  b : Head
deriving DecidableEq, Repr

/-! ### SLC: links (R134) -/

/-- Link states (R134). -/
inductive LinkState where
  | down
  | searching
  | acquiring
  | checked
  | echo
deriving DecidableEq, Repr

/-- Check policies (R134). -/
inductive Policy where
  | auto
  | checkOnly
  | echoOnly
deriving DecidableEq, Repr

/-- Kinds of a station block (R132). -/
inductive BlockKind where
  | fill
  | data
  | echo
deriving DecidableEq, Repr

/-- The held block: its 32 bytes and, in ECHO, the period its ECHO was sent in (R134, R148). -/
structure HeldBlock where
  bytes : List Byte
  echoed : Option Nat
deriving DecidableEq, Repr

/-- A verdict awaiting return (R143). -/
structure ReturnVerdict where
  position : Nat
  good : Bool
  kind : BlockKind
deriving DecidableEq, Repr

/-- What an outstanding block carries (R145): a transaction, by its `id`, or a reply. -/
inductive BlockOrigin where
  | transaction (id : Nat)
  | reply
deriving DecidableEq, Repr

/-- An outstanding entry (R145): `sent` is the block period of its last sending. -/
structure Outstanding where
  message : Nat
  body : List Byte
  sent : Nat
  failures : Nat
  resend : Bool
  origin : BlockOrigin
deriving DecidableEq, Repr

/-- A link record (R134), with the bytes not yet examined, the periods sent, and the last block sent with its check. -/
structure Link where
  state : LinkState
  policy : Policy
  lastByte : Option Nat
  expected : Option Nat
  misses : Nat
  held : Option HeldBlock
  acqRun : Nat
  acqCount : Nat
  returns : List ReturnVerdict
  outstanding : List Outstanding
  applied : List Nat
  density : List Bool
  outNumber : Nat
  lastSeen : Option Nat
  rx : List Byte
  period : Nat
  lastSent : List Byte
  lastCheck : BitVec 16
deriving DecidableEq, Repr

/-- SLC: links that differ from their reset record, by station. -/
structure Slc where
  links : Table Link
deriving DecidableEq, Repr

/-! ### HOE: magazines, queues, groups and broadcasts (R157, R158, R169, R172) -/

/-- A magazine entry, listed under its place (R157): `active` no means LOAD_PENDING_DATA. -/
structure MagEntry where
  tool : Nat
  active : Bool
  confirmed : Option Nat
  spentNotice : Bool
deriving DecidableEq, Repr

/-- The two notice kinds (R158). -/
inductive NoticeKind where
  | hold
  | release
deriving DecidableEq, Repr

/-- Kind of a transaction with what it names (R158). -/
inductive TxnKind where
  | toolData (tool place generation : Nat)
  | lifeUpdate (tool place : Nat) (blocked : Bool)
  | notice (kind : NoticeKind) (type : Nat)
deriving DecidableEq, Repr

/-- Transaction states (R158). -/
inductive TxnState where
  | pending
  | inFlight
  | confirmed
  | failed
  | cancelled
  | superseded
deriving DecidableEq, Repr

/-- Result codes of a transaction (R158). -/
inductive TxnCode where
  | ok
  | offline
  | refusedPlace
  | refusedBusy
  | checkFailed
  | timeout
  | superseded
  | cancelled
deriving DecidableEq, Repr

/-- A transaction in a handoff queue (R158); `body` and `handed` matter while IN_FLIGHT (R155, R160), `slot` is its
place of entry (R162), and `id` tells it from every other, since numbers come round (log entry 9). -/
structure Txn where
  id : Nat
  number : Nat
  kind : TxnKind
  state : TxnState
  busyRetries : Nat
  holdOff : Option Nat
  firstSent : Option Nat
  delivered : Bool
  broadcast : Option Nat
  body : List Byte
  handed : Bool
  slot : Nat
deriving DecidableEq, Repr

/-- Codes of STATION_REPLY, in the order of R206. -/
inductive StationCode where
  | ok
  | merged
  | queueFull
  | unknownInstance
  | wrongPlace
  | placeOccupied
  | notRunning
  | stale
  | badType
  | placeRange
deriving DecidableEq, Repr

/-- A STATION_REPLY waiting to be sent (R154). -/
structure StationReply where
  message : Nat
  code : StationCode
  request : Option Nat
deriving DecidableEq, Repr

/-- An entry of the unacknowledged hold set, listed under its type (R172); `stamp`, the transactions made before it, tells a newer
entry from an older notice (log entry 27). -/
structure HoldEntry where
  kind : NoticeKind
  stamp : Nat
deriving DecidableEq, Repr

/-- What HOE keeps of a station: magazine by place, queue in order, replies oldest first, unacknowledged hold set by type. -/
structure Station where
  places : Nat
  magazine : Table MagEntry
  queue : List Txn
  replies : List StationReply
  unacked : Table HoldEntry
deriving DecidableEq, Repr

/-- A station after power-on and RESET (R175). -/
def Station.reset : Station :=
  { places := 60, magazine := [], queue := [], replies := [], unacked := [] }

/-- Member results of a broadcast, in severity order (R173). -/
inductive MemberCode where
  | ok
  | refused
  | checkFailed
  | timeout
  | offline
deriving DecidableEq, Repr

/-- A broadcast record (R172): `results` lists the members in ascending station number. -/
structure Broadcast where
  number : Nat
  kind : NoticeKind
  type : Nat
  results : List (Nat × Option MemberCode)
  done : Bool
  tick : Nat
  time : HallTime
deriving DecidableEq, Repr

/-- HOE: stations and groups that differ from their reset record, the four broadcast slots and the counters. -/
structure Hoe where
  stations : Table Station
  groups : Table (List Nat)
  broadcasts : List (Option Broadcast)
  nextBroadcast : Nat
  nextTxn : Nat
  entries : Nat
deriving DecidableEq, Repr

/-! ### HCK: time (R176 to R183) -/

/-- Path status (R178). -/
inductive PathStatus where
  | qualifying
  | usable
  | lost
deriving DecidableEq, Repr

/-- The last step counted by a checker (R178). -/
inductive LastStep where
  | measured (length : Int) (valid : Bool)
  | missing
deriving DecidableEq, Repr

/-- A path checker (R178). Ticks are signed, so that a RESET can carry them across the change of tick origin (R187);
`base` is the tick the deadline was computed from (R183). -/
structure Path where
  status : PathStatus
  reference : Option Int
  deadline : Int
  base : Int
  validRun : Nat
  invalidRun : Nat
  lastStep : Option LastStep
deriving DecidableEq, Repr

/-- A path checker at power-on, with tolerance 3 (R178). -/
def Path.powerOn : Path :=
  { status := .qualifying, reference := none, deadline := 1004, base := 0, validRun := 0, invalidRun := 0, lastStep := none }

/-- Time states (R180). -/
inductive TimeState where
  | unset
  | freeRun
  | lockedPrimary
  | lockedSecondary
deriving DecidableEq, Repr

/-- HCK (chapter 9): `setPending` a pending SET_TIME, `lastDiscipline` and `shiftOwed` as R186 and R184 need them. -/
structure Hck where
  tick : Nat
  hall : HallTime
  state : TimeState
  setPending : Option Nat
  tol : Nat
  revertive : Bool
  primary : Path
  secondary : Path
  lastDiscipline : Option Int
  shiftOwed : Bool
deriving DecidableEq, Repr

/-- HCK at power-on (R187). -/
def Hck.powerOn : Hck :=
  { tick := 0, hall := ⟨0, 0⟩, state := .unset, setPending := none, tol := 3, revertive := true,
    primary := Path.powerOn, secondary := Path.powerOn, lastDiscipline := none, shiftOwed := false }

/-- What READ_TIME returns of a path (R186): `sinceReference` the ticks since the reference, where one is held. -/
structure PathView where
  status : PathStatus
  sinceReference : Option Int
  validRun : Nat
  invalidRun : Nat
  lastStep : Option LastStep
deriving DecidableEq, Repr

/-- What READ_TIME returns (R186): `sinceDiscipline` the ticks since the last disciplining pulse, where hall time has been
disciplined since it was last set. -/
structure TimeView where
  hall : HallTime
  tick : Nat
  state : TimeState
  setPending : Option Nat
  tol : Nat
  revertive : Bool
  primary : PathView
  secondary : PathView
  sinceDiscipline : Option Int
deriving DecidableEq, Repr

/-! ### SVP: replies, reports and the port (R188 to R204) -/

/-- Operating modes (R199). -/
inductive Mode where
  | loading
  | running
deriving DecidableEq, Repr

/-- Reply codes (R194), in the order of their values. -/
inductive ReplyCode where
  | ok
  | accepted
  | unknownKind
  | badLength
  | notInMode
  | noSuch
  | state
  | range
  | full
  | busy
  | zeroStale
  | held
  | limit
deriving DecidableEq, Repr

/-- Kinds of disagreement that START finds (R200). -/
inductive Disagreement where
  | pocketNamesOther
  | instanceNotRecorded
  | disabledPocket
deriving DecidableEq, Repr

/-- Why a head is unavailable (R78). -/
inductive Unavailable where
  | silent
  | fault
  | noCurves
deriving DecidableEq, Repr

/-- Reasons of a ZERO_STATE report (R80). -/
inductive ZeroReason where
  | set
  | age
  | temperature
  | removed
deriving DecidableEq, Repr

/-- Where an instance's put-away stands (R75). -/
inductive PutawayView where
  | assigned (a : Assignment) (remaining : Int)
  | waiting (index : Nat)
  | neither
deriving DecidableEq, Repr

/-- The data of a reply (R192), as the owning rules list it. -/
inductive ReplyData where
  | nothing
  | handle (h : Nat)
  | requestHandle (number : Nat) (merged : Bool)
  | typeRec (number : Nat) (r : TypeRec)
  | instRec (number : Nat) (r : InstRec)
  | instList (numbers : List Nat) (more : Bool)
  | pocket (cabinet pocket : Nat) (r : Pocket) (sensing : Bool)
  | cabinet (number : Nat) (r : Cabinet) (counts : List Nat)
  | worklist (rows : List (Nat × Nat × Location × Option Nat))
  | request (r : Request)
  | requests (live : Nat) (rows : List Request)
  | putaway (view : PutawayView) (late : Option (Nat × Nat × Int))
  | head (h : HeadId) (r : Head) (reason : Option Unavailable) (zeroAge : Option Nat) (ageOk tempOk : Bool)
  | sessionEnd (verdict : Option Verdict) (after : Custody)
  | link (station : Nat) (r : Link) (bad total : Nat)
  | handoff (station : Nat) (r : Station)
  | groups (sets : List (List Nat))
  | broadcast (r : Broadcast) (worst : MemberCode)
  | time (r : TimeView)
  | port (mode : Mode) (rate frames : Nat) (busyHeld : Bool) (reports lost enable handle discards refusals drops : Nat)
  | disagreement (kind : Disagreement) (cabinet pocket tool : Nat)
deriving DecidableEq, Repr

/-- A reply as the owning block makes it: code and data (R191). -/
structure Reply where
  code : ReplyCode
  data : ReplyData
deriving DecidableEq, Repr

/-- A supervisory frame from the host without its start, length and check (R189). -/
structure HostFrame where
  kind : Byte
  tag : Byte
  body : List Byte
deriving DecidableEq, Repr

/-- A place of the receive buffer: a frame not yet taken, or one whose reply has been made (R190, R191). -/
structure BufEntry where
  frame : HostFrame
  reply : Option (Nat × Reply)
deriving DecidableEq, Repr

/-- The BUSY slot's refusal: tag and kind of the frame not taken, and when it was made (R190). -/
structure BusySlot where
  kind : Byte
  tag : Byte
  stamp : Nat
deriving DecidableEq, Repr

/-- POCKET_EVENT events of one pocket (R37, R40, R41). -/
inductive PocketEvent where
  | placed
  | removed
  | fault
  | faultCleared
deriving DecidableEq, Repr

/-- Kinds of DISCREPANCY (10.5). -/
inductive DiscKind where
  | unsanctionedRemoval
  | unknownPlacement
  | notTaken
  | putawayTimeout
deriving DecidableEq, Repr

/-- Why an automatic request was dropped (R54). -/
inductive DropReason where
  | queueFull
  | noNumber
deriving DecidableEq, Repr

/-- Closing causes of a MEASURE session (R93). -/
inductive CloseCause where
  | ended
  | abort
  | headLoss
deriving DecidableEq, Repr

/-- Outcomes of a ZERO session (R82): ZERO_SET carries the new zero's values. -/
inductive ZeroOutcome where
  | zeroSet (zero : Zero)
  | unstable
  | abort
  | headLoss
deriving DecidableEq, Repr

/-- Causes of LINK_STATE (R140). -/
inductive LinkCause where
  | activity
  | silence
  | aligned
  | acquired
  | acquireTimeout
  | policy
  | framingLost
  | errorDensity
  | restart
deriving DecidableEq, Repr

/-- Causes of TIME_STATE (R184). -/
inductive TimeCause where
  | state
  | path
  | setTime
deriving DecidableEq, Repr

/-- A report as a block hands it to SVP (10.5): the fields its raising rule lists, but the hall time, which the queue
entry carries. -/
inductive Report where
  | pocketEvent (event : PocketEvent) (cabinet pocket : Nat) (before : PocketState) (tool : Option Nat)
      (mark : Option DepMark) (count : Option Nat)
  | scanDone (cabinet handle measured faulty : Nat)
  | learnDone (cabinet handle : Nat) (learned refused failed : List Nat)
  | discrepancy (kind : DiscKind) (cabinet pocket : Nat) (tool : Option Nat) (custody : Option Custody)
  | custodyChange (tool type : Nat) (before : Option Custody) (locBefore : Location) (after : Option Custody)
      (locAfter : Location) (cause : Cause) (link : Option Nat)
  | requestState (r : Request) (cause : ReqCause)
  | requestDropped (station place type : Nat) (prio : Priority) (reason : DropReason)
  | presetWanted (request type count first : Nat)
  | cribFull (tool : Nat) (custody : Custody) (zone : Zone)
  | headState (head : HeadId) (available : Bool) (reason : Option Unavailable)
  | zeroState (head : HeadId) (valid : Bool) (reason : ZeroReason)
  | verdict (handle : Nat) (head : HeadId) (tool type : Nat) (result : Result)
  | closedZero (handle : Nat) (head : HeadId) (outcome : ZeroOutcome)
  | closed (handle : Nat) (head : HeadId) (tool : Nat) (cause : CloseCause) (verdict : Option Verdict) (custody : Custody)
      (loc : Location)
  | lifeWarning (tool type life threshold : Nat) (custody : Custody) (held : Option (Nat × Nat))
  | lifeSpent (tool type : Nat) (custody : Custody) (held : Option (Nat × Nat)) (marks limit units : Nat) (late : Bool)
  | handoffResult (station : Nat) (t : Txn) (code : TxnCode)
  | broadcastDone (r : Broadcast) (worst : MemberCode)
  | linkState (station : Nat) (before after : LinkState) (cause : LinkCause) (bad : Nat)
  | timeState (before after : TimeState) (primary secondary : PathStatus) (diff : Option Int) (cause : TimeCause)
deriving DecidableEq, Repr

/-- A report in the queue (R196): its overrun count (0 without the mark), hall time, and when it was queued (R197). -/
structure QueuedReport where
  report : Report
  overrun : Nat
  time : HallTime
  stamp : Nat
deriving DecidableEq, Repr

/-- Which frame the transmitter is sending (R197): the reply, the BUSY reply or the report made at `stamp`. -/
inductive TxItem where
  | reply (stamp : Nat)
  | busy
  | report (stamp : Nat)
deriving DecidableEq, Repr

/-- The frame being sent, its part number and the number of parts (R192). -/
structure TxState where
  item : TxItem
  part : Nat
  parts : Nat
deriving DecidableEq, Repr

/-- A frame that has been sent completely: a part of a reply, a BUSY refusal, or a report. -/
inductive SentFrame where
  | reply (tag kind : Byte) (r : Reply) (part parts : Nat)
  | busy (tag kind : Byte)
  | report (r : QueuedReport)
deriving DecidableEq, Repr

/-- SVP (R203). `enable` holds bit k − 1 for report kind k; `resetting` says that a RESET reply waits to be sent. -/
structure Svp where
  mode : Mode
  rate : Nat
  rx : List Byte
  rxTick : Nat
  buffer : List BufEntry
  busy : Option BusySlot
  reports : List QueuedReport
  enable : Nat
  lost : Nat
  handle : Nat
  discards : Nat
  refusals : Nat
  drops : Nat
  tx : Option TxState
  resetting : Bool
  stamp : Nat
deriving DecidableEq, Repr

/-- SVP after power-on at the given line rate (R203). -/
def Svp.powerOn (rate : Nat) : Svp :=
  { mode := .loading, rate := rate, rx := [], rxTick := 0, buffer := [], busy := none, reports := [], enable := 0x3FFF,
    lost := 0, handle := 1, discards := 0, refusals := 0, drops := 0, tx := none, resetting := false, stamp := 0 }

/-- What the last command put on the lines (log entry 7): frames to each head as bytes, and the supervisory frame it
completed, as its fields and as its bytes. -/
structure Lines where
  headA : List (List Byte)
  headB : List (List Byte)
  sv : Option SentFrame
  svBytes : List Byte
deriving DecidableEq, Repr

end Sys2Proof.Machine
end

