-- ==== Sys2Proof/Config.lean ====
section
/-! DEFINITION. What the spec leaves open and the model leaves free. A constant here has no body, so no proof can see its value. -/

namespace Sys2Proof.Config

/-- The number of data bytes of a reply whose layout the spec does not give (11, opening text), by the kind of the
command answered and the number of list entries carried. It decides how many parts the reply has (R192). Log entry 8. -/
opaque replyDataLength (kind entries : Nat) : Nat

/-- The byte at an index of a reply's data whose layout the spec does not give (11, opening text). Log entry 8. -/
opaque replyDataByte (data : Machine.ReplyData) (index : Nat) : Byte

/-- The kind-specific bytes of a report whose layout the spec does not give (11, opening text). Log entry 8. -/
opaque reportBytes (report : Machine.Report) : List Byte

/-- A field of a TOOL_DATA or LIFE_UPDATE, by its index in the body, that the records no longer hold when the body is built (R160), at
the tick of the building. Log entry 80. -/
opaque lostField (tick tool field : Nat) : Nat

end Sys2Proof.Config
end

