-- ==== Sys2Proof/Decode.lean ====
section
/-! DEFINITION. From the bits of a command to the command: the kinds and body lengths of chapter 11 for host frames. The table
gives no row any bits, so no table word spells a command (log entry 11). -/

namespace Sys2Proof

/-- The command that a host frame of this kind is, by the kind values of 11.2; every other kind is UNKNOWN_KIND (R191). -/
def commandOf (kind tag : Byte) (body : List Byte) : Instr :=
  match kind.toNat with
  | 0x01 => .loadType tag body
  | 0x02 => .deleteType tag body
  | 0x03 => .readType tag body
  | 0x08 => .register tag body
  | 0x09 => .loadInstance tag body
  | 0x0a => .quarantineTool tag body
  | 0x0b => .clearQuarantine tag body
  | 0x0c => .retire tag body
  | 0x0d => .delete tag body
  | 0x0e => .readInstance tag body
  | 0x0f => .listInstances tag body
  | 0x10 => .setCabinet tag body
  | 0x11 => .setPockets tag body
  | 0x12 => .learnEmpty tag body
  | 0x13 => .scanOnce tag body
  | 0x14 => .identify tag body
  | 0x15 => .readPocket tag body
  | 0x16 => .readCabinet tag body
  | 0x18 => .issue tag body
  | 0x19 => .cancel tag body
  | 0x1a => .handOut tag body
  | 0x1b => .benchReturn tag body
  | 0x1c => .setIssue tag body
  | 0x1d => .nextToMeasure tag body
  | 0x1e => .readRequest tag body
  | 0x1f => .listRequests tag body
  | 0x20 => .readPutaway tag body
  | 0x28 => .setCurve tag body
  | 0x29 => .setHead tag body
  | 0x2a => .zeroHead tag body
  | 0x2b => .measureBegin tag body
  | 0x2c => .measureEnd tag body
  | 0x2d => .measureAbort tag body
  | 0x2e => .readHead tag body
  | 0x30 => .regrindOut tag body
  | 0x31 => .regrindBack tag body
  | 0x38 => .setLink tag body
  | 0x39 => .linkRestart tag body
  | 0x3a => .readLink tag body
  | 0x40 => .setStation tag body
  | 0x41 => .setGroup tag body
  | 0x42 => .typeHold tag body
  | 0x43 => .typeRelease tag body
  | 0x44 => .sendData tag body
  | 0x45 => .readHandoff tag body
  | 0x46 => .readGroups tag body
  | 0x47 => .readBroadcast tag body
  | 0x48 => .setTime tag body
  | 0x49 => .setClock tag body
  | 0x4a => .readTime tag body
  | 0x50 => .start tag body
  | 0x51 => .reset tag body
  | 0x52 => .reportEnable tag body
  | 0x53 => .readPort tag body
  | _ => .unknownKindFrame kind tag body

/-- The body length that the layout gives for a kind, with a list's own count (R191, R205); none for a kind of no command. -/
def bodyLength (kind : Byte) (body : List Byte) : Option Nat :=
  match kind.toNat with
  | 0x01 => some 38  -- LOAD_TYPE
  | 0x02 => some 2  -- DELETE_TYPE
  | 0x03 => some 2  -- READ_TYPE
  | 0x08 => some 9  -- REGISTER
  | 0x09 => some 37  -- LOAD_INSTANCE
  | 0x0a => some 2  -- QUARANTINE_TOOL
  | 0x0b => some 2  -- CLEAR_QUARANTINE
  | 0x0c => some 2  -- RETIRE
  | 0x0d => some 2  -- DELETE
  | 0x0e => some 2  -- READ_INSTANCE
  | 0x0f => some 6  -- LIST_INSTANCES
  | 0x10 => some 12  -- SET_CABINET
  | 0x11 => some (4 + (body.getD 3 0).toNat)  -- SET_POCKETS
  | 0x12 => some (2 + (body.getD 1 0).toNat)  -- LEARN_EMPTY
  | 0x13 => some 1  -- SCAN_ONCE
  | 0x14 => some 4  -- IDENTIFY
  | 0x15 => some 2  -- READ_POCKET
  | 0x16 => some 1  -- READ_CABINET
  | 0x18 => some 13  -- ISSUE
  | 0x19 => some 1  -- CANCEL
  | 0x1a => some 1  -- HAND_OUT
  | 0x1b => some 2  -- BENCH_RETURN
  | 0x1c => some 7  -- SET_ISSUE
  | 0x1d => some 0  -- NEXT_TO_MEASURE
  | 0x1e => some 1  -- READ_REQUEST
  | 0x1f => some 1  -- LIST_REQUESTS
  | 0x20 => some 2  -- READ_PUTAWAY
  | 0x28 => some (3 + 2 * (body.getD 2 0).toNat)  -- SET_CURVE
  | 0x29 => some 67  -- SET_HEAD
  | 0x2a => some 1  -- ZERO_HEAD
  | 0x2b => some 3  -- MEASURE_BEGIN
  | 0x2c => some 1  -- MEASURE_END
  | 0x2d => some 1  -- MEASURE_ABORT
  | 0x2e => some 1  -- READ_HEAD
  | 0x30 => some 2  -- REGRIND_OUT
  | 0x31 => some 2  -- REGRIND_BACK
  | 0x38 => some 2  -- SET_LINK
  | 0x39 => some 1  -- LINK_RESTART
  | 0x3a => some 1  -- READ_LINK
  | 0x40 => some 2  -- SET_STATION
  | 0x41 => some (2 + (body.getD 1 0).toNat)  -- SET_GROUP
  | 0x42 => some 3  -- TYPE_HOLD
  | 0x43 => some 3  -- TYPE_RELEASE
  | 0x44 => some 2  -- SEND_DATA
  | 0x45 => some 1  -- READ_HANDOFF
  | 0x46 => some 0  -- READ_GROUPS
  | 0x47 => some 1  -- READ_BROADCAST
  | 0x48 => some 4  -- SET_TIME
  | 0x49 => some 3  -- SET_CLOCK
  | 0x4a => some 0  -- READ_TIME
  | 0x50 => some 0  -- START
  | 0x51 => some 0  -- RESET
  | 0x52 => some 2  -- REPORT_ENABLE
  | 0x53 => some 1  -- READ_PORT
  | _ => none

/-- Whether a body's length fits its kind's layout (R191). -/
def bodyFits (kind : Byte) (body : List Byte) : Bool :=
  bodyLength kind body == some body.length

/-- The command that a word of the opcode table spells: none, since no row of the table gives bits. -/
def decodeTableWord (_nbits _w : Nat) : Option Instr := none

end Sys2Proof
end

