-- ==== Sys2Proof/Machine/Crc.lean ====
section
/-! DEFINITION. The 16-bit check of every line (00_scope.md, Check value; R205), and numbers to and from their bytes. -/

namespace Sys2Proof.Machine

/-- One bit of the CRC with generator x^16 + x^12 + x^5 + 1, most significant bit first. -/
def crcBit (c : BitVec 16) : BitVec 16 :=
  if c.msb then (c <<< 1) ^^^ 0x1021#16 else c <<< 1

/-- One byte of the CRC. -/
def crcByte (c : BitVec 16) (b : Byte) : BitVec 16 :=
  crcBit (crcBit (crcBit (crcBit (crcBit (crcBit (crcBit (crcBit (c ^^^ (b.setWidth 16 <<< 8)))))))))

/-- The check of a run of bytes: initial value FFFFh, no final inversion. -/
def crc16 (bytes : List Byte) : BitVec 16 := bytes.foldl crcByte 0xFFFF#16

/-- A number as `len` bytes, most significant first (R205). -/
def bytesOf (len n : Nat) : List Byte :=
  match len with
  | 0 => []
  | k + 1 => BitVec.ofNat 8 (n / 256 ^ k) :: bytesOf k n

/-- A signed number as `len` bytes in two's complement (R205). -/
def bytesOfInt (len : Nat) (v : Int) : List Byte :=
  bytesOf len (if v < 0 then (v + (256 ^ len : Nat)).toNat else v.toNat)

/-- The number that a run of bytes spells, most significant first (R205). -/
def numberOf (bytes : List Byte) : Nat := bytes.foldl (fun a b => a * 256 + b.toNat) 0

/-- The `len` bytes at offset `off` of a body as a number. -/
def fieldAt (body : List Byte) (off len : Nat) : Nat := numberOf ((body.drop off).take len)

/-- A number of `len` bytes read as two's complement (R205). -/
def signedOf (len n : Nat) : Int := if 2 * n < 256 ^ len then (n : Int) else (n : Int) - (256 ^ len : Nat)

/-- The `len` bytes at offset `off` of a body as a signed number. -/
def signedAt (body : List Byte) (off len : Nat) : Int := signedOf len (fieldAt body off len)

/-- Bit `i` of the byte at offset `off` of a body. -/
def flagAt (body : List Byte) (off i : Nat) : Bool := (body.getD off 0).getLsbD i

/-- The check field of a run of bytes. -/
def checkBytes (bytes : List Byte) : List Byte := bytesOf 2 (crc16 bytes).toNat

end Sys2Proof.Machine
end

