-- ==== Sys2Proof/Machine/State.lean ====
section
/-! DEFINITION. State: the nine blocks' state, the lines and the queue of waiting commands; the state after reset; the reasons
a command can stop. -/

namespace Sys2Proof.Machine

/-- Why a command stops with a fault. -/
inductive Fault where
  /-- Raised by a command of a cabinet, pocket or station outside 1 to 12, 1 to 64 or 1 to 32: the part has no such
  line, so no such event exists. Safe: nothing is claimed of it. -/
  | noSuchLine
deriving DecidableEq, Repr

/-- Why a command is refused. -/
inductive Refusal where
  /-- Raised by an arm of exec whose command has no meaning yet. Safe: nothing is claimed of it. -/
  | notModelled (mnemonic : String)
deriving DecidableEq, Repr

/-- The state of the part: a block's field holds what the spec gives the block; `lines` is what the last command put on
the lines; `pending` is the queue of commands, first in, first out. -/
structure State where
  pending : List Instr
  svp : Svp
  hck : Hck
  trg : Trg
  psc : Psc
  isc : Isc
  msu : Msu
  slc : Slc
  hoe : Hoe
  lines : Lines
deriving DecidableEq, Repr

/-- No message on any line. -/
def Lines.quiet : Lines := { headA := [], headB := [], sv := none, svBytes := [] }

/-- TRG after power-on and RESET (R27). -/
def Trg.reset : Trg := { types := [], insts := [] }

/-- PSC after power-on and RESET (R28, R46). -/
def Psc.reset : Psc := { pockets := [], cabinets := [] }

/-- ISC after power-on and RESET (R76, R74). -/
def Isc.reset : Isc :=
  { queue := [], nextNumber := 1, entries := 0, latePicks := [], assigned := [], waiting := [], damaged := [],
    pickTimeout := 120, expiryGrace := 600, putawayTimeout := 300 }

/-- MSU after power-on and RESET (R96). -/
def Msu.reset : Msu := { a := Head.reset, b := Head.reset }

/-- SLC after power-on and RESET (R153). -/
def Slc.reset : Slc := { links := [] }

/-- HOE after power-on and RESET (R175). -/
def Hoe.reset : Hoe :=
  { stations := [], groups := [], broadcasts := [none, none, none, none], nextBroadcast := 1, nextTxn := 1, entries := 0 }

/-- The state right after power-on with both rate straps at 0 (R203, R188); see log entry 10 for the straps. -/
def State.reset : State :=
  { pending := [], svp := Svp.powerOn 115200, hck := Hck.powerOn, trg := Trg.reset, psc := Psc.reset, isc := Isc.reset,
    msu := Msu.reset, slc := Slc.reset, hoe := Hoe.reset, lines := Lines.quiet }

end Sys2Proof.Machine
end

