-- ==== Sys2Proof/Machine/Ops.lean ====
section
/-! DEFINITION. The named operations that every meaning is written over: tables by number, the records of the blocks, hall time
and ticks, reports (R196), replies and the transmitter (R190 to R197). -/

namespace Sys2Proof.Machine

/-! ### Tables by number -/

/-- The record listed under a number. -/
def tget (t : Table α) (k : Nat) : Option α :=
  match t with
  | [] => none
  | (j, v) :: rest => if j = k then some v else tget rest k

/-- The table with the record under a number set, in ascending number. -/
def tset (t : Table α) (k : Nat) (v : α) : Table α :=
  match t with
  | [] => [(k, v)]
  | (j, w) :: rest => if j = k then (k, v) :: rest else if k < j then (k, v) :: (j, w) :: rest else (j, w) :: tset rest k v

/-- The table without the record under a number. -/
def tdel (t : Table α) (k : Nat) : Table α := t.filter (fun e => e.1 ≠ k)

/-- The record under a number, `d` where none is listed. -/
def dget (d : α) (t : Table α) (k : Nat) : α := (tget t k).getD d

/-- The table with the record under a number set; a record equal to `d` is not listed. -/
def dset [DecidableEq α] (d : α) (t : Table α) (k : Nat) (v : α) : Table α := if v = d then tdel t k else tset t k v

/-- The canonical form of a table: numbers strictly rising. -/
def tableSorted (t : Table α) : Bool :=
  match t with
  | [] => true
  | [_] => true
  | (j, _) :: (k, w) :: rest => decide (j < k) && tableSorted ((k, w) :: rest)

/-- Insertion in ascending order of a key, after the elements with an equal key. -/
def insertBy (key : α → Nat) (x : α) (xs : List α) : List α :=
  match xs with
  | [] => [x]
  | y :: rest => if key x < key y then x :: y :: rest else y :: insertBy key x rest

/-- A list in ascending order of a key, equal keys in their order. -/
def sortBy (key : α → Nat) (xs : List α) : List α := xs.foldl (fun acc x => insertBy key x acc) []

/-- The next value of a cyclic counter that runs from 1 to `top`. -/
def cyclicNext (top n : Nat) : Nat := if n ≥ top then 1 else n + 1

/-! ### Records of the blocks -/

/-- The key of a pocket: ascending cabinet, then ascending pocket. -/
def pocketKey (c p : Nat) : Nat := c * 64 + (p - 1)

/-- The cabinet of a pocket key. -/
def keyCabinet (k : Nat) : Nat := k / 64

/-- The pocket of a pocket key. -/
def keyPocket (k : Nat) : Nat := k % 64 + 1

/-- A link record after power-on and RESET (R134, R153). -/
def Link.reset : Link :=
  { state := .down, policy := .auto, lastByte := none, expected := none, misses := 0, held := none, acqRun := 0, acqCount := 0,
    returns := [], outstanding := [], applied := [], density := [], outNumber := 1, lastSeen := none, rx := [], period := 0,
    lastSent := List.replicate 32 0, lastCheck := crc16 (List.replicate 32 0) }

/-- The type record of a number, if present (R1). -/
def State.type (s : State) (n : Nat) : Option TypeRec := tget s.trg.types n

/-- The instance record of a number, if present (R8). -/
def State.tool (s : State) (n : Nat) : Option InstRec := tget s.trg.insts n

/-- The pocket record (R28). -/
def State.pocket (s : State) (c p : Nat) : Pocket := dget Pocket.reset s.psc.pockets (pocketKey c p)

/-- The cabinet (R30). -/
def State.cab (s : State) (c : Nat) : Cabinet := dget Cabinet.reset s.psc.cabinets c

/-- The link record of a station (R134). -/
def State.link (s : State) (n : Nat) : Link := dget Link.reset s.slc.links n

/-- What HOE keeps of a station. -/
def State.station (s : State) (n : Nat) : Station := dget Station.reset s.hoe.stations n

/-- The stations of a group (R169). -/
def State.group (s : State) (g : Nat) : List Nat := dget [] s.hoe.groups g

/-- What MSU keeps of a head. -/
def State.head (s : State) (h : HeadId) : Head :=
  match h with
  | .a => s.msu.a
  | .b => s.msu.b

/-- A path checker (R178). -/
def State.path (s : State) (l : PulseLine) : Path :=
  match l with
  | .primary => s.hck.primary
  | .secondary => s.hck.secondary

def State.setType (s : State) (n : Nat) (r : TypeRec) : State := { s with trg := { s.trg with types := tset s.trg.types n r } }

def State.delType (s : State) (n : Nat) : State := { s with trg := { s.trg with types := tdel s.trg.types n } }

def State.setTool (s : State) (n : Nat) (r : InstRec) : State := { s with trg := { s.trg with insts := tset s.trg.insts n r } }

def State.delTool (s : State) (n : Nat) : State := { s with trg := { s.trg with insts := tdel s.trg.insts n } }

def State.setPocket (s : State) (c p : Nat) (r : Pocket) : State :=
  { s with psc := { s.psc with pockets := dset Pocket.reset s.psc.pockets (pocketKey c p) r } }

def State.setCab (s : State) (c : Nat) (r : Cabinet) : State :=
  { s with psc := { s.psc with cabinets := dset Cabinet.reset s.psc.cabinets c r } }

def State.setLink (s : State) (n : Nat) (r : Link) : State :=
  { s with slc := { s.slc with links := dset Link.reset s.slc.links n r } }

def State.setStation (s : State) (n : Nat) (r : Station) : State :=
  { s with hoe := { s.hoe with stations := dset Station.reset s.hoe.stations n r } }

def State.setGroup (s : State) (g : Nat) (members : List Nat) : State :=
  { s with hoe := { s.hoe with groups := dset [] s.hoe.groups g members } }

def State.setHead (s : State) (h : HeadId) (r : Head) : State :=
  match h with
  | .a => { s with msu := { s.msu with a := r } }
  | .b => { s with msu := { s.msu with b := r } }

def State.setPath (s : State) (l : PulseLine) (r : Path) : State :=
  match l with
  | .primary => { s with hck := { s.hck with primary := r } }
  | .secondary => { s with hck := { s.hck with secondary := r } }

def State.setIsc (s : State) (r : Isc) : State := { s with isc := r }

def State.setHck (s : State) (r : Hck) : State := { s with hck := r }

def State.setSvp (s : State) (r : Svp) : State := { s with svp := r }

def State.setHoe (s : State) (r : Hoe) : State := { s with hoe := r }

/-- A change of one field of an instance record that causes no transition. -/
def State.modTool (s : State) (n : Nat) (f : InstRec → InstRec) : State :=
  match s.tool n with
  | some r => s.setTool n (f r)
  | none => s

/-- The part is RUNNING (R199). -/
def State.running (s : State) : Bool := s.svp.mode == .running

/-- The present hall time (R177). -/
def State.now (s : State) : HallTime := s.hck.hall

/-- The present tick count (R176). -/
def State.tick (s : State) : Nat := s.hck.tick

/-! ### Reports (R196) -/

/-- The number of a report's kind, 1 for POCKET_EVENT to 14 for TIME_STATE (11.2). -/
def Report.kind (r : Report) : Nat :=
  match r with
  | .pocketEvent _ _ _ _ _ _ _ => 1
  | .scanDone _ _ _ _ => 1
  | .learnDone _ _ _ _ _ => 1
  | .discrepancy _ _ _ _ _ => 2
  | .custodyChange _ _ _ _ _ _ _ _ => 3
  | .requestState _ _ => 4
  | .requestDropped _ _ _ _ _ => 5
  | .presetWanted _ _ _ _ => 6
  | .cribFull _ _ _ => 7
  | .headState _ _ _ => 8
  | .zeroState _ _ _ => 8
  | .verdict _ _ _ _ _ => 8
  | .closedZero _ _ _ => 8
  | .closed _ _ _ _ _ _ _ => 8
  | .lifeWarning _ _ _ _ _ _ => 9
  | .lifeSpent _ _ _ _ _ _ _ _ => 10
  | .handoffResult _ _ _ => 11
  | .broadcastDone _ _ => 12
  | .linkState _ _ _ _ _ => 13
  | .timeState _ _ _ _ _ _ => 14

/-- Whether a report kind is enabled (R198). -/
def Svp.enabled (v : Svp) (kind : Nat) : Bool := v.enable.testBit (kind - 1)

/-- SVP takes a report made at a hall time: lost, discarded and counted, or queued (R196). -/
def Svp.report (v : Svp) (time : HallTime) (r : Report) : Svp :=
  if v.enabled r.kind = false then v
  else if v.reports.length ≥ 32 then { v with lost := min (v.lost + 1) 65535 }
  else
    { v with
      reports := v.reports ++ [{ report := r, overrun := v.lost, time := time, stamp := v.stamp }]
      lost := 0
      stamp := v.stamp + 1 }

/-- A block hands SVP a report (R196). -/
def State.report (s : State) (r : Report) : State := s.setSvp (s.svp.report s.now r)

/-! ### Replies, the receive buffer and the transmitter (R190 to R197) -/

/-- A reply with a code alone. -/
def Reply.plain (c : ReplyCode) : Reply := { code := c, data := .nothing }

/-- The frames of the buffer not yet taken, oldest first (R191). -/
def Svp.untaken (v : Svp) : List HostFrame := (v.buffer.filter (fun e => e.reply.isNone)).map (·.frame)

/-- A frame received whole meets the buffer: it joins, is refused BUSY, or is discarded (R190). -/
def Svp.receive (v : Svp) (f : HostFrame) : Svp :=
  if v.buffer.length < 4 then { v with buffer := v.buffer ++ [{ frame := f, reply := none }] }
  else
    match v.busy with
    | none =>
      { v with
        busy := some { kind := f.kind, tag := f.tag, stamp := v.stamp }
        stamp := v.stamp + 1
        refusals := min (v.refusals + 1) 65535 }
    | some _ => { v with drops := min (v.drops + 1) 65535 }

/-- Whether the next frame to be taken is this one: never while a RESET reply waits to be sent (R191, R202). -/
def Svp.takes (v : Svp) (f : HostFrame) : Bool := !v.resetting && v.untaken.head? == some f

/-- The reply is attached to the oldest untaken frame, which is the one in handling (R191). -/
def attachReply (stamp : Nat) (r : Reply) (b : List BufEntry) : List BufEntry :=
  match b with
  | [] => []
  | e :: rest => if e.reply.isNone then { e with reply := some (stamp, r) } :: rest else e :: attachReply stamp r rest

/-- Making a reply ends the handling of its command (R191). -/
def Svp.makeReply (v : Svp) (r : Reply) : Svp :=
  { v with buffer := attachReply v.stamp r v.buffer, stamp := v.stamp + 1 }

/-- The number of list entries that the length of a reply's data can depend on. -/
def ReplyData.entries (d : ReplyData) : Nat :=
  match d with
  | .instList ns _ => ns.length
  | .worklist rows => rows.length
  | .requests _ rows => rows.length
  | .head _ r _ _ _ _ => (r.session.map (·.captures.length)).getD 0
  | .link _ r _ _ => r.outstanding.length + r.density.length
  | .handoff _ r => r.magazine.length + r.queue.length + r.replies.length + r.unacked.length
  | .groups sets => (sets.map List.length).sum
  | .broadcast r _ => r.results.length
  | _ => 0

/-- The data fit one body of 246 data bytes: their layout is stated (11.2, 11.3), or they are a handful of fixed fields, which
fit under any layout (log entry 8). -/
def ReplyData.oneBody (d : ReplyData) : Bool :=
  match d with
  | .nothing => true
  | .handle _ => true
  | .requestHandle _ _ => true
  | .typeRec _ _ => true
  | .instRec _ _ => true
  | .pocket _ _ _ _ => true
  | .cabinet _ _ _ => true
  | .request _ => true
  | .putaway _ _ => true
  | .sessionEnd _ _ => true
  | .time _ => true
  | .port _ _ _ _ _ _ _ _ _ _ _ => true
  | .disagreement _ _ _ _ => true
  | .instList _ _ => false
  | .worklist _ => false
  | .requests _ _ => false
  | .head _ _ _ _ _ _ => false
  | .link _ _ _ _ => false
  | .handoff _ _ => false
  | .groups _ => false
  | .broadcast _ _ => false

/-- The number of parts of a reply: 246 data bytes a body beside the four of its opening (R192, 11.2). -/
def replyParts (kind : Byte) (r : Reply) : Nat :=
  if r.data.oneBody then 1 else max 1 ((Config.replyDataLength kind.toNat r.data.entries + 245) / 246)

/-- The replies made and not yet sent, oldest place first. -/
def Svp.madeReplies (v : Svp) : List (Nat × HostFrame × Reply) :=
  v.buffer.filterMap (fun e => e.reply.map (fun r => (r.1, e.frame, r.2)))

/-- The frames waiting to be sent, each with the moment it was made (R197). -/
def Svp.waitingFrames (v : Svp) : List (Nat × TxState) :=
  v.madeReplies.map (fun e => (e.1, { item := .reply e.1, part := 1, parts := replyParts e.2.1.kind e.2.2 })) ++
  (match v.busy with
   | some b => [(b.stamp, { item := .busy, part := 1, parts := 1 })]
   | none => []) ++
  (match v.reports with
   | r :: _ => [(r.stamp, { item := .report r.stamp, part := 1, parts := 1 })]
   | [] => [])

/-- The earliest-made of the waiting frames (R197). -/
def earliest (fs : List (Nat × TxState)) : Option (Nat × TxState) :=
  fs.foldl (fun acc f => match acc with
    | none => some f
    | some g => if f.1 < g.1 then some f else some g) none

/-- A free transmitter starts the frame made earliest (R197). -/
def Svp.startTx (v : Svp) : Svp :=
  match v.tx with
  | some _ => v
  | none => { v with tx := (earliest v.waitingFrames).map (·.2) }

/-- A command's step begins with nothing on the lines (log entry 7). -/
def State.quiet (s : State) : State := { s with lines := Lines.quiet }

/-- A command's step ends with a free transmitter taking up the earliest frame (R197). -/
def State.settle (s : State) : State := s.setSvp s.svp.startTx

/-- The step of an event or a message of a line. -/
def event (f : State → State) (s : State) : Host.Outcome State Fault Refusal := .next (f s.quiet).settle

/-- The frame of a command row reaches the buffer, unless it stands there as the next to be taken, or waits there for a RESET
(log entry 4). -/
def State.bringIn (s : State) (f : HostFrame) : State :=
  if s.svp.untaken.head? == some f then s else s.setSvp (s.svp.receive f)

/-- SVP takes a command, checks its body against its kind's layout, has the owning block run it, and makes the reply
(R191). A frame that is not next to be taken stays in the buffer. -/
def hostCommand (kind tag : Byte) (body : List Byte) (run : State → State × Reply) (s : State) :
    Host.Outcome State Fault Refusal :=
  event (fun s =>
    let s := s.bringIn ⟨kind, tag, body⟩
    if s.svp.takes ⟨kind, tag, body⟩ then
      let out := if bodyFits kind body then run s else (s, Reply.plain .badLength)
      out.1.setSvp (out.1.svp.makeReply out.2)
    else s) s

/-- A command that only reads: the reply is a function of the state (R191). -/
def readCommand (kind tag : Byte) (body : List Byte) (answer : State → Reply) (s : State) : Host.Outcome State Fault Refusal :=
  hostCommand kind tag body (fun s => (s, answer s)) s

/-- A frame to a head line: start, length, kind, body and check (R207). -/
def headFrame (kind : Byte) (body : List Byte) : List Byte :=
  let inner := bytesOf 2 (body.length + 1) ++ [kind] ++ body
  [0xA5] ++ inner ++ checkBytes inner

/-- The part sends a frame on a head line (R77). -/
def State.sendHead (s : State) (h : HeadId) (frame : List Byte) : State :=
  match h with
  | .a => { s with lines := { s.lines with headA := s.lines.headA ++ [frame] } }
  | .b => { s with lines := { s.lines with headB := s.lines.headB ++ [frame] } }

/-- The next handle (R193). -/
def State.takeHandle (s : State) : State := s.setSvp { s.svp with handle := cyclicNext 65535 s.svp.handle }

end Sys2Proof.Machine
end

