-- ==== Sys2Proof/Machine/Flags.lean ====
section
/-! DEFINITION. The conditions that the rules test and that no register holds: sensing, availability, validity of a zero, running
links, held places, bounds and thresholds. -/

namespace Sys2Proof.Machine

/-- A pocket is sensing when enabled, with a baseline, and not in FAULT (R29). -/
def Pocket.sensing (p : Pocket) : Bool := p.enabled && p.baseline.isSome && p.state != .fault

/-- A pocket that ISC may assign: EMPTY, enabled, with a baseline and of the zone (R68). -/
def Pocket.suitable (p : Pocket) (z : Zone) : Bool :=
  p.state == .empty && p.enabled && p.baseline.isSome && p.zone == z

/-- A pocket whose entry into EMPTY is announced (R37). -/
def Pocket.free (p : Pocket) : Bool := p.state == .empty && p.enabled && p.baseline.isSome

/-- Bound of a baseline under a deviation in per-mille, rounded down (R35). -/
def boundOf (baseline dev : Nat) : Nat := baseline * (1000 - dev) / 1000

/-- A pocket with its bounds computed from its baseline and the cabinet's deviations (R30, R35). -/
def Pocket.withBounds (p : Pocket) (c : CabSettings) : Pocket :=
  { p with presentBound := p.baseline.map (fun b => boundOf b c.presentDev)
           absentBound := p.baseline.map (fun b => boundOf b c.absentDev) }

/-- Why a head is unavailable, none when it is available (R78, R95); SILENT and FAULT stand ahead of NO_CURVES where both hold (log
entry 83, the model's choice). -/
def Head.reason (h : Head) : Option Unavailable :=
  match h.line with
  | .silent => some .silent
  | .fault => some .fault
  | .ready => if h.zCurve.isSome && h.xCurve.isSome then none else some .noCurves

/-- A head is available while its line state is READY and both tables are loaded (R78). -/
def Head.available (h : Head) : Bool := h.reason.isNone

/-- The zero's age lies within the zero life (R80). -/
def Head.ageOk (h : Head) (tick : Nat) : Bool :=
  match h.zero with
  | none => false
  | some z => decide (tick ≤ z.tick + h.settings.zeroLife * 3600000)

/-- The last scale temperature lies within the drift limit of the zero temperature (R80). -/
def Head.tempOk (h : Head) : Bool :=
  match h.zero, h.scaleTemp with
  | some z, some t => decide ((t - z.temp).natAbs ≤ h.settings.drift)
  | _, _ => false

/-- A present zero is valid by age and temperature (R80). -/
def Head.zeroValid (h : Head) (tick : Nat) : Bool := h.ageOk tick && h.tempOk

/-- The running states of a link (7.3). -/
def LinkState.running (l : LinkState) : Bool :=
  match l with
  | .checked => true
  | .echo => true
  | _ => false

/-- The number of BAD judgements in the density window (R140). -/
def Link.bad (l : Link) : Nat := (l.density.filter (fun g => !g)).length

/-- The place at station s where an instance is held: the destination of an ISSUED instance, the place of a LOADED one
(R163). -/
def InstRec.heldPlace (r : InstRec) : Option (Nat × Nat) :=
  match r.custody, r.loc with
  | .issued, .toStation s p => some (s, p)
  | .issued, .station s p => some (s, p)
  | .loaded, .station s p => some (s, p)
  | _, _ => none

/-- The states in which an instance needs put-away if it holds no assignment (R67). -/
def InstRec.wantsPutaway (r : InstRec) : Bool :=
  match r.custody, r.loc with
  | .staged, .bench => true
  | .unmeasured, .bench => true
  | .quarantine, .bench => true
  | .regrindDue, .bench => true
  | .returning, _ => true
  | _, _ => false

/-- The allowed pairs of custody and location (R12). -/
def allowedPair (c : Custody) (l : Location) : Bool :=
  match c, l with
  | .unmeasured, .pocket _ _ => true
  | .unmeasured, .bench => true
  | .atPresetter, .head _ => true
  | .staged, .bench => true
  | .ready, .pocket _ _ => true
  | .reserved, .pocket _ _ => true
  | .reserved, .bench => true
  | .issued, .toStation _ _ => true
  | .issued, .toBench => true
  | .issued, .station _ _ => true
  | .loaded, .station _ _ => true
  | .returning, .backStation _ => true
  | .returning, .backBench => true
  | .quarantine, .pocket _ _ => true
  | .quarantine, .bench => true
  | .missing, .nowhere => true
  | .regrindDue, .pocket _ _ => true
  | .regrindDue, .bench => true
  | .atRegrind, .offsite => true
  | .retired, .nowhere => true
  | _, _ => false

/-- The warning threshold of a type (R115). -/
def TypeRec.threshold (t : TypeRec) : Nat := t.warnLevel * t.budget / 1000

/-- The type is present and held (R1). -/
def State.typeHeld (s : State) (n : Nat) : Bool := ((s.type n).map (·.held)).getD false

/-- Severity of a member result (R173). -/
def MemberCode.severity (c : MemberCode) : Nat :=
  match c with
  | .ok => 0
  | .refused => 1
  | .checkFailed => 2
  | .timeout => 3
  | .offline => 4

/-- The higher of two member results in severity (R173). -/
def MemberCode.worse (a b : MemberCode) : MemberCode := if a.severity < b.severity then b else a

/-- The worst code of a broadcast: the highest result held (R173). A record that holds no result shows OK (log entry 91, the
model's choice). -/
def Broadcast.worst (b : Broadcast) : MemberCode :=
  b.results.foldl (fun acc m => match m.2 with
    | some c => acc.worse c
    | none => acc) .ok

/-- Whether a member of a broadcast has still to respond (R172). -/
def Broadcast.pending (b : Broadcast) : Bool := b.results.any (fun m => m.2.isNone)

/-- Rank of a priority: URGENT first (R49). -/
def Priority.rank (p : Priority) : Nat :=
  match p with
  | .urgent => 1
  | .normal => 2
  | .prefetch => 3

/-- Service order of two requests: priority, needed-by with absent last, enqueue tick, order of entry (R49). -/
def Request.before (a b : Request) : Bool :=
  let needed := fun (r : Request) => match r.neededBy with
    | some n => n
    | none => 4294967296
  if a.prio.rank ≠ b.prio.rank then decide (a.prio.rank < b.prio.rank)
  else if needed a ≠ needed b then decide (needed a < needed b)
  else if a.enqTick ≠ b.enqTick then decide (a.enqTick < b.enqTick)
  else decide (a.entry < b.entry)

/-- The request's state lets an allocation pass or an expiry test take it (R55, R65). -/
def Request.open (r : Request) : Bool :=
  match r.state with
  | .queued => true
  | .waitingStock => true
  | _ => false

/-- The transaction is a TOOL_DATA of this instance. -/
def TxnKind.isDataOf (k : TxnKind) (tool : Nat) : Bool :=
  match k with
  | .toolData t _ _ => t == tool
  | _ => false

/-- The transaction is a notice of this type. -/
def TxnKind.isNoticeOf (k : TxnKind) (type : Nat) : Bool :=
  match k with
  | .notice _ t => t == type
  | _ => false

/-- The transaction names this instance. -/
def TxnKind.names (k : TxnKind) (tool : Nat) : Bool :=
  match k with
  | .toolData t _ _ => t == tool
  | .lifeUpdate t _ _ => t == tool
  | .notice _ _ => false

/-- The first class of a handoff queue: blocked LIFE_UPDATEs and notices (R159). -/
def TxnKind.firstClass (k : TxnKind) : Bool :=
  match k with
  | .toolData _ _ _ => false
  | .lifeUpdate _ _ b => b
  | .notice _ _ => true

end Sys2Proof.Machine
end

