-- ==== Sys2Proof/Machine/Operands.lean ====
section
/-! DEFINITION. The operand forms: the fields of every command body, station body and head body by the layouts of chapter 11, and
the bytes the part makes where the spec gives their layout. A code that the layout does not list reads as none. -/

namespace Sys2Proof.Machine

/-! ### Codes shared by the register formats (11.3) -/

def custodyOf (n : Nat) : Option Custody :=
  match n with
  | 1 => some .unmeasured
  | 2 => some .atPresetter
  | 3 => some .staged
  | 4 => some .ready
  | 5 => some .reserved
  | 6 => some .issued
  | 7 => some .loaded
  | 8 => some .returning
  | 9 => some .quarantine
  | 10 => some .missing
  | 11 => some .regrindDue
  | 12 => some .atRegrind
  | 13 => some .retired
  | _ => none

def Custody.code (c : Custody) : Nat :=
  match c with
  | .unmeasured => 1
  | .atPresetter => 2
  | .staged => 3
  | .ready => 4
  | .reserved => 5
  | .issued => 6
  | .loaded => 7
  | .returning => 8
  | .quarantine => 9
  | .missing => 10
  | .regrindDue => 11
  | .atRegrind => 12
  | .retired => 13

def qcauseOf (n : Nat) : Option QCause :=
  match n with
  | 1 => some .reject
  | 2 => some .typeHold
  | 3 => some .damaged
  | 4 => some .discrepancy
  | 5 => some .host
  | _ => none

def QCause.code (c : QCause) : Nat :=
  match c with
  | .reject => 1
  | .typeHold => 2
  | .damaged => 3
  | .discrepancy => 4
  | .host => 5

def headOf (n : Nat) : Option HeadId :=
  match n with
  | 1 => some .a
  | 2 => some .b
  | _ => none

def headCode (h : HeadId) : Nat :=
  match h with
  | .a => 1
  | .b => 2

def classOf (n : Nat) : Option ToolClass :=
  match n with
  | 0 => some .lengthOnly
  | 1 => some .lengthRadius
  | _ => none

def ToolClass.code (c : ToolClass) : Nat :=
  match c with
  | .lengthOnly => 0
  | .lengthRadius => 1

def governedOf (n : Nat) : Option Governed :=
  match n with
  | 0 => some .length
  | 1 => some .radius
  | _ => none

def Governed.code (g : Governed) : Nat :=
  match g with
  | .length => 0
  | .radius => 1

def lifeUnitOf (n : Nat) : Option LifeUnit :=
  match n with
  | 0 => some .seconds
  | 1 => some .hits
  | _ => none

def LifeUnit.code (u : LifeUnit) : Nat :=
  match u with
  | .seconds => 0
  | .hits => 1

def priorityOf (n : Nat) : Option Priority :=
  match n with
  | 1 => some .urgent
  | 2 => some .normal
  | 3 => some .prefetch
  | _ => none

/-- A location from its four bytes (11.3). A byte that the layout lists as 0 for the kind is not looked at, but for the
sub-kind, which is a code (log entry 37). -/
def locationOf (kind sub a b : Nat) : Option Location :=
  match kind, sub with
  | 0, 0 => some .nowhere
  | 1, 0 => if decide (1 ≤ a ∧ a ≤ 12 ∧ 1 ≤ b ∧ b ≤ 64) then some (.pocket a b) else none
  | 2, 0 => some .bench
  | 3, 0 => (headOf a).map .head
  | 4, 1 => if decide (1 ≤ a ∧ a ≤ 32) then some (.toStation a b) else none
  | 4, 2 => some .toBench
  | 4, 3 => if decide (1 ≤ a ∧ a ≤ 32) then some (.backStation a) else none
  | 4, 4 => some .backBench
  | 5, 0 => if decide (1 ≤ a ∧ a ≤ 32) then some (.station a b) else none
  | 6, 0 => some .offsite
  | _, _ => none

/-- The four bytes of a location (11.3). -/
def Location.bytes (l : Location) : List Byte :=
  let row := fun (k s a b : Nat) => bytesOf 1 k ++ bytesOf 1 s ++ bytesOf 1 a ++ bytesOf 1 b
  match l with
  | .nowhere => row 0 0 0 0
  | .pocket c p => row 1 0 c p
  | .bench => row 2 0 0 0
  | .head h => row 3 0 (headCode h) 0
  | .toStation s p => row 4 1 s p
  | .toBench => row 4 2 0 0
  | .backStation s => row 4 3 s 0
  | .backBench => row 4 4 0 0
  | .station s p => row 5 0 s p
  | .offsite => row 6 0 0 0

/-- A flag byte from its bits, bit 0 first (R205). -/
def flagByte (bits : List Bool) : Byte :=
  BitVec.ofNat 8 (bits.foldr (fun b acc => acc * 2 + b.toNat) 0)

/-! ### The type record (11.3) -/

/-- The fields of LOAD_TYPE, whatever their ranges; none for an unlisted code (R205). Held is no (R1). -/
def typeFields (b : List Byte) : Option TypeRec := do
  let cls ← classOf (fieldAt b 2 1)
  let unit ← lifeUnitOf (fieldAt b 27 1)
  let governed ← governedOf (fieldAt b 33 1)
  pure
    { cls := cls
      adjustable := flagAt b 3 0
      nominalLength := fieldAt b 4 3
      nominalRadius := fieldAt b 7 3
      lengthBand := ⟨signedAt b 10 2, signedAt b 12 2⟩
      radiusBand := ⟨signedAt b 14 2, signedAt b 16 2⟩
      adjustBand := if flagAt b 3 1 then some ⟨signedAt b 18 2, signedAt b 20 2⟩ else none
      runoutLimit := fieldAt b 22 2
      expansion := fieldAt b 24 2
      adapter := fieldAt b 26 1
      lifeUnit := unit
      budget := fieldAt b 28 3
      warnLevel := fieldAt b 31 2
      governed := governed
      regrindStep := fieldAt b 34 2
      regrindLimit := fieldAt b 36 1
      keepOnReturn := flagAt b 3 2
      autoPrefetch := flagAt b 3 3
      autoReplace := flagAt b 3 4
      home := if flagAt b 3 5 then some (fieldAt b 37 1) else none
      held := false }

/-- The 38 bytes of a type record (11.3): the data of READ_TYPE. -/
def typeBytes (n : Nat) (r : TypeRec) : List Byte :=
  let adjust := r.adjustBand.getD ⟨0, 0⟩
  bytesOf 2 n ++ bytesOf 1 r.cls.code ++
  [flagByte [r.adjustable, r.adjustBand.isSome, r.keepOnReturn, r.autoPrefetch, r.autoReplace, r.home.isSome, r.held]] ++
  bytesOf 3 r.nominalLength ++ bytesOf 3 r.nominalRadius ++
  bytesOfInt 2 r.lengthBand.lower ++ bytesOfInt 2 r.lengthBand.upper ++
  bytesOfInt 2 r.radiusBand.lower ++ bytesOfInt 2 r.radiusBand.upper ++
  bytesOfInt 2 adjust.lower ++ bytesOfInt 2 adjust.upper ++
  bytesOf 2 r.runoutLimit ++ bytesOf 2 r.expansion ++ bytesOf 1 r.adapter ++ bytesOf 1 r.lifeUnit.code ++
  bytesOf 3 r.budget ++ bytesOf 2 r.warnLevel ++ bytesOf 1 r.governed.code ++ bytesOf 2 r.regrindStep ++
  bytesOf 1 r.regrindLimit ++ bytesOf 1 (r.home.getD 0)

/-- A band whose lower value lies in −20,000 to 0 and upper value in 0 to 20,000 (R1). -/
def Band.inRange (b : Band) : Bool := decide (-20000 ≤ b.lower ∧ b.lower ≤ 0 ∧ 0 ≤ b.upper ∧ b.upper ≤ 20000)

/-- The checks of LOAD_TYPE on the record alone (R2). -/
def TypeRec.inRange (r : TypeRec) : Bool :=
  decide (r.nominalLength ≤ 4000000) && decide (r.nominalRadius ≤ 1500000) && r.lengthBand.inRange && r.radiusBand.inRange &&
  decide (r.runoutLimit ≤ 5000) && decide (r.expansion ≤ 3000) && decide (r.adapter ≤ 15) &&
  decide (1 ≤ r.budget ∧ r.budget ≤ 4000000) && decide (r.warnLevel ≤ 500) && decide (r.regrindStep ≤ 20000) &&
  decide (r.regrindLimit ≤ 4) &&
  (match r.home with
   | some c => cabinetOk' c
   | none => true) &&
  r.adjustable == r.adjustBand.isSome &&
  (match r.adjustBand with
   | some a => a.inRange && decide (a.lower ≤ r.radiusBand.lower) && decide (r.radiusBand.upper ≤ a.upper)
   | none => true) &&
  (match r.cls with
   | .lengthOnly => !r.adjustable && r.governed == .length
   | .lengthRadius => true)
where
  cabinetOk' (c : Nat) : Bool := decide (1 ≤ c ∧ c ≤ 12)

/-! ### The instance record (11.3) -/

/-- The fields of LOAD_INSTANCE; none for an unlisted code or a value outside the ranges of the instance field table
that no other record decides (R14, first check; the place range and life range are the command's). -/
def instFields (b : List Byte) : Option InstRec := do
  let custody ← custodyOf (fieldAt b 4 1)
  let loc ← locationOf (fieldAt b 5 1) (fieldAt b 6 1) (fieldAt b 7 1) (fieldAt b 8 1)
  let meas ← if flagAt b 9 0 then (do
      let head ← headOf (fieldAt b 25 1)
      if decide (fieldAt b 10 3 ≤ 4000000 ∧ fieldAt b 13 3 ≤ 1500000 ∧ fieldAt b 16 3 ≤ 1500000 ∧ fieldAt b 23 2 ≤ 999) then
        pure (some
          { length := fieldAt b 10 3
            radius := fieldAt b 13 3
            runout := fieldAt b 16 3
            time := ⟨fieldAt b 19 4, fieldAt b 23 2⟩
            head := head
            thermalLimited := flagAt b 9 7 })
      else none)
    else pure none
  let link ← if flagAt b 9 4 then (if decide (1 ≤ fieldAt b 32 1) then pure (some (fieldAt b 32 1)) else none) else pure none
  let qcause ← if flagAt b 9 5 then (qcauseOf (fieldAt b 33 1)).map some else pure none
  let last ← if flagAt b 9 6 then
      (if decide (1 ≤ fieldAt b 34 1 ∧ fieldAt b 34 1 ≤ 32) then pure (some ⟨fieldAt b 34 1, fieldAt b 35 2⟩) else none)
    else pure none
  if decide (fieldAt b 31 1 ≤ 4) then
    pure
      { type := fieldAt b 2 2
        custody := custody
        loc := loc
        meas := meas
        generation := fieldAt b 26 2
        life := fieldAt b 28 3
        warned := flagAt b 9 1
        spent := flagAt b 9 2
        marks := fieldAt b 31 1
        link := link
        qcause := qcause
        owed := flagAt b 9 3
        last := last }
  else none

/-- The 37 bytes of an instance record (11.3): the data of READ_INSTANCE. -/
def instBytes (n : Nat) (r : InstRec) : List Byte :=
  bytesOf 2 n ++ bytesOf 2 r.type ++ bytesOf 1 r.custody.code ++ r.loc.bytes ++
  [flagByte [r.meas.isSome, r.warned, r.spent, r.owed, r.link.isSome, r.qcause.isSome, r.last.isSome,
    (r.meas.map (·.thermalLimited)).getD false]] ++
  (match r.meas with
   | some m =>
     bytesOf 3 m.length ++ bytesOf 3 m.radius ++ bytesOf 3 m.runout ++ bytesOf 4 m.time.sec ++ bytesOf 2 m.time.ms ++
     bytesOf 1 (headCode m.head)
   | none => List.replicate 16 0) ++
  bytesOf 2 r.generation ++ bytesOf 3 r.life ++ bytesOf 1 r.marks ++ bytesOf 1 (r.link.getD 0) ++
  bytesOf 1 ((r.qcause.map QCause.code).getD 0) ++
  (match r.last with
   | some l => bytesOf 1 l.station ++ bytesOf 2 l.generation
   | none => List.replicate 3 0)

/-! ### Lists of numbers in a body (R205) -/

/-- The entries of a list of one-byte numbers whose count stands at `off`. -/
def listAt (b : List Byte) (off : Nat) : List Nat := ((b.drop (off + 1)).take (b.getD off 0).toNat).map BitVec.toNat

/-- A list of numbers in ascending order, each once. -/
def asSet (xs : List Nat) : List Nat := (sortBy id xs).eraseDups

/-- The entries of a list of two-byte signed numbers, from its bytes. -/
def signedPairs (b : List Byte) : List Int :=
  match b with
  | h :: l :: rest => signedOf 2 (h.toNat * 256 + l.toNat) :: signedPairs rest
  | _ => []

/-! ### Station bodies (11.4) -/

/-- Codes of a station's REFUSED (R154). -/
inductive RefusedCode where
  | placeOccupied
  | placeRange
  | programActive
deriving DecidableEq, Repr

/-- A message from a station, decoded (R154). -/
inductive StationMsg where
  | call (type place : Nat) (prio : Priority) (offset : Option Nat) (minLife : Option Nat)
  | callCancel (place type : Nat)
  | usage (tool place units : Nat)
  | loaded (tool place : Nat)
  | unloaded (tool place : Nat) (damaged : Bool)
  | stored (tool place generation : Nat)
  | refused (tool place : Nat) (code : RefusedCode)
  | holdAck (type : Nat)
deriving DecidableEq, Repr

/-- A 24-byte body as a station message; none where it does not decode (R206). -/
def stationMsgOf (b : List Byte) : Option StationMsg :=
  match fieldAt b 0 1 with
  | 0x11 => some (.stored (fieldAt b 1 2) (fieldAt b 3 1) (fieldAt b 4 2))
  | 0x12 =>
    match fieldAt b 4 1 with
    | 1 => some (.refused (fieldAt b 1 2) (fieldAt b 3 1) .placeOccupied)
    | 2 => some (.refused (fieldAt b 1 2) (fieldAt b 3 1) .placeRange)
    | 3 => some (.refused (fieldAt b 1 2) (fieldAt b 3 1) .programActive)
    | _ => none
  | 0x13 => some (.holdAck (fieldAt b 1 2))
  | 0x14 => do
    let prio ← priorityOf (fieldAt b 4 1)
    let minLife := fieldAt b 8 3
    if flagAt b 5 1 && (decide (minLife = 0) || decide (minLife > 4000000)) then none
    else some (.call (fieldAt b 1 2) (fieldAt b 3 1) prio (if flagAt b 5 0 then some (fieldAt b 6 2) else none)
      (if flagAt b 5 1 then some minLife else none))
  | 0x15 => some (.callCancel (fieldAt b 1 1) (fieldAt b 2 2))
  | 0x16 => some (.loaded (fieldAt b 1 2) (fieldAt b 3 1))
  | 0x17 => some (.unloaded (fieldAt b 1 2) (fieldAt b 3 1) (flagAt b 4 0))
  | 0x18 => some (.usage (fieldAt b 1 2) (fieldAt b 3 1) (fieldAt b 4 2))
  | _ => none

/-- A station body: its fields, padded with 0 to 24 bytes (R205). -/
def padBody (b : List Byte) : List Byte := (b ++ List.replicate 24 0).take 24

def toolDataBody (tool type place generation length radius : Nat) (unit : LifeUnit) (life : Nat) (blocked : Bool) : List Byte :=
  padBody ([0x01] ++ bytesOf 2 tool ++ bytesOf 2 type ++ bytesOf 1 place ++ bytesOf 2 generation ++ bytesOf 3 length ++
    bytesOf 3 radius ++ bytesOf 1 unit.code ++ bytesOf 3 life ++ [flagByte [blocked]])

def lifeUpdateBody (tool place life : Nat) (blocked : Bool) : List Byte :=
  padBody ([0x02] ++ bytesOf 2 tool ++ bytesOf 1 place ++ bytesOf 3 life ++ [flagByte [blocked]])

def noticeBody (kind : NoticeKind) (type : Nat) : List Byte :=
  padBody ((match kind with
    | .hold => [0x03]
    | .release => [0x04]) ++ bytesOf 2 type)

/-- The code values of STATION_REPLY (R206). -/
def StationCode.code (c : StationCode) : Nat :=
  match c with
  | .ok => 0
  | .merged => 1
  | .queueFull => 2
  | .unknownInstance => 3
  | .wrongPlace => 4
  | .placeOccupied => 5
  | .notRunning => 6
  | .stale => 7
  | .badType => 8
  | .placeRange => 9

def stationReplyBody (r : StationReply) : List Byte :=
  padBody ([0x05] ++ bytesOf 1 r.message ++ bytesOf 1 r.code.code ++ bytesOf 1 (r.request.getD 0))

/-! ### Station blocks (11.4) -/

/-- The kind of a block from its byte 3; kind value 3 acts as FILL (R206). -/
def blockKindOf (b : List Byte) : BlockKind :=
  match (fieldAt b 3 1 / 16) % 4 with
  | 1 => .data
  | 2 => .echo
  | _ => .fill

/-- The train position of a block (11.4). -/
def blockPosition (b : List Byte) : Nat := fieldAt b 3 1 % 8

/-- The 24 body bytes of a block. -/
def blockBody (b : List Byte) : List Byte := (b.drop 6).take 24

/-- The 32 bytes of a block the part sends (R132, 11.4). -/
def blockBytes (station position : Nat) (kind : BlockKind) (verdict : Option ReturnVerdict) (message : Nat) (body : List Byte)
    (check : BitVec 16) : List Byte :=
  ([0xC3, 0x3C] : List Byte) ++ bytesOf 1 station ++
  bytesOf 1 (position + 16 * (match kind with
    | .fill => 0
    | .data => 1
    | .echo => 2)) ++
  bytesOf 1 (match verdict with
    | some v => 128 + 64 * v.good.toNat + v.position
    | none => 0) ++
  bytesOf 1 message ++ body ++ bytesOf 2 check.toNat

end Sys2Proof.Machine
end

