-- ==== Sys2Proof/Machine/Custody.lean ====
section
/-! DEFINITION. TRG: applying custody transitions (R16 to R20), and what PSC does with a pocket that TRG empties or a mark that a
transition ends (R42, R43). -/

namespace Sys2Proof.Machine

/-- A custody transition that TRG is asked for (R16): where to, why, and the fields the cause sets. -/
structure Move where
  cause : Cause
  custody : Custody
  loc : Location
  qcause : Option QCause := none
  link : Option Nat := none
deriving DecidableEq, Repr

/-- R19: at life 0, REGRIND_DUE stands in place of UNMEASURED, STAGED and READY. -/
def redirect (c : Custody) (life : Nat) : Custody :=
  if life = 0 then
    match c with
    | .unmeasured => .regrindDue
    | .staged => .regrindDue
    | .ready => .regrindDue
    | other => other
  else c

/-- The record after a transition: custody and location, and the fields that R9 ties to them. Leaving ISSUED clears the owed
mark unless the instance becomes LOADED (R20, R123, R164, log entry 14). -/
def InstRec.moved (r : InstRec) (m : Move) : InstRec :=
  let goal := redirect m.custody r.life
  { r with
    custody := goal
    loc := m.loc
    qcause := if goal = .quarantine then m.qcause else none
    link :=
      match goal with
      | .reserved => m.link
      | .issued => if r.custody = .ready then m.link else r.link
      | _ => none
    owed := if r.custody = .issued ∧ goal ≠ .issued ∧ goal ≠ .loaded then false else r.owed }

/-- The CUSTODY_CHANGE report of a transition (R20). -/
def changeReport (n : Nat) (before after : InstRec) (cause : Cause) : Report :=
  .custodyChange n after.type (some before.custody) before.loc (some after.custody) after.loc cause after.link

/-- TRG applies a transition to a record, with the other field changes its cause brings, and reports it (R16, R20). -/
def State.transition (s : State) (n : Nat) (r : InstRec) (m : Move) (also : InstRec → InstRec) : State :=
  (s.setTool n (also (r.moved m))).report (changeReport n r (r.moved m) m.cause)

/-- TRG applies a transition that changes no further field. -/
def State.move (s : State) (n : Nat) (r : InstRec) (m : Move) : State := s.transition n r m id

/-- The location is a pocket, a head or a magazine place: what no two instances share (R12). -/
def Location.exclusive (l : Location) : Bool :=
  match l with
  | .pocket _ _ => true
  | .head _ => true
  | .station _ _ => true
  | _ => false

/-- R18: no other instance has this pocket, head or magazine place, and no pocket record names another at it. -/
def State.vacant (s : State) (n : Nat) (l : Location) : Bool :=
  (!l.exclusive || s.trg.insts.all (fun e => decide (e.1 = n) || decide (e.2.loc ≠ l))) &&
  (match l with
   | .pocket c p => (s.pocket c p).tool.isNone || (s.pocket c p).tool == some n
   | _ => true)

/-! ### Pocket records that a transition touches -/

/-- R43: the pocket drops its instance: UNKNOWN while its sensed presence is PRESENT, EMPTY otherwise; FAULT stays, and a
disabled pocket stays DISABLED (log entry 38). -/
def Pocket.drop (p : Pocket) : Pocket :=
  { p with
    tool := none
    state :=
      match p.state with
      | .fault => .fault
      | .disabled => .disabled
      | _ => if p.sensed = .present then .unknown else .empty }

/-- R42: the pocket drops an instance that leaves it on the record first: with a departure mark while PRESENT is sensed,
EMPTY at once otherwise; FAULT stays. -/
def Pocket.depart (p : Pocket) (n : Nat) (cause : MarkCause) : Pocket :=
  if p.sensed = .present then
    { p with tool := none, mark := some ⟨n, cause⟩, state := if p.state = .fault then .fault else .occupied }
  else
    { p with
      tool := none
      state :=
        match p.state with
        | .fault => .fault
        | .disabled => .disabled
        | _ => .empty }

/-- R42: a mark whose instance was never taken out is cleared, the pocket becomes UNKNOWN and NOT_TAKEN is reported, without a
custody (log entry 70, the model's choice); in FAULT only the record changes. -/
def State.settleMarkAt (s : State) (n key : Nat) : State :=
  let c := keyCabinet key
  let p := keyPocket key
  let r := s.pocket c p
  if (r.mark.map (·.tool)) = some n then
    if r.state = .fault then s.setPocket c p { r with mark := none }
    else
      (s.setPocket c p { r with mark := none, state := .unknown }).report (.discrepancy .notTaken c p (some n) none)
  else s

/-- R42 over every pocket whose departure mark names the instance, by ascending cabinet and pocket (log entry 86, the model's
choice). -/
def State.settleMarks (s : State) (n : Nat) : State :=
  (s.psc.pockets.map (·.1)).foldl (fun s key => s.settleMarkAt n key) s

/-! ### Magazine entries -/

/-- HOE removes an instance's entry from a station's magazine list (R157). -/
def State.dropMagazine (s : State) (station n : Nat) : State :=
  let st := s.station station
  s.setStation station { st with magazine := st.magazine.filter (fun e => e.2.tool ≠ n) }

/-- The entry that a station's list holds for an instance, with its place (R117). -/
def Station.entryOf (st : Station) (n : Nat) : Option (Nat × MagEntry) := st.magazine.find? (fun e => e.2.tool == n)

end Sys2Proof.Machine
end

