-- ==== Sys2Proof/Machine/Putaway.lean ====
section
/-! DEFINITION. ISC: put-away (R67 to R71): zones, assignments, the waiting list, free-pocket notices and dropped assignments. -/

namespace Sys2Proof.Machine

/-- ISC keeps the damaged mark with the instance (R68). -/
def State.isDamaged (s : State) (n : Nat) : Bool := s.isc.damaged.contains n

/-- The zone an instance needs (R68). -/
def zoneFor (r : InstRec) (damaged : Bool) : Zone :=
  match r.custody with
  | .quarantine => .hold
  | .regrindDue => .hold
  | .returning => if damaged || decide (r.life = 0) then .hold else .stock
  | _ => .stock

/-- The first suitable pocket: of the home cabinet first, then of the cabinets from the lowest, lowest pocket first (R68). -/
def State.suitablePocket (s : State) (z : Zone) (home : Option Nat) : Option Nat :=
  let keys := (s.psc.pockets.filter (fun e => e.2.suitable z)).map (·.1)
  match home.bind (fun c => keys.find? (fun k => keyCabinet k == c)) with
  | some k => some k
  | none => keys.head?

/-- The pocket at a key becomes EXPECT_PLACE for the instance, and the assignment stands from now (R68), with the zone
decided now (log entry 62). -/
def State.assign (s : State) (n key : Nat) (z : Zone) : State :=
  let c := keyCabinet key
  let p := keyPocket key
  let s := s.setPocket c p { s.pocket c p with state := .expectPlace }
  s.setIsc { s.isc with
    assigned := tset s.isc.assigned n { cabinet := c, pocket := p, zone := z, damaged := s.isDamaged n, tick := s.tick }
    waiting := tdel s.isc.waiting n }

/-- The instance needs put-away: it stands in a put-away state and holds no assignment (R67). -/
def State.needsPutaway (s : State) (n : Nat) : Bool :=
  match s.tool n with
  | some r => r.wantsPutaway && (tget s.isc.assigned n).isNone
  | none => false

/-- ISC tries to assign a pocket to an instance that needs put-away, or enters it on the waiting list with CRIB_FULL; in
LOADING nothing is assigned (R67, R76). An instance already waiting keeps its place (log entry 20). -/
def State.tryPutaway (s : State) (n : Nat) : State :=
  if s.running && s.needsPutaway n then
    match s.tool n with
    | none => s
    | some r =>
      let z := zoneFor r (s.isDamaged n)
      match s.suitablePocket z ((s.type r.type).bind (·.home)) with
      | some key => s.assign n key z
      | none =>
        if (tget s.isc.waiting n).isSome then s
        else (s.setIsc { s.isc with waiting := tset s.isc.waiting n s.tick }).report (.cribFull n r.custody z)
  else s

/-- A waiting instance for which a suitable pocket is now free is assigned it; no report otherwise (R67). -/
def State.assignIfFree (s : State) (n : Nat) : State :=
  if s.needsPutaway n then
    match s.tool n with
    | none => s
    | some r =>
      let z := zoneFor r (s.isDamaged n)
      match s.suitablePocket z ((s.type r.type).bind (·.home)) with
      | some key => s.assign n key z
      | none => s
  else s

/-- The waiting list in order of waiting tick, ties by lowest instance number (R67). -/
def State.waitingOrder (s : State) : List Nat := (sortBy (·.2) s.isc.waiting).map (·.1)

/-- A free-pocket notice: ISC goes through the waiting list (R37, R67). -/
def State.freeNotice (s : State) : State := s.waitingOrder.foldl (fun s n => s.assignIfFree n) s

/-- PSC passes the notice when an enabled pocket with a baseline has entered EMPTY (R37). -/
def State.noticeIfFree (s : State) (c p : Nat) : State := if (s.pocket c p).free then s.freeNotice else s

/-- The pocket of an assignment returns to EMPTY (R70, R71); a pocket that is no longer EXPECT_PLACE is left as it is. -/
def State.vacateAssigned (s : State) (a : Assignment) : State :=
  let r := s.pocket a.cabinet a.pocket
  if r.state = .expectPlace then
    (s.setPocket a.cabinet a.pocket { r with state := .empty }).noticeIfFree a.cabinet a.pocket
  else s

/-- The assignment of an instance is forgotten, its pocket left as it is. -/
def State.forgetAssignment (s : State) (n : Nat) : State := s.setIsc { s.isc with assigned := tdel s.isc.assigned n }

/-- An instance's assignment is dropped: the pocket returns to EMPTY with a free-pocket notice (R71). -/
def State.dropAssignment (s : State) (n : Nat) : State :=
  match tget s.isc.assigned n with
  | some a => (s.forgetAssignment n).vacateAssigned a
  | none => s

/-- An instance that has left the put-away states: struck from the waiting list, assignment dropped, damaged mark gone
(R67, R68, R71). -/
def State.leavePutaway (s : State) (n : Nat) : State :=
  (s.setIsc { s.isc with waiting := tdel s.isc.waiting n, damaged := s.isc.damaged.filter (fun k => k ≠ n) }).dropAssignment n

/-- The assignment whose pocket this is, with its instance (R68). -/
def State.assigneeOf (s : State) (c p : Nat) : Option Nat :=
  (s.isc.assigned.find? (fun e => e.2.cabinet == c && e.2.pocket == p)).map (·.1)

end Sys2Proof.Machine
end

