-- ==== Sys2Proof/Machine/Requests.lean ====
section
/-! DEFINITION. ISC: the request queue (R47 to R54), allocation (R55 to R58), release of a reservation (R61, R62), and the end of a
request (R64, R65). -/

namespace Sys2Proof.Machine

/-! ### The queue -/

/-- The live request with a number (R47). -/
def State.request (s : State) (n : Nat) : Option Request := s.isc.queue.find? (fun r => r.number == n)

/-- A request takes its place by the service order (R49). -/
def placeRequest (q : List Request) (r : Request) : List Request :=
  match q with
  | [] => [r]
  | x :: rest => if r.before x then r :: x :: rest else x :: placeRequest rest r

/-- The queue is replaced. -/
def State.setQueue (s : State) (q : List Request) : State := s.setIsc { s.isc with queue := q }

/-- A live request is rewritten where it stands. -/
def State.putRequest (s : State) (r : Request) : State :=
  s.setQueue (s.isc.queue.map (fun x => if x.number = r.number then r else x))

/-- A live request is rewritten and takes its new place in the service order (R53). -/
def State.replaceRequest (s : State) (r : Request) : State :=
  s.setQueue (placeRequest (s.isc.queue.filter (fun x => x.number ≠ r.number)) r)

/-- A request reaches a leaving state: reported, then removed from the queue (R49). The report shows the instance that the request
still has (log entry 72, the model's choice). -/
def State.endRequest (s : State) (r : Request) (state : ReqState) (cause : ReqCause) : State :=
  let s := s.report (.requestState { r with state := state } cause)
  s.setQueue (s.isc.queue.filter (fun x => x.number ≠ r.number))

/-- A live request's state changes, with its report (R49). -/
def State.changeRequest (s : State) (r : Request) (cause : ReqCause) : State :=
  (s.putRequest r).report (.requestState r cause)

/-- A number is in use by a live request or as an instance's request link (R48). -/
def State.numberInUse (s : State) (n : Nat) : Bool :=
  s.isc.queue.any (fun r => r.number == n) || s.trg.insts.any (fun e => e.2.link == some n)

/-- The first number not in use, counting on cyclically from `n`, tried at most `fuel` times (R48). -/
def State.freeNumber (s : State) (fuel n : Nat) : Option Nat :=
  match fuel with
  | 0 => none
  | k + 1 => if s.numberInUse n then s.freeNumber k (cyclicNext 255 n) else some n

/-- The live request for a station, place and type (R49). -/
def State.requestFor (s : State) (station place type : Nat) : Option Request :=
  s.isc.queue.find? (fun r => r.dest == .station station place && r.type == type)

/-! ### Allocation -/

/-- The life an instance must have for a request: at least the minimum life, no more than the budget, and above 0 (R56). -/
def neededLife (r : Request) (budget : Nat) : Nat :=
  match r.minLife with
  | some m => min m budget
  | none => 1

/-- The instance may answer the request (R56). -/
def State.isCandidate (s : State) (r : Request) (t : TypeRec) (i : InstRec) : Bool :=
  decide (i.type = r.type) && !t.held && decide (neededLife r t.budget ≤ i.life) &&
  (match i.custody, i.loc with
   | .ready, .pocket c p => (s.pocket c p).sensing && (tget s.isc.latePicks (pocketKey c p)).isNone
   | .staged, .bench => r.prio == .urgent
   | _, _ => false)

/-- The measurement time by which candidates are ordered; an instance without a measurement is no candidate that a run
reaches. -/
def InstRec.measuredAt (i : InstRec) : Nat :=
  match i.meas with
  | some m => m.time.sec * 1000 + m.time.ms
  | none => 0

/-- Least remaining life, then oldest measurement time, then lowest number (R56). -/
def betterCandidate (a b : Nat × InstRec) : Bool :=
  if a.2.life ≠ b.2.life then decide (a.2.life < b.2.life)
  else if a.2.measuredAt ≠ b.2.measuredAt then decide (a.2.measuredAt < b.2.measuredAt)
  else decide (a.1 < b.1)

/-- The candidate that the keys of R56 choose for a request. -/
def State.chooseCandidate (s : State) (r : Request) : Option (Nat × InstRec) :=
  match s.type r.type with
  | none => none
  | some t =>
    (s.trg.insts.filter (fun e => s.isCandidate r t e.2)).foldl (fun acc e => match acc with
      | none => some e
      | some b => if betterCandidate e b then some e else some b) none

/-- The instance of a type that the presetting worklist ranks first: at BENCH before POCKET, then lowest number (R73). -/
def State.firstToMeasure (s : State) (type : Nat) : Option Nat :=
  let rows := s.trg.insts.filter (fun e => decide (e.2.type = type) && e.2.custody == .unmeasured)
  match rows.find? (fun e => e.2.loc == .bench) with
  | some e => some e.1
  | none => rows.head?.map (·.1)

/-- A request enters WAITING_STOCK under a cause, with PRESET_WANTED where its type is not held and has UNMEASURED
instances (R58). -/
def State.enterWaiting (s : State) (r : Request) (cause : ReqCause) : State :=
  let s := s.changeRequest { r with state := .waitingStock } cause
  let count := (s.trg.insts.filter (fun e => decide (e.2.type = r.type) && e.2.custody == .unmeasured)).length
  match s.firstToMeasure r.type with
  | some first => if s.typeHeld r.type then s else s.report (.presetWanted r.number r.type count first)
  | none => s

/-- RESERVE is applied and the request, the pocket and a standing assignment follow it (R57). -/
def State.reserve (s : State) (r : Request) (n : Nat) (i : InstRec) : State :=
  let s := s.move n i { cause := .reserve, custody := .reserved, loc := i.loc, link := some r.number }
  let s := s.putRequest { r with state := .reserved, tool := some n, reserveTick := some s.tick }
  let s := match i.loc with
    | .pocket c p => s.setPocket c p { s.pocket c p with state := .expectTake }
    | _ => s.leavePutaway n
  s.report (.requestState { r with state := .reserved, tool := some n, reserveTick := some s.tick } .reserved)

/-- The pass reaches one request (R55, R58). -/
def State.allocateFor (s : State) (number : Nat) : State :=
  match s.request number with
  | none => s
  | some r =>
    if r.open then
      match s.chooseCandidate r with
      | some (n, i) => s.reserve r n i
      | none => if r.state = .queued then s.enterWaiting r .noStock else s
    else s

/-- An allocation pass over the queue in service order, in RUNNING only (R55). -/
def State.allocationPass (s : State) : State :=
  if s.running then (s.isc.queue.map (·.number)).foldl (fun s n => s.allocateFor n) s else s

/-- What ISC does when TRG announces an instance's entry into its present state: a pass for READY and STAGED, then
put-away where it is needed (R20, R67). -/
def State.announce (s : State) (n : Nat) : State :=
  match s.tool n with
  | none => s
  | some r =>
    match r.custody with
    | .ready => s.allocationPass
    | .staged => s.allocationPass.tryPutaway n
    | _ => s.tryPutaway n

/-! ### Release of a reservation -/

/-- The release that all causes share: RELEASE of the instance, EXPECT_TAKE back to OCCUPIED; the request's own change is
the cause's (R61). `redirected` no keeps READY or STAGED at life 0, for the further change that follows (log entry 12). -/
def State.releaseTool (s : State) (n : Nat) (redirected : Bool) : State :=
  match s.tool n with
  | none => s
  | some i =>
    let goal : Custody := match i.loc with
      | .pocket _ _ => .ready
      | _ => .staged
    let m : Move := { cause := .release, custody := goal, loc := i.loc }
    let s := if redirected then s.move n i m
      else
        let after := { i.moved m with custody := goal, qcause := none, link := none }
        (s.setTool n after).report (changeReport n i after .release)
    match i.loc with
    | .pocket c p =>
      let k := s.pocket c p
      if k.state = .expectTake then s.setPocket c p { k with state := .occupied } else s
    | _ => s

/-- The request without its instance and reserve tick, back in QUEUED (R61). -/
def Request.unreserved (r : Request) : Request := { r with state := .queued, tool := none, reserveTick := none }

/-- After a release: the pass, and put-away for an instance left STAGED at the bench (R61, R67). -/
def State.afterRelease (s : State) (n : Nat) : State := s.allocationPass.tryPutaway n

/-- A reservation is released for a cause that returns the request to QUEUED with RELEASED (R61). The pass is the
caller's, after the cause's further change (log entry 13). -/
def State.releaseToQueue (s : State) (n : Nat) (redirected : Bool) : State :=
  match (s.tool n).bind (·.link) |>.bind s.request with
  | none => s.releaseTool n redirected
  | some r => (s.releaseTool n redirected).changeRequest r.unreserved .released

/-- R62: the pick timeout of a RESERVED request: release, a miss, late-pick memory for a pocket reservation, and the pass. -/
def State.pickTimesOut (s : State) (r : Request) (n : Nat) : State :=
  let spot : Option Location := (s.tool n).map (fun i => i.loc)
  let s := s.releaseTool n true
  let r' := { r.unreserved with misses := r.misses + 1 }
  let s :=
    if r'.misses ≥ 3 then s.endRequest r' .cancelled .pickMissed
    else
      let s := s.changeRequest r' .pickTimeout
      match spot with
      | some (.pocket c p) =>
        s.setIsc { s.isc with
          latePicks := tset s.isc.latePicks (pocketKey c p) { request := r.number, tool := n, endTick := s.tick + 15000 } }
      | _ => s
  s.afterRelease n

/-- The pick timeout of a request has run out (R62). -/
def State.pickDue (s : State) (r : Request) : Bool :=
  match r.state, r.reserveTick with
  | .reserved, some t => decide (t + s.isc.pickTimeout * 1000 ≤ s.tick)
  | _, _ => false

/-- The pick timeout of the request with a number, where it has run out (R62). -/
def State.firePick (s : State) (number : Nat) : State :=
  match s.request number with
  | some r =>
    if s.pickDue r then
      match r.tool with
      | some n => s.pickTimesOut r n
      | none => s
    else s
  | none => s

/-! ### Requests entering -/

/-- What a new request names (R50 to R52). -/
structure NewRequest where
  origin : Origin
  type : Nat
  dest : Dest
  prio : Priority
  neededBy : Option Nat
  minLife : Option Nat
deriving DecidableEq, Repr

/-- How an entry ended: with a number, or without a place or a number (R54). -/
inductive Entry where
  | entered (number : Nat)
  | noRoom
  | noNumber
deriving DecidableEq, Repr

/-- The request joins the queue under a number, with ENTERED (R50). -/
def State.enterAs (s : State) (q : NewRequest) (number : Nat) : State :=
  let r : Request :=
    { number := number, origin := q.origin, type := q.type, dest := q.dest, prio := q.prio, neededBy := q.neededBy,
      minLife := q.minLife, state := .queued, tool := none, misses := 0, enqTick := s.tick, reserveTick := none,
      entry := s.isc.entries }
  let s := s.setIsc { s.isc with
    queue := placeRequest s.isc.queue r
    nextNumber := cyclicNext 255 number
    entries := s.isc.entries + 1 }
  s.report (.requestState r .entered)

/-- The PREFETCH request that an URGENT one evicts: the latest enqueue tick, among equal ticks the last to enter (R54). -/
def State.evictable (s : State) : Option Request :=
  (s.isc.queue.filter (fun r => r.prio == .prefetch && (r.open || r.state == .reserved))).foldl (fun acc r => match acc with
    | none => some r
    | some b => if b.enqTick < r.enqTick ∨ (b.enqTick = r.enqTick ∧ b.entry < r.entry) then some r else some b) none

/-- A request is evicted: a reservation is released first, then CANCELLED with EVICTED (R54, R61). -/
def State.evict (s : State) (r : Request) : State :=
  let s := match r.state, r.tool with
    | .reserved, some n => s.releaseTool n true
    | _, _ => s
  s.endRequest { r with tool := none, reserveTick := none } .cancelled .evicted

/-- The queue has a place and a number is free. -/
def State.admits (s : State) : Option Nat := if s.isc.queue.length < 64 then s.freeNumber 255 s.isc.nextNumber else none

/-- Why a request that cannot enter cannot (R54); QUEUE_FULL where both hold (log entry 60, the model's choice). -/
def State.notEntered (s : State) : Entry := if s.isc.queue.length < 64 then .noNumber else .noRoom

/-- A request that does not merge enters, evicts, or is not entered (R54); a pass follows an entry or an eviction, one for both
(log entry 71, the model's choice). -/
def State.enter (s : State) (q : NewRequest) : State × Entry :=
  match s.admits with
  | some number => ((s.enterAs q number).allocationPass, .entered number)
  | none =>
    match q.prio, s.evictable with
    | .urgent, some v =>
      let freed := s.evict v
      let settle := fun (s : State) => match v.state, v.tool with
        | .reserved, some n => s.afterRelease n
        | _, _ => s.allocationPass
      (match freed.admits with
       | some number => (settle (freed.enterAs q number), .entered number)
       | none => (settle freed, freed.notEntered))
    | _, _ => (s, s.notEntered)

/-- The higher of two priorities (R53). -/
def higherPriority (a b : Priority) : Priority := if a.rank ≤ b.rank then a else b

/-- The earlier of two needed-by values, absent counting as later (R53). -/
def earlierNeeded (a b : Option Nat) : Option Nat :=
  match a, b with
  | some x, some y => some (min x y)
  | some x, none => some x
  | none, y => y

/-- The larger of two minimum lives, absent counting as no minimum (R53). -/
def largerMinLife (a b : Option Nat) : Option Nat :=
  match a, b with
  | some x, some y => some (max x y)
  | some x, none => some x
  | none, y => y

/-- A new need folds into a live request (R53). -/
def State.merge (s : State) (r : Request) (q : NewRequest) : State :=
  let r' := { r with
    prio := higherPriority r.prio q.prio
    neededBy := earlierNeeded r.neededBy q.neededBy
    minLife := largerMinLife r.minLife q.minLife }
  let s := (s.replaceRequest r').report (.requestState r' .merged)
  match r'.state, r'.tool with
  | .reserved, some n =>
    if r'.minLife.getD 0 > ((s.tool n).map (·.life)).getD 0 then (s.releaseToQueue n true).afterRelease n else s
  | _, _ => if r'.open && decide (r'.prio.rank < r.prio.rank) then s.allocationPass else s

/-- An automatic request of LFU: it merges, enters, or is dropped with REQUEST_DROPPED (R52, R54). -/
def State.autoRequest (s : State) (station place type : Nat) (prio : Priority) : State :=
  let q : NewRequest :=
    { origin := .auto, type := type, dest := .station station place, prio := prio, neededBy := none, minLife := none }
  match s.requestFor station place type with
  | some r => s.merge r q
  | none =>
    match s.enter q with
    | (s', .entered _) => s'
    | (s', .noRoom) => s'.report (.requestDropped station place type prio .queueFull)
    | (s', .noNumber) => s'.report (.requestDropped station place type prio .noNumber)

/-! ### The end of a request -/

/-- An instance has left ISSUED for a state other than LOADED: its live request is CANCELLED with INSTANCE_LOST (R64). -/
def State.loseRequest (s : State) (link : Option Nat) : State :=
  match link.bind s.request with
  | some r => s.endRequest r .cancelled .instanceLost
  | none => s

/-- The request of a verified instance is DELIVERED (R64). -/
def State.deliverRequest (s : State) (link : Option Nat) : State :=
  match link.bind s.request with
  | some r => s.endRequest r .delivered .delivered
  | none => s

/-- A live request that is not ISSUED is cancelled; a reservation is released without a miss and a pass follows (R61, R66). -/
def State.cancelRequest (s : State) (r : Request) (cause : ReqCause) : State :=
  match r.state, r.tool with
  | .reserved, some n =>
    ((s.releaseTool n true).endRequest { r with tool := none, reserveTick := none } .cancelled cause).afterRelease n
  | _, _ => s.endRequest r .cancelled cause

/-- The request has passed its needed-by and the grace (R65). -/
def State.expired (s : State) (r : Request) : Bool :=
  r.open && r.prio != .urgent &&
  (match r.neededBy with
   | some n => decide (s.hck.hall.sec > n + s.isc.expiryGrace)
   | none => false)

/-- The new-second notice: ISC's expiry test of every live request (R65, R177); those that expire at one test leave in service
order (log entry 82, the model's choice). -/
def State.expiryTest (s : State) : State :=
  (s.isc.queue.filter (fun r => s.expired r)).foldl (fun s r => s.endRequest r .expired .expired) s

/-- A pocket's late-pick memory is cleared (R63). -/
def State.clearLatePick (s : State) (key : Nat) : State := s.setIsc { s.isc with latePicks := tdel s.isc.latePicks key }

/-- Every late-pick memory naming an instance is cleared (R63). -/
def State.clearLatePicksOf (s : State) (n : Nat) : State :=
  s.setIsc { s.isc with latePicks := s.isc.latePicks.filter (fun e => e.2.tool ≠ n) }

/-- R70: an assignment times out: the pocket returns to EMPTY, the instance becomes MISSING, and DISCREPANCY is reported. -/
def State.putawayTimesOut (s : State) (n : Nat) (a : Assignment) : State :=
  let s := (s.forgetAssignment n).vacateAssigned a
  match s.tool n with
  | none => s
  | some r =>
    let s := s.move n r { cause := .putawayTimeout, custody := .missing, loc := .nowhere }
    (s.leavePutaway n).report (.discrepancy .putawayTimeout a.cabinet a.pocket (some n) (some r.custody))

/-- The put-away timeout of an assignment has run out (R70). -/
def State.putawayDue (s : State) (a : Assignment) : Bool := decide (a.tick + s.isc.putawayTimeout * 1000 ≤ s.tick)

/-- The put-away timeout of an instance's assignment, where it has run out (R70). -/
def State.firePutaway (s : State) (n : Nat) : State :=
  match tget s.isc.assigned n with
  | some a => if s.putawayDue a then s.putawayTimesOut n a else s
  | none => s

end Sys2Proof.Machine
end

