-- ==== Sys2Proof/Machine/Handoff.lean ====
section
/-! DEFINITION. HOE: the handoff queue of a station, its start, its endings and the space they leave (R158 to R163), broadcast
records and unacknowledged hold sets (R172, R173), the reply list (R155). -/

namespace Sys2Proof.Machine

/-! ### Values for the stations -/

/-- A quotient rounded to the nearest integer, halves away from zero (R97). -/
def roundDiv (a : Int) (b : Nat) : Int :=
  let q : Nat := (2 * a.natAbs + b) / (2 * b)
  if a < 0 then -(q : Int) else (q : Int)

/-- A stored length or radius in whole micrometres (R114). -/
def microns (v : Nat) : Nat := (roundDiv (v : Int) 10).toNat

/-! ### The queue -/

/-- The link is in a running state (7.3). -/
def State.linkRuns (s : State) (n : Nat) : Bool := (s.link n).state.running

/-- The 32 stations. -/
def allStations : List Nat := (List.range 32).map (· + 1)

/-- A transaction stands ahead of the members of its class that a test picks, after the rest; the first class stands ahead
of the second (R159). -/
def placeTxn (q : List Txn) (t : Txn) (behind : Txn → Bool) : List Txn :=
  let firsts := q.filter (fun x => x.kind.firstClass)
  let seconds := q.filter (fun x => !x.kind.firstClass)
  let put := fun (c : List Txn) => c.takeWhile (fun x => !behind x) ++ [t] ++ c.dropWhile (fun x => !behind x)
  if t.kind.firstClass then put firsts ++ seconds else firsts ++ put seconds

/-- The queue of a station is replaced. -/
def State.setTxns (s : State) (n : Nat) (q : List Txn) : State := s.setStation n { s.station n with queue := q }

/-- A transaction of a station is rewritten where it stands. -/
def State.putTxn (s : State) (n : Nat) (t : Txn) : State :=
  s.setTxns n ((s.station n).queue.map (fun x => if x.id = t.id then t else x))

/-- The transaction of a station that is IN_FLIGHT (R160). -/
def State.inFlight (s : State) (n : Nat) : Option Txn := (s.station n).queue.find? (fun t => t.state == .inFlight)

/-- A new transaction record, PENDING, with the counters' next values (R158). -/
def State.newTxn (s : State) (kind : TxnKind) (broadcast : Option Nat) : Txn :=
  { id := s.hoe.entries, number := s.hoe.nextTxn, kind := kind, state := .pending, busyRetries := 0, holdOff := none,
    firstSent := none, delivered := false, broadcast := broadcast, body := [], handed := false, slot := s.hoe.entries }

/-- The transaction counter rises by one (R158). -/
def State.countTxn (s : State) : State :=
  s.setHoe { s.hoe with nextTxn := cyclicNext 65535 s.hoe.nextTxn, entries := s.hoe.entries + 1 }

/-! ### Broadcast members and unacknowledged hold sets -/

/-- The BROADCAST_DONE report of a record that has become DONE (R173). -/
def State.reportDone (s : State) (b : Broadcast) : State := s.report (.broadcastDone b b.worst)

/-- The broadcast records are replaced. -/
def State.setBroadcasts (s : State) (bs : List (Option Broadcast)) : State := s.setHoe { s.hoe with broadcasts := bs }

/-- The present record with a number (R172). -/
def State.broadcast (s : State) (number : Nat) : Option Broadcast :=
  (s.hoe.broadcasts.filterMap id).find? (fun b => b.number == number)

/-- A present record is rewritten in its slot. -/
def State.putBroadcast (s : State) (b : Broadcast) : State :=
  s.setBroadcasts (s.hoe.broadcasts.map (fun x => if (x.map (·.number)) = some b.number then some b else x))

/-- A record without pending members becomes DONE, with its report (R173). -/
def State.settleBroadcast (s : State) (b : Broadcast) : State :=
  if b.done || b.pending then s.putBroadcast b
  else (s.putBroadcast { b with done := true }).reportDone { b with done := true }

/-- A pending member of an OPEN record takes its result (R173). -/
def State.memberResult (s : State) (number : Option Nat) (n : Nat) (code : MemberCode) : State :=
  match number.bind s.broadcast with
  | none => s
  | some b =>
    if b.done then s
    else s.settleBroadcast
      { b with results := b.results.map (fun m => if m.1 = n ∧ m.2.isNone then (m.1, some code) else m) }

/-- The unacknowledged hold set of a station is replaced. -/
def State.setUnacked (s : State) (n : Nat) (u : Table HoldEntry) : State :=
  s.setStation n { s.station n with unacked := u }

/-- An entry of the type newer than the notice stands in the station's unacknowledged hold set (R172, log entry 27). -/
def State.newerEntry (s : State) (n id type : Nat) : Bool :=
  ((tget (s.station n).unacked type).map (fun e => decide (id < e.stamp))).getD false

/-- What a notice's end does to its station's unacknowledged hold set (R172): a confirmed one removes the entry of its kind; any
other end puts its type back with its own kind, as old as the notice, unless a newer entry stands. -/
def State.noticeEnded (s : State) (n id : Nat) (kind : NoticeKind) (type : Nat) (state : TxnState) : State :=
  let u := (s.station n).unacked
  match state with
  | .confirmed => if (tget u type).map (·.kind) = some kind then s.setUnacked n (tdel u type) else s
  | _ => if s.newerEntry n id type then s else s.setUnacked n (tset u type { kind := kind, stamp := id })

/-- The member result that an ending gives (R173). -/
def TxnCode.member (c : TxnCode) : MemberCode :=
  match c with
  | .ok => .ok
  | .checkFailed => .checkFailed
  | _ => .timeout

/-- A transaction ends: its report, its departure from the queue, its broadcast's member result, its hold set (R158, R172, R173). A
BROADCAST_DONE that the member result brings about follows the HANDOFF_RESULT; the spec does not order the two (log entry 89, the
model's choice). -/
def State.finishTxn (s : State) (n : Nat) (t : Txn) (state : TxnState) (code : TxnCode) : State :=
  let s := s.report (.handoffResult n { t with state := state } code)
  let s := s.setTxns n ((s.station n).queue.filter (fun x => x.id ≠ t.id))
  match t.kind with
  | .notice kind type => (s.memberResult t.broadcast n code.member).noticeEnded n t.id kind type state
  | _ => s

/-! ### Entering transactions -/

/-- A transaction replaces a PENDING one and takes its position; the old one ends SUPERSEDED (R159). -/
def State.supersede (s : State) (n : Nat) (old : Txn) (kind : TxnKind) (broadcast : Option Nat) : State :=
  let t := { s.newTxn kind broadcast with slot := old.slot }
  let q := ((s.station n).queue.map (fun x => if x.id = old.id then [t, x] else [x])).flatten
  (s.countTxn.setTxns n q).finishTxn n old .cancelled .superseded

/-- A transaction enters behind its class (R159). -/
def State.enterTxn (s : State) (n : Nat) (kind : TxnKind) (broadcast : Option Nat) : State :=
  s.countTxn.setTxns n (placeTxn (s.station n).queue (s.newTxn kind broadcast) (fun _ => false))

/-- The queue holds 16 transactions (R159). -/
def State.queueFull (s : State) (n : Nat) : Bool := decide (16 ≤ (s.station n).queue.length)

/-- The PENDING transaction of a station that a test picks. -/
def State.pendingTxn (s : State) (n : Nat) (p : TxnKind → Bool) : Option Txn :=
  (s.station n).queue.find? (fun t => t.state == .pending && p t.kind)

/-- HOE sets or clears an instance's handoff owed (R163). -/
def State.setOwed (s : State) (tool : Nat) (owed : Bool) : State := s.modTool tool (fun i => { i with owed := owed })

/-- HOE is asked for a TOOL_DATA: set aside while the type is held, in place of a PENDING one, entered, or owed (R159,
R163). -/
def State.askToolData (s : State) (n place tool : Nat) : State :=
  match s.tool tool with
  | none => s
  | some i =>
    let kind : TxnKind := .toolData tool place i.generation
    if s.typeHeld i.type then s
    else
      match s.pendingTxn n (fun k => k.isDataOf tool) with
      | some old => (s.setOwed tool false).supersede n old kind none
      | none => if s.queueFull n then s.setOwed tool true else (s.setOwed tool false).enterTxn n kind none

/-- HOE is asked for a blocked LIFE_UPDATE: entered, or owed (R123, R159). -/
def State.askBlocked (s : State) (n place tool : Nat) : State :=
  if s.queueFull n then s.setOwed tool true else s.enterTxn n (.lifeUpdate tool place true) none

/-- HOE is asked for an unblocked LIFE_UPDATE: entered, or dropped (R5, R159). -/
def State.askUnblocked (s : State) (n place tool : Nat) : State :=
  if s.queueFull n then s else s.enterTxn n (.lifeUpdate tool place false) none

/-- While the link runs, HOE enters a notice for each unacknowledged entry without one, while space remains (R172). -/
def State.enterOwedNotices (s : State) (n : Nat) : State :=
  if s.linkRuns n then
    (s.station n).unacked.foldl (fun s e =>
      if (s.station n).queue.any (fun t => t.kind.isNoticeOf e.1) || s.queueFull n then s
      else s.enterTxn n (.notice e.2.kind e.1) none) s
  else s

/-- An instance held at the station has its owed data entered in a space (R163). -/
def State.fillFor (s : State) (n tool : Nat) : State :=
  match s.tool tool with
  | none => s
  | some i =>
    match i.heldPlace with
    | none => s
    | some (st, place) =>
      if st ≠ n ∨ i.owed = false ∨ s.queueFull n then s
      else if s.typeHeld i.type then
        (if i.spent then (s.setOwed tool false).askBlocked n place tool else s)
      else s.askToolData n place tool

/-- HOE fills the space in a station's queue (R163). -/
def State.fillSpace (s : State) (n : Nat) : State :=
  let s := s.enterOwedNotices n
  (s.trg.insts.map (·.1)).foldl (fun s tool => s.fillFor n tool) s

/-! ### Starting and ending -/

/-- The body of a transaction, from the records as they stand, with the transaction's own generation (R160; log entry 75, the model's
choice). What the records no longer hold is free (log entry 80). -/
def State.txnBody (s : State) (k : TxnKind) : List Byte :=
  match k with
  | .toolData tool place generation =>
    let lost := Config.lostField s.tick tool
    match s.tool tool with
    | none =>
      toolDataBody tool (lost 2) place generation (lost 4) (lost 5) (if lost 6 % 2 = 0 then .seconds else .hits) (lost 7)
        (decide (lost 8 % 2 = 1))
    | some i =>
      toolDataBody tool i.type place generation ((i.meas.map (fun m => microns m.length)).getD (lost 4))
        ((i.meas.map (fun m => microns m.radius)).getD (lost 5)) (((s.type i.type).map (·.lifeUnit)).getD .seconds)
        (if i.spent then 0 else i.life) i.spent
  | .lifeUpdate tool place blocked =>
    lifeUpdateBody tool place (if blocked then 0 else ((s.tool tool).map (·.life)).getD (Config.lostField s.tick tool 3)) blocked
  | .notice kind type => noticeBody kind type

/-- The transaction that would start next: the first PENDING one whose hold-off has passed (R160). -/
def State.nextToStart (s : State) (n : Nat) : Option Txn :=
  (s.station n).queue.find? (fun t => t.state == .pending &&
    (match t.holdOff with
     | some h => decide (h ≤ s.tick)
     | none => true))

/-- A transaction of the station becomes IN_FLIGHT where the conditions of R160 hold. -/
def State.startTxn (s : State) (n : Nat) : State :=
  if s.running && s.linkRuns n && (s.inFlight n).isNone then
    match s.nextToStart n with
    | some t =>
      s.putTxn n { t with state := .inFlight, holdOff := none, firstSent := none, delivered := false,
                          body := s.txnBody t.kind, handed := false }
    | none => s
  else s

/-- A blocked LIFE_UPDATE that failed is asked for anew while the instance is spent and held there unnoticed (R163,
R168). -/
def State.reaskBlocked (s : State) (n : Nat) (t : Txn) (state : TxnState) : State :=
  match t.kind, state with
  | .lifeUpdate tool _ true, .failed =>
    match (s.tool tool).bind (fun i => if i.spent then i.heldPlace else none) with
    | some (st, place) =>
      if st = n ∧ (((s.station n).entryOf tool).map (·.2.spentNotice)).getD false = false then s.askBlocked n place tool else s
    | none => s
  | _, _ => s

/-- A transaction ends, the space it leaves is filled, and the next one starts (R158, R160, R163). -/
def State.endTxn (s : State) (n : Nat) (t : Txn) (state : TxnState) (code : TxnCode) : State :=
  (((s.finishTxn n t state code).fillSpace n).reaskBlocked n t state).startTxn n

/-- A transaction of a station ends, if it is still queued. -/
def State.endQueued (s : State) (n id : Nat) (state : TxnState) (code : TxnCode) : State :=
  match (s.station n).queue.find? (fun t => t.id == id) with
  | some t => s.endTxn n t state code
  | none => s

/-- The PENDING transactions of a station that a test picks are cancelled (R164), each with the space it leaves filled before the
next (log entry 86, the model's choice). -/
def State.cancelAt (s : State) (n : Nat) (p : TxnKind → Bool) : State :=
  (((s.station n).queue.filter (fun t => t.state == .pending && p t.kind)).map (·.id)).foldl
    (fun s id => s.endQueued n id .cancelled .cancelled) s

/-- PENDING transactions are cancelled in every queue (R164), the stations by ascending number (log entry 86, the model's choice). -/
def State.cancelAll (s : State) (p : TxnKind → Bool) : State := allStations.foldl (fun s n => s.cancelAt n p) s

/-- HOE learns that an instance has left ISSUED for another state than LOADED (R20, R164). -/
def State.leftIssued (s : State) (tool : Nat) : State := s.cancelAll (fun k => k.isDataOf tool)

/-- HOE learns that an instance is RETIRED or deleted (R20, R164). -/
def State.gone (s : State) (tool : Nat) : State := s.cancelAll (fun k => k.names tool)

/-- A TOOL_DATA is asked for and may start (R160). -/
def State.supplyData (s : State) (n place tool : Nat) : State := (s.askToolData n place tool).startTxn n

/-! ### Returning to PENDING -/

/-- A transaction taken out of flight (R158). -/
def Txn.grounded (t : Txn) : Txn :=
  { t with state := .pending, firstSent := none, delivered := false, body := [], handed := false }

/-- A transaction returns to PENDING ahead of the members of its class that a test picks, or ends where a PENDING one already
serves its instance or type (R162). -/
def State.returnTxn (s : State) (n : Nat) (t : Txn) (behind : Txn → Bool) : State :=
  let rival := match t.kind with
    | .toolData tool _ _ => s.pendingTxn n (fun k => k.isDataOf tool)
    | .notice _ type => s.pendingTxn n (fun k => k.isNoticeOf type)
    | _ => none
  match rival with
  | some _ => s.endTxn n t .cancelled .superseded
  | none => s.setTxns n (placeTxn ((s.station n).queue.filter (fun x => x.id ≠ t.id)) t.grounded behind)

/-- The link-stopped notice (R162): broadcast notices end in queue order, then the block in flight returns (log entry 86, the model's
choice). -/
def State.linkStopped (s : State) (n : Nat) : State :=
  let q := (s.station n).queue
  let broadcasts := q.filter (fun t => t.broadcast.isSome && (t.state == .inFlight || t.state == .pending))
  let s := (broadcasts.map (·.id)).foldl (fun s id => s.endQueued n id .failed .offline) s
  match s.inFlight n with
  | some t => s.returnTxn n t (fun _ => true)
  | none => s

/-- The link-running notice (R162). -/
def State.linkStarted (s : State) (n : Nat) : State := (s.enterOwedNotices n).startTxn n

/-! ### SLC's notices and ready messages -/

/-- The transaction of a station that SLC names, where it is IN_FLIGHT (R160). -/
def State.flying (s : State) (n id : Nat) : Option Txn :=
  (s.station n).queue.find? (fun t => t.id == id && t.state == .inFlight)

/-- A confirmed blocked LIFE_UPDATE marks the entry of its instance and place (R168). -/
def State.markNotice (s : State) (n tool place : Nat) : State :=
  let st := s.station n
  match tget st.magazine place with
  | some e => if e.tool = tool then s.setStation n { st with magazine := tset st.magazine place { e with spentNotice := true } } else s
  | none => s

/-- SLC's delivered notice (R160). -/
def State.delivered (s : State) (n id : Nat) : State :=
  match s.flying n id with
  | none => s
  | some t =>
    match t.kind with
    | .lifeUpdate tool place blocked =>
      (if blocked then s.markNotice n tool place else s).endTxn n t .confirmed .ok
    | _ => s.putTxn n { t with delivered := true }

/-- SLC's failed notice (R146, R160). -/
def State.sendFailed (s : State) (n id : Nat) : State :=
  match s.flying n id with
  | none => s
  | some t => s.endTxn n t .failed .checkFailed

/-- The 2 s of an IN_FLIGHT transaction have run out (R160). -/
def State.handoffDue (s : State) (n : Nat) : Option Txn :=
  match s.inFlight n with
  | some t =>
    match t.firstSent with
    | some f => if f + 2000 ≤ s.tick then some t else none
    | none => none
  | none => none

/-- The 2 s timeout of the station's IN_FLIGHT transaction, where it has run out (R160). -/
def State.fireHandoff (s : State) (n : Nat) : State :=
  match s.handoffDue n with
  | some t => s.endTxn n t .failed .timeout
  | none => s

/-- A PENDING transaction's hold-off has passed and a transaction can start (R160). -/
def State.holdOffDue (s : State) (n : Nat) : Bool :=
  s.running && s.linkRuns n && (s.inFlight n).isNone &&
  ((s.nextToStart n).map (fun t => t.holdOff.isSome)).getD false

/-- A hold-off tick passing lets a transaction start (R160). -/
def State.fireHoldOff (s : State) (n : Nat) : State := if s.holdOffDue n then s.startTxn n else s

/-- HOE offers SLC the oldest reply, else the IN_FLIGHT block not yet handed over; what it hands leaves its hands (R155).
The tick of the first sending is kept (R160). -/
def State.offer (s : State) (n : Nat) : Option (List Byte × BlockOrigin × State) :=
  let st := s.station n
  match st.replies with
  | r :: rest => some (stationReplyBody r, .reply, s.setStation n { st with replies := rest })
  | [] =>
    match s.inFlight n with
    | some t =>
      if t.handed then none
      else some (t.body, .transaction t.id, s.putTxn n { t with handed := true, firstSent := some s.tick })
    | none => none

/-- A STATION_REPLY joins the station's list; a full list loses its oldest (R155). -/
def State.stationReply (s : State) (n : Nat) (r : StationReply) : State :=
  let st := s.station n
  let kept := if st.replies.length ≥ 8 then st.replies.drop 1 else st.replies
  s.setStation n { st with replies := kept ++ [r] }

/-! ### Broadcasts -/

/-- The first broadcast number from the counter on that no present record holds, trying at most `fuel` (R172); the record whose
slot is taken still counts (log entry 78, the model's choice). -/
def State.freeBroadcast (s : State) (fuel n : Nat) : Nat :=
  match fuel with
  | 0 => n
  | k + 1 => if (s.broadcast n).isSome then s.freeBroadcast k (cyclicNext 255 n) else n

/-- The slot a new record takes: a free one, else that of the DONE record created earliest (R172), of two created on one tick the
lower slot (log entry 79, the model's choice). -/
def State.broadcastSlot (s : State) : Option Nat :=
  match s.hoe.broadcasts.findIdx? (fun b => b.isNone) with
  | some i => some i
  | none =>
    let done := (s.hoe.broadcasts.zipIdx.filter (fun e => (e.1.map (·.done)).getD false)).map
      (fun e => ((e.1.map (·.tick)).getD 0, e.2))
    (done.foldl (fun (acc : Option (Nat × Nat)) e => match acc with
      | none => some e
      | some b => if e.1 < b.1 then some e else some b) none).map (·.2)

/-- The type enters a station's unacknowledged hold set, and a notice follows while the link runs (R172). -/
def State.holdEntry (s : State) (n type : Nat) (kind : NoticeKind) : State :=
  ((s.setUnacked n (tset (s.station n).unacked type { kind := kind, stamp := s.hoe.entries })).enterOwedNotices n).startTxn n

/-- How a member is treated at creation (R172). -/
def State.inviteMember (s : State) (number n type : Nat) (kind : NoticeKind) : State :=
  let result := fun (s : State) (c : MemberCode) =>
    match s.broadcast number with
    | some b => s.putBroadcast { b with results := b.results.map (fun (m : Nat × Option MemberCode) => if m.1 = n then (m.1, some c) else m) }
    | none => s
  if s.linkRuns n = false then (result s .offline).holdEntry n type kind
  else
    match s.pendingTxn n (fun k => k.isNoticeOf type) with
    | some old => (s.supersede n old (.notice kind type) (some number)).startTxn n
    | none =>
      if s.queueFull n then (result s .refused).holdEntry n type kind
      else (s.enterTxn n (.notice kind type) (some number)).startTxn n

/-- A hold or release tells its member stations: a record and its number, or none with every member's hold set entered
(R172); the members by ascending number (log entry 86, the model's choice). -/
def State.createBroadcast (s : State) (kind : NoticeKind) (type : Nat) (members : List Nat) : State × Option Nat :=
  match s.broadcastSlot with
  | none => (members.foldl (fun s n => s.holdEntry n type kind) s, none)
  | some slot =>
    let number := s.freeBroadcast 5 s.hoe.nextBroadcast
    let b : Broadcast :=
      { number := number, kind := kind, type := type, results := members.map (fun n => (n, (none : Option MemberCode))), done := false,
        tick := s.tick, time := s.now }
    let s := s.setHoe { s.hoe with
      broadcasts := s.hoe.broadcasts.set slot (some b)
      nextBroadcast := cyclicNext 255 number }
    let s := members.foldl (fun s n => s.inviteMember number n type kind) s
    (match s.broadcast number with
     | some b => (s.settleBroadcast b, some number)
     | none => (s, some number))

/-- The 5 s of an OPEN record have run out (R173). -/
def State.broadcastDue (s : State) (b : Broadcast) : Bool := !b.done && decide (b.tick + 5000 ≤ s.tick)

/-- The expiry of a record, where it has run out: pending members take TIMEOUT and their notices run on outside it
(R173). -/
def State.fireBroadcast (s : State) (number : Nat) : State :=
  match s.broadcast number with
  | none => s
  | some b =>
    if s.broadcastDue b then
      let s := allStations.foldl (fun s n =>
        s.setTxns n ((s.station n).queue.map (fun t => if t.broadcast = some number then { t with broadcast := none } else t))) s
      s.settleBroadcast
        { b with results := b.results.map (fun m => (m.1, some (m.2.getD .timeout))) }
    else s

/-! ### The pick's handoff -/

/-- What follows a pick, by destination (R59): TOOL_DATA for a station; DELIVERED at once for the bench. -/
def State.afterPick (s : State) (r : Request) (tool : Nat) : State :=
  match r.dest with
  | .station st place => s.supplyData st place tool
  | .bench => s.endRequest r .delivered .delivered

end Sys2Proof.Machine
end

