-- ==== Sys2Proof/Machine/Life.lean ====
section
/-! DEFINITION. LFU: usage, warning, spent tools and replacement (R116 to R127). -/

namespace Sys2Proof.Machine

/-- A RETIRED instance's neighbours settle what names it: put-away, departure marks and PENDING transactions (R20, R42,
R71). -/
def State.afterRetired (s : State) (n : Nat) : State := ((s.leavePutaway n).settleMarks n).gone n

/-- SPENT_AT_LIMIT: the RETURNING instance becomes RETIRED (R127). -/
def State.spentAtLimit (s : State) (n : Nat) : State :=
  match s.tool n with
  | some r => (s.move n r { cause := .spentAtLimit, custody := .retired, loc := .nowhere }).afterRetired n
  | none => s

/-- LIFE_ZERO: READY, STAGED or UNMEASURED becomes REGRIND_DUE where it is (R126). -/
def State.lifeZero (s : State) (n : Nat) : State :=
  match s.tool n with
  | some r => s.move n r { cause := .lifeZero, custody := .regrindDue, loc := r.loc }
  | none => s

/-- The marks stand at or above the type's regrind limit (R127). -/
def State.atLimit (s : State) (r : InstRec) : Bool :=
  match s.type r.type with
  | some t => decide (t.regrindLimit ≤ r.marks)
  | none => false

/-- The PREFETCH request of a warning, where R121 calls for one. -/
def State.prefetch (s : State) (r : InstRec) : State :=
  match s.type r.type, r.heldPlace with
  | some t, some (st, place) =>
    if t.autoPrefetch && (s.requestFor st place r.type).isNone then s.autoRequest st place r.type .prefetch else s
  | _, _ => s

/-- The warning test and the warning (R119 step 2, R120, R121). -/
def State.warnTest (s : State) (n : Nat) : State :=
  match s.tool n with
  | none => s
  | some r =>
    match s.type r.type with
    | none => s
    | some t =>
      if !r.warned && decide (t.warnLevel ≠ 0) && decide (r.life ≤ t.threshold) then
        let s := s.setTool n { r with warned := true }
        let s := s.report (.lifeWarning n r.type r.life t.threshold r.custody r.heldPlace)
        s.prefetch r
      else s

/-- The URGENT request that takes a spent tool's place, where R124 calls for one. -/
def State.replacement (s : State) (r : InstRec) : State :=
  match s.type r.type, r.heldPlace with
  | some t, some (st, place) =>
    let own := match s.requestFor st place r.type with
      | some q => r.link == some q.number
      | none => false
    if t.autoReplace && !own then s.autoRequest st place r.type .urgent else s
  | _, _ => s

/-- The spent actions (R122): the flag, the blocked LIFE_UPDATE, LIFE_SPENT and the replacement. -/
def State.spentActions (s : State) (n : Nat) (r : InstRec) (units : Nat) (late : Bool) : State :=
  let s := s.setTool n { r with spent := true }
  let s := match r.heldPlace with
    | some (st, place) => (s.askBlocked st place n).startTxn st
    | none => s
  let s := s.report (.lifeSpent n r.type r.custody r.heldPlace r.marks (((s.type r.type).map (·.regrindLimit)).getD 0) units late)
  s.replacement r

/-- The zero test (R119 step 3, R126). A RESERVED instance is released, the pass runs, and LIFE_ZERO follows (log entries
12, 13), put-away only then (log entry 76, the model's choice). -/
def State.zeroTest (s : State) (n units : Nat) (late : Bool) : State :=
  match s.tool n with
  | none => s
  | some r =>
    if r.life ≠ 0 then s
    else
      match r.custody with
      | .loaded => if r.spent then s else s.spentActions n r units late
      | .issued => if r.spent then s else s.spentActions n r units late
      | .ready => s.lifeZero n
      | .staged => (s.lifeZero n).announce n
      | .unmeasured => (s.lifeZero n).announce n
      | .reserved => (((s.releaseToQueue n false).allocationPass).lifeZero n).tryPutaway n
      | .returning => if s.atLimit r then s.spentAtLimit n else s
      | _ => s

/-- An accepted USAGE is applied (R119). -/
def State.applyUsage (s : State) (n units : Nat) (late : Bool) : State :=
  ((s.modTool n (fun r => { r with life := r.life - units })).warnTest n).zeroTest n units late

/-- The place at which a station holds an instance (R117). -/
def State.holds (s : State) (st n : Nat) (r : InstRec) : Option Nat :=
  match (s.station st).entryOf n with
  | some e => some e.1
  | none =>
    match r.custody, r.loc with
    | .issued, .toStation t p => if t = st then some p else none
    | .issued, .station t p => if t = st then some p else none
    | _, _ => none

/-- The late-usage conditions (R118). -/
def InstRec.takesLate (r : InstRec) (st : Nat) : Bool :=
  (match r.last with
   | some l => decide (l.station = st) && decide (l.generation = r.generation)
   | none => false) &&
  r.meas.isSome && r.custody != .atRegrind && r.custody != .retired

/-- A station's USAGE with its reply (R116). -/
def State.usage (s : State) (st n place units : Nat) : State × StationCode :=
  if s.running = false then (s, .notRunning)
  else if place < 1 ∨ (s.station st).places < place then (s, .placeRange)
  else
    match s.tool n with
    | none => (s, .unknownInstance)
    | some r =>
      if s.holds st n r = some place then (s.applyUsage n units false, .ok)
      else if r.takesLate st then (s.applyUsage n units true, .ok)
      else if (s.holds st n r).isSome then (s, .wrongPlace)
      else (s, .stale)

/-- LFU at a verification (R125). -/
def State.verifiedLife (s : State) (n : Nat) : State :=
  match s.tool n with
  | none => s
  | some r =>
    match s.type r.type with
    | none => s
    | some t =>
      if r.spent && t.autoReplace then s.replacement r
      else if r.warned && t.autoPrefetch then s.prefetch r
      else s

end Sys2Proof.Machine
end

