-- ==== Sys2Proof/Machine/Pockets.lean ====
section
/-! DEFINITION. PSC: counting and classification (R32, R33), debounce and events (R36 to R39), faults (R40, R41), passes and learning
(R34, R35), cabinet settings (R30), and ISC's late pick and placement (R59, R63, R69). -/

namespace Sys2Proof.Machine

/-- The 64 pockets of a cabinet. -/
def allPockets : List Nat := (List.range 64).map (· + 1)

/-! ### Counting and classification -/

/-- The 14-bit counter stops at 16,383 (R32). -/
def countOf (cycles : Nat) : Nat := min cycles 16383

/-- Classifications of a count (R33). -/
inductive Classification where
  | unclassified
  | faultLevel
  | isPresent
  | isAbsent
  | noChange
deriving DecidableEq, Repr

/-- The classification of a count against the pocket's record (R33). -/
def Pocket.classify (p : Pocket) (count : Nat) : Classification :=
  match p.baseline with
  | none => .unclassified
  | some b =>
    if count = 0 ∨ count = 16383 ∨ count < b / 8 then .faultLevel
    else if count ≤ p.presentBound.getD 0 then .isPresent
    else if p.absentBound.getD 0 ≤ count then .isAbsent
    else .noChange

/-! ### What ISC does with an event -/

/-- The custody on placement, with its quarantine cause (R69). -/
def placement (r : InstRec) (damaged held keep : Bool) : Custody × Option QCause :=
  let ready : Custody × Option QCause := if held then (.quarantine, some .typeHold) else (.ready, none)
  match r.custody with
  | .staged => ready
  | .quarantine => (.quarantine, r.qcause)
  | .regrindDue => (.regrindDue, none)
  | .returning =>
    if damaged then (.quarantine, some .damaged)
    else if keep && r.meas.isSome && decide (0 < r.life) then ready
    else (.unmeasured, none)
  | _ => (.unmeasured, none)

/-- The placement of an instance from the records as they stand (R69). -/
def State.placementOf (s : State) (n : Nat) (r : InstRec) : Custody × Option QCause :=
  placement r (s.isDamaged n) (s.typeHeld r.type) (((s.type r.type).map (·.keepOnReturn)).getD false)

/-- The pick of a reserved instance (R59). -/
def State.pick (s : State) (c p n : Nat) : State :=
  match s.tool n with
  | none => s
  | some i =>
    match i.link.bind s.request with
    | none => s
    | some r =>
      let goal : Location := match r.dest with
        | .station st place => .toStation st place
        | .bench => .toBench
      let s := s.move n i { cause := .pick, custody := .issued, loc := goal }
      let s := s.setPocket c p { s.pocket c p with tool := none, state := .empty }
      let r := { r with state := .issued, reserveTick := none }
      ((s.changeRequest r .pick).afterPick r n).noticeIfFree c p

/-- The request that a late-pick memory lets a removal serve (R63). -/
def State.latePickRequest (s : State) (memory : Option LatePick) (n : Nat) : Option Request :=
  match memory, s.tool n with
  | some m, some i =>
    if m.tool = n ∧ i.custody = .ready then
      match s.request m.request with
      | some r => if r.open then some r else none
      | none => none
    else none
  | _, _ => none

/-- A removal accepted as a late pick (R63). -/
def State.latePick (s : State) (c p n : Nat) (r : Request) : State :=
  match s.tool n with
  | none => s
  | some i =>
    let goal : Location := match r.dest with
      | .station st place => .toStation st place
      | .bench => .toBench
    let s := s.move n i { cause := .latePick, custody := .issued, loc := goal, link := some r.number }
    let s := s.setPocket c p { s.pocket c p with tool := none, state := .empty }
    let r := { r with state := .issued, tool := some n, reserveTick := none }
    ((s.changeRequest r .latePick).afterPick r n).noticeIfFree c p

/-- An unsanctioned removal (R38). -/
def State.unsanctioned (s : State) (c p n : Nat) : State :=
  let i := s.tool n
  let s := s.report (.discrepancy .unsanctionedRemoval c p (some n) (i.map (·.custody)))
  let s := match i with
    | some i => s.move n i { cause := .discrepancy, custody := .missing, loc := .nowhere }
    | none => s
  (s.setPocket c p { s.pocket c p with tool := none, state := .empty }).noticeIfFree c p

/-- A REMOVED event (R38, R63). -/
def State.removed (s : State) (c p : Nat) : State :=
  let memory := tget s.isc.latePicks (pocketKey c p)
  let s := s.clearLatePick (pocketKey c p)
  let r := s.pocket c p
  match r.state, r.tool with
  | .expectTake, some n => s.pick c p n
  | .occupied, some n =>
    match s.latePickRequest memory n with
    | some q => s.latePick c p n q
    | none => s.unsanctioned c p n
  | .occupied, none => (s.setPocket c p { r with mark := none, state := .empty }).noticeIfFree c p
  | .unknown, _ => (s.setPocket c p { r with state := .empty }).noticeIfFree c p
  | _, _ => s

/-- A holder lies in the pocket without a record: UNKNOWN, with UNKNOWN_PLACEMENT (R39, R69). -/
def State.unknownPlacement (s : State) (c p : Nat) (tool : Option Nat) (custody : Option Custody) : State :=
  (s.setPocket c p { s.pocket c p with state := .unknown }).report (.discrepancy .unknownPlacement c p tool custody)

/-- The placement of an assigned instance (R69). -/
def State.place (s : State) (c p n : Nat) : State :=
  match s.tool n with
  | none => (s.forgetAssignment n).unknownPlacement c p none none
  | some i =>
    if i.wantsPutaway && s.vacant n (.pocket c p) then
      let goal := s.placementOf n i
      let s := s.move n i { cause := .place, custody := goal.1, loc := .pocket c p, qcause := goal.2 }
      let s := s.setPocket c p { s.pocket c p with tool := some n, state := .occupied }
      ((s.forgetAssignment n).leavePutaway n).announce n
    else ((s.forgetAssignment n).unknownPlacement c p (some n) (some i.custody)).tryPutaway n

/-- A PLACED event (R39). -/
def State.placed (s : State) (c p : Nat) : State :=
  match (s.pocket c p).state with
  | .expectPlace =>
    match s.assigneeOf c p with
    | some n => s.place c p n
    | none => s.unknownPlacement c p none none
  | .empty => s.unknownPlacement c p none none
  | _ => s

/-! ### Fault and recovery -/

/-- The pocket enters FAULT, with its report (R40). -/
def State.faultNow (s : State) (c p count : Nat) (before : PocketState) : State :=
  let r := s.pocket c p
  (s.setPocket c p { r with state := .fault, run := 0 }).report (.pocketEvent .fault c p before r.tool r.mark (some count))

/-- A fault-level count at a pocket that is not in FAULT (R40, log entry 16). The report of a reserved pocket shows EXPECT_TAKE as the
state before, not the OCCUPIED of the moment between (log entry 95, the model's choice). -/
def State.enterFault (s : State) (c p count : Nat) : State :=
  let r := s.pocket c p
  match r.state with
  | .disabled => s
  | .expectTake =>
    match r.tool with
    | some n => ((s.releaseToQueue n true).faultNow c p count .expectTake).afterRelease n
    | none => s.faultNow c p count .expectTake
  | .expectPlace =>
    match s.assigneeOf c p with
    | some n => ((s.forgetAssignment n).tryPutaway n).faultNow c p count .expectPlace
    | none => s.faultNow c p count .expectPlace
  | other => s.faultNow c p count other

/-- The pocket record after recovery (R41). -/
def Pocket.recovered (r : Pocket) : Pocket :=
  match r.tool, r.mark with
  | some _, _ => { r with run := 0, state := .occupied }
  | none, some _ =>
    if r.sensed = .present then { r with run := 0, state := .occupied } else { r with run := 0, state := .empty, mark := none }
  | none, none => { r with run := 0, state := if r.sensed = .present then .unknown else .empty }

/-- The pocket recovers from FAULT (R41). -/
def State.recover (s : State) (c p : Nat) : State :=
  let r := s.pocket c p
  let s := (s.setPocket c p r.recovered).report (.pocketEvent .faultCleared c p .fault r.tool r.mark none)
  if r.tool.isSome then s.allocationPass else s.noticeIfFree c p

/-! ### Debounce -/

/-- An event is reported and handed on (R36, R37). -/
def State.presenceEvent (s : State) (c p : Nat) (e : Presence) : State :=
  let r := s.pocket c p
  let kind : PocketEvent := if e = .present then .placed else .removed
  let s := (s.setPocket c p { r with sensed := e, run := 0 }).report (.pocketEvent kind c p r.state r.tool r.mark none)
  if e = .present then s.placed c p else s.removed c p

/-- A classification feeds the debounce of a sensing pocket (R36). -/
def State.debounce (s : State) (c p : Nat) (seen : Option Presence) : State :=
  let r := s.pocket c p
  if r.sensing && r.sensed != .undecided then
    match seen with
    | none => s.setPocket c p { r with run := 0 }
    | some e =>
      if e = r.sensed then s.setPocket c p { r with run := 0 }
      else if (s.cab c).settings.debounce ≤ r.run + 1 then s.presenceEvent c p e
      else s.setPocket c p { r with run := r.run + 1 }
  else s

/-- An in-range count at a pocket in FAULT (R40, R41). -/
def State.inRangeCount (s : State) (c p : Nat) : State :=
  let r := s.pocket c p
  if 8 ≤ r.run + 1 then s.recover c p else s.setPocket c p { r with run := r.run + 1 }

/-- A count of a pass is recorded, classified and acted on (R32, R33, R36, R40). -/
def State.countPocket (s : State) (c p count : Nat) : State :=
  let r := s.pocket c p
  let s := s.setPocket c p { r with lastCount := some count }
  match r.classify count with
  | .unclassified => s
  | .faultLevel =>
    if r.state = .fault then s.setPocket c p { s.pocket c p with run := 0 } else s.enterFault c p count
  | .isPresent => if r.state = .fault then s.inRangeCount c p else s.debounce c p (some .present)
  | .isAbsent => if r.state = .fault then s.inRangeCount c p else s.debounce c p (some .absent)
  | .noChange => if r.state = .fault then s.inRangeCount c p else s.debounce c p none

/-! ### Learning -/

/-- The pocket may be learned empty (R35). -/
def Pocket.learnable (r : Pocket) : Bool :=
  r.tool.isNone && r.mark.isNone && r.state != .expectTake && r.state != .expectPlace && r.sensed != .present

/-- The pocket after a learned count (R35). -/
def Pocket.learned (r : Pocket) (settings : CabSettings) (count : Nat) : Pocket :=
  let r := ({ r with lastCount := some count, baseline := some count, run := 0 } : Pocket).withBounds settings
  if r.enabled then
    { r with sensed := .absent
             state :=
               match r.state with
               | .fault => .empty
               | other => other }
  else r

/-- How far a learning pass has come: the pocket to measure, if one is left. -/
structure LearnWalk where
  current : Option Nat
  rest : List Nat
  refused : List Nat
deriving DecidableEq, Repr

/-- The channel moves to the next pocket that still meets the conditions; the others are refused (R35). -/
def State.learnNext (s : State) (c : Nat) (pockets refused : List Nat) : LearnWalk :=
  match pockets with
  | [] => { current := none, rest := [], refused := refused }
  | p :: rest =>
    if (s.pocket c p).learnable then { current := some p, rest := rest, refused := refused }
    else s.learnNext c rest (refused ++ [p])

/-- A learning pass goes on to its next pocket, or ends its walk with LEARN_DONE (R35). -/
def State.learnOn (s : State) (c handle : Nat) (pockets learned refused failed : List Nat) : State :=
  let w := s.learnNext c pockets refused
  match w.current with
  | some p => s.setCab c { s.cab c with pass := some (.learn handle p w.rest learned w.refused failed) }
  | none => (s.setCab c { s.cab c with pass := none }).report (.learnDone c handle learned w.refused failed)

/-! ### Passes and settings -/

/-- The first enabled pocket above a number (R34). A pass asks for it as it moves on, so that a pocket enabled meanwhile joins the pass
(log entry 94, the model's choice). -/
def State.nextEnabled (s : State) (c above : Nat) : Option Nat :=
  allPockets.find? (fun p => decide (above < p) && (s.pocket c p).enabled)

/-- The conditions of automatic passes hold (R34). -/
def State.autoRuns (s : State) (settings : CabSettings) : Bool := s.running && settings.enabled && settings.mode == .auto

/-- An automatic pass starts on an idle channel (R34). -/
def State.startAuto (s : State) (c : Nat) : State :=
  match (s.cab c).pass, s.nextEnabled c 0 with
  | none, some p => s.setCab c { s.cab c with pass := some (.auto p) }
  | _, _ => s

/-- The interval boundaries start afresh with a boundary now (R34, log entry 19). -/
def State.restartBoundary (s : State) (c : Nat) : State :=
  let k := s.cab c
  (s.setCab c { k with boundary := some (s.tick + k.settings.interval) }).startAuto c

/-- A pocket under changed settings: the baseline scaled by a change of window, the bounds computed anew (R30). -/
def Pocket.resettled (r : Pocket) (old new : CabSettings) : Pocket :=
  let scaled := if old.window = new.window then r.baseline
    else r.baseline.map (fun b => max 1 (min 16383 (b * new.window / old.window)))
  ({ r with baseline := scaled } : Pocket).withBounds new

/-- Settings take effect on the cabinet's pockets and channel; the answer says whether the boundaries restart (R30, R34). -/
def State.takeSettings (s : State) (c : Nat) (new : CabSettings) : State × Bool :=
  let old := (s.cab c).settings
  let s := allPockets.foldl (fun s p => s.setPocket c p ((s.pocket c p).resettled old new)) s
  let runs := s.autoRuns new
  let restart := runs && (!s.autoRuns old || old.interval != new.interval || old.mode != new.mode)
  let k := s.cab c
  (s.setCab c { k with settings := new, pendingSettings := none, boundary := if runs then k.boundary else none }, restart)

/-- The end of a pass: pending settings, then a held learning pass, then a restarted boundary (R30, R35, log entry 19). -/
def State.endPass (s : State) (c : Nat) : State :=
  let s := s.setCab c { s.cab c with pass := none }
  let out := match (s.cab c).pendingSettings with
    | some new => s.takeSettings c new
    | none => (s, false)
  let s := match (out.1.cab c).heldLearn with
    | some l => (out.1.setCab c { out.1.cab c with heldLearn := none }).learnOn c l.handle l.pockets [] [] []
    | none => out.1
  if out.2 then s.restartBoundary c else s

/-- The number of pockets of a cabinet in a state (R34, R45). -/
def State.pocketsIn (s : State) (c : Nat) (st : PocketState) : Nat :=
  (allPockets.filter (fun p => (s.pocket c p).state == st)).length

/-- A pass other than a learning pass goes on to its next pocket, or ends (R34). -/
def State.passOn (s : State) (c : Nat) (pass : Pass) : State :=
  match pass with
  | .auto current =>
    match s.nextEnabled c current with
    | some p => s.setCab c { s.cab c with pass := some (.auto p) }
    | none => s.endPass c
  | .single handle current measured =>
    match s.nextEnabled c current with
    | some p => s.setCab c { s.cab c with pass := some (.single handle p measured) }
    | none => (s.report (.scanDone c handle measured (s.pocketsIn c .fault))).endPass c
  | .learn _ _ _ _ _ _ => s

/-- A single pass starts; without an enabled pocket it ends at once (R34). -/
def State.startSingle (s : State) (c handle : Nat) : State :=
  match s.nextEnabled c 0 with
  | some p => s.setCab c { s.cab c with pass := some (.single handle p 0) }
  | none => s.report (.scanDone c handle 0 (s.pocketsIn c .fault))

/-- The channel completes a count of an automatic or single pass (R32 to R36). A pocket disabled meanwhile is not counted
(log entry 18). -/
def State.takeCount (s : State) (c cycles : Nat) : State :=
  match (s.cab c).pass with
  | some (.auto p) =>
    (if (s.pocket c p).enabled then s.countPocket c p (countOf cycles) else s).passOn c (.auto p)
  | some (.single handle p measured) =>
    if (s.pocket c p).enabled then (s.countPocket c p (countOf cycles)).passOn c (.single handle p (measured + 1))
    else s.passOn c (.single handle p measured)
  | _ => s

/-- The channel completes a count of a learning pass (R35, log entry 17). -/
def State.takeLearn (s : State) (c cycles : Nat) : State :=
  match (s.cab c).pass with
  | some (.learn handle p rest learned refused failed) =>
    let r := s.pocket c p
    let count := countOf cycles
    let s' :=
      if r.learnable = false then s.learnOn c handle rest learned (refused ++ [p]) failed
      else if count = 0 ∨ count = 16383 then
        (s.setPocket c p { r with lastCount := some count }).learnOn c handle rest learned refused (failed ++ [p])
      else
        ((s.setPocket c p (r.learned (s.cab c).settings count)).noticeIfFree c p).learnOn c handle rest (learned ++ [p]) refused failed
    if (s'.cab c).pass.isNone then s'.endPass c else s'
  | _ => s

/-- An automatic boundary has come (R34). -/
def State.boundaryDue (s : State) (c : Nat) : Bool :=
  match (s.cab c).boundary with
  | some b => decide (b ≤ s.tick)
  | none => false

/-- An automatic boundary starts a pass on an idle channel and is skipped otherwise (R34). -/
def State.fireBoundary (s : State) (c : Nat) : State :=
  let k := s.cab c
  match k.boundary with
  | some b =>
    if b ≤ s.tick then (s.setCab c { k with boundary := some (b + k.settings.interval) }).startAuto c else s
  | none => s

/-! ### Pockets that instances leave by command -/

/-- An instance leaves its pocket for a head or for regrinding (R42). -/
def State.departPocket (s : State) (l : Location) (n : Nat) (cause : MarkCause) : State :=
  match l with
  | .pocket c p =>
    if (s.pocket c p).tool = some n then
      (s.setPocket c p ((s.pocket c p).depart n cause)).noticeIfFree c p
    else s
  | _ => s

/-- An instance is dropped from its pocket for another cause (R43). -/
def State.dropPocket (s : State) (l : Location) (n : Nat) : State :=
  match l with
  | .pocket c p =>
    if (s.pocket c p).tool = some n then (s.setPocket c p ((s.pocket c p).drop)).noticeIfFree c p else s
  | _ => s

/-- START begins the automatic boundaries of a cabinet whose conditions now hold (R46). -/
def State.beginBoundaries (s : State) (c : Nat) : State :=
  if s.autoRuns (s.cab c).settings then s.restartBoundary c else s

end Sys2Proof.Machine
end

