-- ==== Sys2Proof/Machine/StationMsgs.lean ====
section
/-! DEFINITION. The messages of the stations (R154) and what each does: CALL (R50), CALL_CANCEL (R66), USAGE (R116), LOADED
(R165), UNLOADED (R167), STORED (R161), REFUSED (R162), HOLD_ACK (R173); verification (R166). -/

namespace Sys2Proof.Machine

/-- An instance ISSUED at STATION is verified where R166 allows: the entry ACTIVE, VERIFY, the request DELIVERED, then
LFU. -/
def State.verify (s : State) (n : Nat) : State :=
  match s.tool n with
  | none => s
  | some r =>
    match r.custody, r.loc with
    | .issued, .station st place =>
      let sta := s.station st
      match tget sta.magazine place with
      | some e =>
        if e.tool = n ∧ e.confirmed = some r.generation ∧ s.typeHeld r.type = false then
          let s := s.setStation st { sta with magazine := tset sta.magazine place { e with active := true } }
          let s := s.move n r { cause := .verify, custody := .loaded, loc := .station st place }
          (s.deliverRequest r.link).verifiedLife n
        else s
      | none => s
    | _, _ => s

/-- Where CALL ended in a full queue or without a number (R54). -/
def Entry.stationCode (e : Entry) : StationCode × Option Nat :=
  match e with
  | .entered number => (.ok, some number)
  | .noRoom => (.queueFull, none)
  | .noNumber => (.queueFull, none)

/-- A place of the station (R156). -/
def Station.hasPlace (st : Station) (place : Nat) : Bool := decide (1 ≤ place) && decide (place ≤ st.places)

/-- Needed-by of a CALL: the hall second plus the offset, limited to the field (R50, R177). -/
def neededByOf (second offset : Nat) : Nat := min (second + offset) 4294967295

/-- CALL (R50). -/
def State.call (s : State) (n type place : Nat) (prio : Priority) (offset minLife : Option Nat) :
    State × StationCode × Option Nat :=
  if (s.station n).hasPlace place = false then (s, .placeRange, none)
  else if (s.type type).isNone then (s, .badType, none)
  else
    let q : NewRequest :=
      { origin := .station n, type := type, dest := .station n place, prio := prio,
        neededBy := offset.map (fun o => neededByOf s.hck.hall.sec o), minLife := minLife }
    match s.requestFor n place type with
    | some r => (s.merge r q, .merged, some r.number)
    | none =>
      let out := s.enter q
      (out.1, out.2.stationCode)

/-- CALL_CANCEL (R66). -/
def State.callCancel (s : State) (n place type : Nat) : State × StationCode :=
  if (s.station n).hasPlace place = false then (s, .placeRange)
  else
    match s.requestFor n place type with
    | none => (s, .stale)
    | some r => if r.state = .issued then (s, .stale) else (s.cancelRequest r .cancelledStation, .ok)

/-- LOADED (R165). -/
def State.loaded (s : State) (n tool place : Nat) : State × StationCode :=
  if (s.station n).hasPlace place = false then (s, .placeRange)
  else
    match s.tool tool with
    | none => (s, .unknownInstance)
    | some r =>
      if ((tget (s.station n).magazine place).map (fun e => decide (e.tool ≠ tool))).getD false then (s, .placeOccupied)
      else
        match r.custody, r.loc with
        | .loaded, .station t p => if t = n ∧ p = place then (s, .ok) else (s, .wrongPlace)
        | .issued, .station t p => if t = n ∧ p = place then (s, .ok) else (s, .wrongPlace)
        | .issued, .toStation t p =>
          if t = n ∧ p = place ∧ s.vacant tool (.station n place) then
            let s := s.move tool r { cause := .stationLoaded, custody := .issued, loc := .station n place }
            let st := s.station n
            let s := match tget st.magazine place with
              | some _ => s
              | none =>
                s.setStation n { st with
                  magazine := tset st.magazine place { tool := tool, active := false, confirmed := none, spentNotice := false } }
            let s := s.verify tool
            (match s.tool tool with
             | some r' =>
               let queued := (s.station n).queue.any (fun t => t.kind.isDataOf tool)
               if r'.custody = .issued ∧ queued = false ∧ r'.owed = false ∧ s.typeHeld r'.type = false then
                 (s.supplyData n place tool, .ok)
               else (s, .ok)
             | none => (s, .ok))
          else (s, .wrongPlace)
        | _, _ => (s, .wrongPlace)

/-- The effect of UNLOADED on an instance at the place (R167); for an ISSUED one, the TOOL_DATA that HOE cancels in other queues once
it has left ISSUED come before what ISC reports (log entry 93, the model's choice). -/
def State.unload (s : State) (n tool : Nat) (r : InstRec) (damaged : Bool) : State :=
  let s := (s.setOwed tool false).dropMagazine n tool
  let s := s.cancelAt n (fun k => k.names tool)
  let r := { r with owed := false }
  let s := s.transition tool r { cause := .unloaded, custody := .returning, loc := .backStation n }
    (fun i => { i with last := some ⟨n, i.generation⟩, owed := false })
  let s := if r.custody = .issued then (s.leftIssued tool).loseRequest r.link else s
  if r.life = 0 ∧ s.atLimit r then s.spentAtLimit tool
  else
    let s := if damaged then s.setIsc { s.isc with damaged := s.isc.damaged ++ [tool] } else s
    s.tryPutaway tool

/-- UNLOADED (R167). -/
def State.unloaded (s : State) (n tool place : Nat) (damaged : Bool) : State × StationCode :=
  if (s.station n).hasPlace place = false then (s, .placeRange)
  else
    match s.tool tool with
    | none => (s, .unknownInstance)
    | some r =>
      match r.custody, r.loc with
      | .loaded, .station t p => if t = n ∧ p = place then (s.unload n tool r damaged, .ok) else (s, .wrongPlace)
      | .issued, .station t p => if t = n ∧ p = place then (s.unload n tool r damaged, .ok) else (s, .wrongPlace)
      | .returning, .backStation t => if t = n then (s, .ok) else (s, .wrongPlace)
      | _, _ => (s, .wrongPlace)

/-- The confirmed data enters the magazine list (R161, last row). -/
def State.confirmEntry (s : State) (n tool place generation : Nat) (blocked : Bool) : State :=
  let st := s.station n
  let old := (tget st.magazine place).getD { tool := tool, active := false, confirmed := none, spentNotice := false }
  s.setStation n { st with
    magazine := tset st.magazine place
      { old with confirmed := some generation, spentNotice := old.spentNotice || blocked } }

/-- The body of a TOOL_DATA carried the blocked flag. -/
def bodyBlocked (body : List Byte) : Bool := flagAt body 18 0

/-- STORED (R161). The transaction ends and its space is filled before verification is tested. -/
def State.stored (s : State) (n tool place generation : Nat) : State × StationCode :=
  match s.inFlight n with
  | none => (s, .stale)
  | some t =>
    if t.kind = .toolData tool place generation then
      let i := s.tool tool
      let entry := tget (s.station n).magazine place
      let here := (entry.map (fun e => decide (e.tool = tool))).getD false
      let destined := match i.map (fun r => (r.custody, r.heldPlace)) with
        | some (.issued, some (t, p)) => decide (t = n) && decide (p = place)
        | _ => false
      if generation < (i.map (·.generation)).getD 0 then (s.endTxn n t .superseded .superseded, .ok)
      else if !destined && !here then (s.endTxn n t .cancelled .cancelled, .ok)
      else if entry.isSome && !here then (s.endTxn n t .failed .refusedPlace, .placeOccupied)
      else
        (((s.confirmEntry n tool place generation (bodyBlocked t.body)).endTxn n t .confirmed .ok).verify tool, .ok)
    else (s, .stale)

/-- REFUSED (R162). -/
def State.refusedData (s : State) (n tool place : Nat) (code : RefusedCode) : State × StationCode :=
  match s.inFlight n with
  | none => (s, .stale)
  | some t =>
    match t.kind with
    | .toolData k p _ =>
      if k = tool ∧ p = place then
        (match code with
         | .programActive =>
           if t.busyRetries ≥ 5 then s.endTxn n t .failed .refusedBusy
           else
             let t' := { t with busyRetries := t.busyRetries + 1, holdOff := some (s.tick + 2000) }
             ((s.putTxn n t').returnTxn n t' (fun x => decide (t.slot < x.slot))).startTxn n
         | .placeOccupied => s.endTxn n t .failed .refusedPlace
         | .placeRange => s.endTxn n t .failed .refusedPlace, .ok)
      else (s, .stale)
    | _ => (s, .stale)

/-- HOLD_ACK (R173). -/
def State.holdAck (s : State) (n type : Nat) : State × StationCode :=
  if type < 1 ∨ 512 < type then (s, .badType)
  else
    match s.inFlight n with
    | some t => if t.kind.isNoticeOf type then (s.endTxn n t .confirmed .ok, .ok) else (s, .stale)
    | none => (s, .stale)

/-- A station message has its effects, and gives its reply's code and request number (R154, R155). -/
def State.stationEffect (s : State) (n : Nat) (m : StationMsg) : State × StationCode × Option Nat :=
  let plain := fun (p : State × StationCode) => (p.1, p.2, (none : Option Nat))
  if s.running = false then (s, .notRunning, none)
  else
    match m with
    | .call type place prio offset minLife => s.call n type place prio offset minLife
    | .callCancel place type => plain (s.callCancel n place type)
    | .usage tool place units => plain (s.usage n tool place units)
    | .loaded tool place => plain (s.loaded n tool place)
    | .unloaded tool place damaged => plain (s.unloaded n tool place damaged)
    | .stored tool place generation => plain (s.stored n tool place generation)
    | .refused tool place code => plain (s.refusedData n tool place code)
    | .holdAck type => plain (s.holdAck n type)

/-- SLC hands HOE a DATA block's body with its message number; a body that does not decode is discarded (R154). -/
def State.stationMessage (s : State) (n message : Nat) (body : List Byte) : State :=
  match stationMsgOf body with
  | none => s
  | some m =>
    let out := s.stationEffect n m
    out.1.stationReply n { message := message, code := out.2.1, request := out.2.2 }

end Sys2Proof.Machine
end

