-- ==== Sys2Proof/Machine/TypeCommands.lean ====
section
/-! DEFINITION. The commands of the type table: LOAD_TYPE (R2 to R5), DELETE_TYPE (R6), READ_TYPE (R7). -/

namespace Sys2Proof.Machine

/-- A reply with data. -/
def Reply.with (c : ReplyCode) (d : ReplyData) : Reply := { code := c, data := d }

/-- A type number (R1). -/
def typeNo (n : Nat) : Bool := decide (1 ≤ n) && decide (n ≤ 512)

/-- An instance number (R8). -/
def toolNo (n : Nat) : Bool := decide (1 ≤ n) && decide (n ≤ 2048)

/-- An instance above a lowered budget is clamped, and a station that holds it is sent the new life (R5). -/
def State.clampLife (s : State) (n type budget : Nat) : State :=
  match s.tool n with
  | none => s
  | some r =>
    if r.type = type ∧ budget < r.life then
      let s := s.setTool n { r with life := budget }
      match r.heldPlace with
      | some (st, place) => (s.askUnblocked st place n).startTxn st
      | none => s
    else s

/-- Some instance record names the type. -/
def State.typeUsed (s : State) (type : Nat) : Bool := s.trg.insts.any (fun e => e.2.type == type)

/-- Some instance of the type has more marks than a limit (R4). -/
def State.marksAbove (s : State) (type limit : Nat) : Bool :=
  s.trg.insts.any (fun e => e.2.type == type && decide (limit < e.2.marks))

/-- LOAD_TYPE of a checked record (R3 to R5); clamped instances by ascending number is the model's choice (log entry 58). -/
def State.loadType (s : State) (n : Nat) (r : TypeRec) : State × Reply :=
  match s.type n with
  | none => (s.setType n { r with held := false }, .plain .ok)
  | some old =>
    if decide (old.lifeUnit ≠ r.lifeUnit) && s.typeUsed n then (s, .plain .state)
    else if s.marksAbove n r.regrindLimit then (s, .plain .state)
    else
      let s := s.setType n { r with held := old.held }
      ((s.trg.insts.map (·.1)).foldl (fun s k => s.clampLife k n r.budget) s, .plain .ok)

/-- LOAD_TYPE (R2 to R5). -/
def execLoadType (tag : Byte) (body : List Byte) (s : State) : Host.Outcome State Fault Refusal :=
  hostCommand 0x01 tag body (fun s =>
    match typeFields body with
    | none => (s, .plain .range)
    | some r =>
      let n := fieldAt body 0 2
      if typeNo n && r.inRange then s.loadType n r else (s, .plain .range)) s

/-- DELETE_TYPE (R6). -/
def execDeleteType (tag : Byte) (body : List Byte) (s : State) : Host.Outcome State Fault Refusal :=
  hostCommand 0x02 tag body (fun s =>
    let n := fieldAt body 0 2
    if typeNo n = false then (s, .plain .range)
    else
      match s.type n with
      | none => (s, .plain .noSuch)
      | some r =>
        if r.held then (s, .plain .held)
        else if s.typeUsed n || s.isc.queue.any (fun q => q.type == n) then (s, .plain .state)
        else (s.delType n, .plain .ok)) s

/-- READ_TYPE (R7). -/
def execReadType (tag : Byte) (body : List Byte) (s : State) : Host.Outcome State Fault Refusal :=
  readCommand 0x03 tag body (fun s =>
    let n := fieldAt body 0 2
    if typeNo n = false then .plain .range
    else
      match s.type n with
      | none => .plain .noSuch
      | some r => .with .ok (.typeRec n r)) s

end Sys2Proof.Machine
end

