-- ==== Sys2Proof/Machine/InstanceCommands.lean ====
section
/-! DEFINITION. The commands on instances: REGISTER (R13), LOAD_INSTANCE (R14, R15), QUARANTINE_TOOL (R22), CLEAR_QUARANTINE (R23),
RETIRE (R24), DELETE (R25), READ_INSTANCE and LIST_INSTANCES (R26), REGRIND_OUT (R128), REGRIND_BACK (R129). -/

namespace Sys2Proof.Machine

/-- A command on one instance: range and presence of its number (R21). -/
def withTool (n : Nat) (f : State → InstRec → State × Reply) (s : State) : State × Reply :=
  if toolNo n = false then (s, .plain .range)
  else
    match s.tool n with
    | none => (s, .plain .noSuch)
    | some r => f s r

/-- A command of RUNNING only, whose mode test comes first (R195). -/
def whenRunning (f : State → State × Reply) (s : State) : State × Reply :=
  if s.running then f s else (s, .plain .notInMode)

/-- The record that REGISTER creates (R13). -/
def newInstance (type marks life : Nat) : InstRec :=
  { type := type, custody := .unmeasured, loc := .bench, meas := none, generation := 0, life := life, warned := false,
    spent := false, marks := marks, link := none, qcause := none, owed := false, last := none }

/-- REGISTER in its fields (R13). Its report shows no custody and no location before (log entry 56, the model's choice). -/
def State.register (s : State) (n type : Nat) (marks life : Option Nat) : State × Reply :=
  let lifeOk := match life with
    | some l => decide (1 ≤ l) && decide (l ≤ 4000000)
    | none => true
  if (toolNo n && typeNo type && decide (marks.getD 0 ≤ 4) && lifeOk) = false then (s, .plain .range)
  else
    match s.type type with
    | none => (s, .plain .noSuch)
    | some t =>
      if (s.tool n).isSome then (s, .plain .state)
      else if t.regrindLimit < marks.getD 0 then (s, .plain .limit)
      else if t.budget < life.getD 0 then (s, .plain .range)
      else
        let r := newInstance type (marks.getD 0) (life.getD t.budget)
        let s := (s.setTool n r).report (.custodyChange n type none .nowhere (some .unmeasured) .bench .register none)
        (s.announce n, .plain .ok)

/-- REGISTER (R13). -/
def execRegister (tag : Byte) (body : List Byte) (s : State) : Host.Outcome State Fault Refusal :=
  hostCommand 0x08 tag body (fun s =>
    s.register (fieldAt body 0 2) (fieldAt body 2 2) (if flagAt body 4 0 then some (fieldAt body 5 1) else none)
      (if flagAt body 4 1 then some (fieldAt body 6 3) else none)) s

/-! ### LOAD_INSTANCE -/

/-- A station place of a location lies within the station's place count (R14). -/
def State.placeInCount (s : State) (l : Location) : Bool :=
  match l with
  | .toStation st p => (s.station st).hasPlace p
  | .station st p => (s.station st).hasPlace p
  | _ => true

/-- The custody may be loaded at the location (R14, third row). -/
def loadable (c : Custody) (l : Location) : Bool :=
  match c, l with
  | .reserved, _ => false
  | .atPresetter, _ => false
  | .issued, .toStation _ _ => true
  | .issued, .toBench => true
  | .issued, _ => false
  | _, _ => true

/-- No other instance holds the target pocket or magazine place (R14, fifth row). -/
def State.targetFree (s : State) (n : Nat) (l : Location) : Bool :=
  s.vacant n l &&
  (match l with
   | .station st p => ((tget (s.station st).magazine p).map (fun e => decide (e.tool = n))).getD true
   | _ => true)

/-- Custody states in which a record of generation 1 or more may carry no measurement (R14). -/
def Custody.mayLack (c : Custody) : Bool :=
  match c with
  | .unmeasured => true
  | .quarantine => true
  | .regrindDue => true
  | .atRegrind => true
  | .missing => true
  | .retired => true
  | _ => false

/-- The measurement rule of R14. -/
def InstRec.measOk (r : InstRec) : Bool :=
  if r.generation = 0 then r.meas.isNone else r.meas.isSome || r.custody.mayLack

/-- The custody demands of R14 on measurement and life. -/
def InstRec.certified (r : InstRec) : Bool :=
  match r.custody with
  | .ready => r.meas.isSome && decide (0 < r.life)
  | .staged => r.meas.isSome && decide (0 < r.life)
  | .issued => r.meas.isSome
  | .loaded => r.meas.isSome
  | _ => true

/-- The first failing check of R14 after the ranges, none when all pass. -/
def State.loadRefusal (s : State) (n : Nat) (r : InstRec) : Option ReplyCode :=
  match s.type r.type with
  | none => some .noSuch
  | some t =>
    if loadable r.custody r.loc = false then some .state
    else if allowedPair r.custody r.loc = false then some .state
    else if s.targetFree n r.loc = false then some .state
    else if t.budget < r.life then some .range
    else if t.regrindLimit < r.marks then some .limit
    else if r.measOk = false then some .state
    else if r.certified = false then some .state
    else if r.qcause.isSome ≠ (r.custody == .quarantine) then some .state
    else if r.spent && decide (r.life ≠ 0) then some .state
    else if r.link.isSome then some .state
    else none

/-- A pocket that LOAD_INSTANCE records an instance at (R43). -/
def Pocket.loadedWith (p : Pocket) (n : Nat) : Pocket :=
  if p.enabled then
    { p with tool := some n, state := .occupied, sensed := if p.baseline.isSome then .present else .undecided, run := 0 }
  else { p with tool := some n, sensed := .undecided, run := 0 }

/-- The old record's location is vacated (R15). -/
def State.vacate (s : State) (n : Nat) : State :=
  match s.tool n with
  | none => s
  | some old =>
    let s := s.settleMarks n
    match old.loc with
    | .pocket _ _ => s.dropPocket old.loc n
    | .station st _ => s.dropMagazine st n
    | _ => s

/-- The new record is written and its location taken up (R15). -/
def State.takeUp (s : State) (n : Nat) (r : InstRec) : State :=
  match r.custody, r.loc with
  | _, .pocket c p => (s.setTool n r).setPocket c p ((s.pocket c p).loadedWith n)
  | .loaded, .station st p =>
    let s := s.setTool n r
    let sta := s.station st
    s.setStation st { sta with
      magazine := tset sta.magazine p { tool := n, active := true, confirmed := some r.generation, spentNotice := false } }
  | .issued, .toStation _ _ => s.setTool n { r with owed := true }
  | _, _ => s.setTool n r

/-- LOAD_INSTANCE (R14, R15). -/
def execLoadInstance (tag : Byte) (body : List Byte) (s : State) : Host.Outcome State Fault Refusal :=
  hostCommand 0x09 tag body (fun s =>
    if s.running then (s, .plain .notInMode)
    else
      match instFields body with
      | none => (s, .plain .range)
      | some r =>
        let n := fieldAt body 0 2
        if (toolNo n && typeNo r.type && s.placeInCount r.loc) = false then (s, .plain .range)
        else
          match s.loadRefusal n r with
          | some c => (s, .plain c)
          | none => ((s.vacate n).takeUp n r, .plain .ok)) s

/-! ### QUARANTINE_TOOL, CLEAR_QUARANTINE, RETIRE, DELETE -/

/-- QUARANTINE_TOOL on a record (R22). -/
def State.quarantineTool (s : State) (n : Nat) (r : InstRec) : State × Reply :=
  let m : Move := { cause := .quarantineTool, custody := .quarantine, loc := r.loc, qcause := some .host }
  let bar := fun (s : State) => match s.tool n with
    | some r => s.move n r m
    | none => s
  match r.custody with
  | .reserved => ((bar (s.releaseToQueue n false)).afterRelease n, .plain .ok)
  | .unmeasured => ((bar s).announce n, .plain .ok)
  | .staged => ((bar s).announce n, .plain .ok)
  | .ready => ((bar s).announce n, .plain .ok)
  | .regrindDue => ((bar s).announce n, .plain .ok)
  | _ => (s, .plain .state)

/-- QUARANTINE_TOOL (R22). -/
def execQuarantineTool (tag : Byte) (body : List Byte) (s : State) : Host.Outcome State Fault Refusal :=
  hostCommand 0x0A tag body (withTool (fieldAt body 0 2) (fun s r => s.quarantineTool (fieldAt body 0 2) r)) s

/-- CLEAR_QUARANTINE on a record (R23). -/
def State.clearQuarantine (s : State) (n : Nat) (r : InstRec) : State × Reply :=
  if r.custody ≠ .quarantine then (s, .plain .state)
  else if r.qcause = some .typeHold ∧ s.typeHeld r.type = true then (s, .plain .held)
  else ((s.move n r { cause := .clearQuarantine, custody := .unmeasured, loc := r.loc }).announce n, .plain .ok)

/-- CLEAR_QUARANTINE (R23). -/
def execClearQuarantine (tag : Byte) (body : List Byte) (s : State) : Host.Outcome State Fault Refusal :=
  hostCommand 0x0B tag body (withTool (fieldAt body 0 2) (fun s r => s.clearQuarantine (fieldAt body 0 2) r)) s

/-- RETIRE of a record that is neither AT_PRESETTER nor RETIRED (R24): handoff owed is cleared for LOADED and ISSUED and kept
otherwise; the order of its reports is the model's choice (log entry 57). -/
def State.retire (s : State) (n : Nat) (before : InstRec) : State :=
  let reserved := before.custody == .reserved
  let s := if reserved then s.releaseToQueue n false else s
  let s := match before.loc with
    | .station st _ => s.dropMagazine st n
    | .toStation st _ => s.dropMagazine st n
    | _ => s
  match s.tool n with
  | none => s
  | some r =>
    let atStation := before.custody = .loaded ∨ before.custody = .issued
    let s := s.transition n r { cause := .retire, custody := .retired, loc := .nowhere }
      (fun i => if atStation then { i with owed := false } else i)
    let s := s.dropPocket before.loc n
    let s := if before.custody = .issued then s.loseRequest before.link else s
    let s := (s.clearLatePicksOf n).afterRetired n
    if reserved then s.allocationPass else s

/-- RETIRE (R24). -/
def execRetire (tag : Byte) (body : List Byte) (s : State) : Host.Outcome State Fault Refusal :=
  hostCommand 0x0C tag body (withTool (fieldAt body 0 2) (fun s r =>
    if r.custody = .atPresetter ∨ r.custody = .retired then (s, .plain .state)
    else (s.retire (fieldAt body 0 2) r, .plain .ok))) s

/-- DELETE may take the record (R25). -/
def InstRec.deletable (r : InstRec) : Bool :=
  match r.custody, r.loc with
  | .retired, _ => true
  | .missing, _ => true
  | .unmeasured, .bench => true
  | _, _ => false

/-- DELETE of a record (R25); the order of the reports after its CUSTODY_CHANGE is the model's choice (log entry 68). -/
def State.deleteTool (s : State) (n : Nat) (r : InstRec) : State :=
  let s := (s.delTool n).report (.custodyChange n r.type (some r.custody) r.loc none .nowhere .delete none)
  (s.clearLatePicksOf n).afterRetired n

/-- DELETE (R25). -/
def execDelete (tag : Byte) (body : List Byte) (s : State) : Host.Outcome State Fault Refusal :=
  hostCommand 0x0D tag body (withTool (fieldAt body 0 2) (fun s r =>
    if r.deletable then (s.deleteTool (fieldAt body 0 2) r, .plain .ok) else (s, .plain .state))) s

/-! ### Reads -/

/-- READ_INSTANCE (R26). -/
def execReadInstance (tag : Byte) (body : List Byte) (s : State) : Host.Outcome State Fault Refusal :=
  hostCommand 0x0E tag body
    (withTool (fieldAt body 0 2) (fun s r => (s, .with .ok (.instRec (fieldAt body 0 2) r)))) s

/-- LIST_INSTANCES in its fields (R26); bits of the custody set that name no custody are not looked at (log entry 35). -/
def State.listInstances (s : State) (type set start : Nat) : Reply :=
  if 512 < type ∨ 2048 < start ∨ set % 8192 = 0 then .plain .range
  else if type ≠ 0 ∧ (s.type type).isNone = true then .plain .noSuch
  else
    let found := (s.trg.insts.filter (fun e => decide (start < e.1) && (decide (type = 0) || decide (e.2.type = type)) &&
      set.testBit (e.2.custody.code - 1))).map (·.1)
    .with .ok (.instList (found.take 100) (decide (100 < found.length)))

/-- LIST_INSTANCES (R26). -/
def execListInstances (tag : Byte) (body : List Byte) (s : State) : Host.Outcome State Fault Refusal :=
  readCommand 0x0F tag body (fun s => s.listInstances (fieldAt body 0 2) (fieldAt body 2 2) (fieldAt body 4 2)) s

/-! ### Regrinding -/

/-- REGRIND_OUT on a record (R128). -/
def State.regrindOut (s : State) (n : Nat) (r : InstRec) : State × Reply :=
  if r.custody ≠ .regrindDue then (s, .plain .state)
  else if s.atLimit r then (s, .plain .limit)
  else
    let s := s.move n r { cause := .regrindOut, custody := .atRegrind, loc := .offsite }
    ((s.departPocket r.loc n .regrind).leavePutaway n, .plain .ok)

/-- REGRIND_OUT (R128). -/
def execRegrindOut (tag : Byte) (body : List Byte) (s : State) : Host.Outcome State Fault Refusal :=
  hostCommand 0x30 tag body
    (whenRunning (withTool (fieldAt body 0 2) (fun s r => s.regrindOut (fieldAt body 0 2) r))) s

/-- The record that REGRIND_BACK takes back, before its custody change (R129). -/
def InstRec.reground (r : InstRec) (budget : Nat) : InstRec :=
  { r with marks := r.marks + 1, life := budget, warned := false, spent := false, meas := none }

/-- REGRIND_BACK on a record (R129). The offer to ISC and the NOT_TAKEN of a mark that still stands follow the report. -/
def State.regrindBack (s : State) (n : Nat) (r : InstRec) : State × Reply :=
  if r.custody ≠ .atRegrind then (s, .plain .state)
  else if s.atLimit r then (s, .plain .limit)
  else
    let budget := ((s.type r.type).map (·.budget)).getD r.life
    let s := s.move n (r.reground budget) { cause := .regrindBack, custody := .unmeasured, loc := .bench }
    ((s.announce n).settleMarks n, .plain .ok)

/-- REGRIND_BACK (R129). -/
def execRegrindBack (tag : Byte) (body : List Byte) (s : State) : Host.Outcome State Fault Refusal :=
  hostCommand 0x31 tag body
    (whenRunning (withTool (fieldAt body 0 2) (fun s r => s.regrindBack (fieldAt body 0 2) r))) s

end Sys2Proof.Machine
end

