-- ==== Sys2Proof/Machine/PocketCommands.lean ====
section
/-! DEFINITION. The commands of the crib: SET_CABINET (R30), SET_POCKETS (R31), LEARN_EMPTY (R35), SCAN_ONCE (R34), IDENTIFY (R44),
READ_POCKET and READ_CABINET (R45). -/

namespace Sys2Proof.Machine

/-- A value within a range, both ends included. -/
def within (lo hi n : Nat) : Bool := decide (lo ≤ n) && decide (n ≤ hi)

/-- A cabinet number (R28). -/
def cabinetNo (c : Nat) : Bool := within 1 12 c

/-- A pocket number (R28). -/
def pocketNo (p : Nat) : Bool := within 1 64 p

/-- The settings of SET_CABINET; none for a value out of range (R30). The codes of enabled, 0 no and 1 yes, are the model's choice
(log entry 69). -/
def cabinetFields (b : List Byte) : Option CabSettings :=
  let interval := fieldAt b 7 2
  let ok := cabinetNo (fieldAt b 0 1) && within 64 4096 (fieldAt b 1 2) && within 1 900 (fieldAt b 3 2) &&
    within 1 900 (fieldAt b 5 2) && decide (fieldAt b 5 2 < fieldAt b 3 2) && [50, 100, 200, 400].contains interval &&
    within 1 8 (fieldAt b 9 1) && within 0 1 (fieldAt b 10 1) && within 0 1 (fieldAt b 11 1)
  if ok then
    some
      { window := fieldAt b 1 2, presentDev := fieldAt b 3 2, absentDev := fieldAt b 5 2, interval := interval,
        debounce := fieldAt b 9 1, mode := if fieldAt b 10 1 = 0 then .auto else .single, enabled := decide (fieldAt b 11 1 = 1) }
  else none

/-- Accepted settings: at once on an idle channel, at the end of the pass otherwise (R30); they replace settings that still
wait (log entry 59, the model's choice). -/
def State.setCabinet (s : State) (c : Nat) (new : CabSettings) : State :=
  match (s.cab c).pass with
  | some _ => s.setCab c { s.cab c with pendingSettings := some new }
  | none =>
    let out := s.takeSettings c new
    if out.2 then out.1.restartBoundary c else out.1

/-- SET_CABINET (R30). -/
def execSetCabinet (tag : Byte) (body : List Byte) (s : State) : Host.Outcome State Fault Refusal :=
  hostCommand 0x10 tag body (fun s =>
    match cabinetFields body with
    | some new => (s.setCabinet (fieldAt body 0 1) new, .plain .ok)
    | none => (s, .plain .range)) s

/-- The enabled flag of a pocket is set (R31). -/
def Pocket.enable (p : Pocket) (on : Bool) : Pocket :=
  if on = p.enabled then p
  else if on then
    { p with
      enabled := true
      state := if p.tool.isSome then .occupied else .empty
      sensed := if p.baseline.isNone then .undecided else if p.tool.isSome then .present else .absent }
  else { p with enabled := false, state := .disabled, sensed := .undecided, run := 0 }

/-- A pocket that may not be disabled (R31). -/
def Pocket.busy (p : Pocket) : Bool :=
  p.tool.isSome || p.mark.isSome || p.state == .expectTake || p.state == .expectPlace

/-- SET_POCKETS on one pocket, with the free-pocket notice where R37 sends one. -/
def State.configurePocket (s : State) (c p : Nat) (enabled : Option Bool) (zone : Option Zone) : State :=
  let old := s.pocket c p
  let r := match enabled with
    | some on => old.enable on
    | none => old
  let r := match zone with
    | some z => { r with zone := z }
    | none => r
  let s := s.setPocket c p r
  if r.enabled != old.enabled || r.zone != old.zone then s.noticeIfFree c p else s

/-- SET_POCKETS in its fields (R31); the pockets by ascending number, each with its free-pocket notice before the next, is the
model's choice (log entry 81). -/
def State.setPockets (s : State) (c enabled zone : Nat) (pockets : List Nat) : State × Reply :=
  if (cabinetNo c && within 0 2 enabled && within 0 2 zone && !pockets.isEmpty && pockets.all pocketNo) = false then
    (s, .plain .range)
  else if enabled = 0 ∧ pockets.any (fun p => (s.pocket c p).busy) = true then (s, .plain .state)
  else
    let on := if enabled = 0 then some false else if enabled = 1 then some true else none
    let z : Option Zone := if zone = 0 then some .stock else if zone = 1 then some .hold else none
    ((asSet pockets).foldl (fun s p => s.configurePocket c p on z) s, .plain .ok)

/-- SET_POCKETS (R31). -/
def execSetPockets (tag : Byte) (body : List Byte) (s : State) : Host.Outcome State Fault Refusal :=
  hostCommand 0x11 tag body (fun s =>
    s.setPockets (fieldAt body 0 1) (fieldAt body 1 1) (fieldAt body 2 1) (listAt body 3)) s

/-- A learning pass of the cabinet is running or held (R35). -/
def Cabinet.learning (k : Cabinet) : Bool :=
  k.heldLearn.isSome ||
  (match k.pass with
   | some (.learn _ _ _ _ _ _) => true
   | _ => false)

/-- LEARN_EMPTY in its fields (R35). -/
def State.learnEmpty (s : State) (c : Nat) (pockets : List Nat) : State × Reply :=
  if (cabinetNo c && !pockets.isEmpty && pockets.all pocketNo) = false then (s, .plain .range)
  else if (s.cab c).learning then (s, .plain .busy)
  else if pockets.any (fun p => !(s.pocket c p).learnable) then (s, .plain .state)
  else
    let handle := s.svp.handle
    let s := s.takeHandle
    let reply : Reply := .with .accepted (.handle handle)
    match (s.cab c).pass with
    | none => (s.learnOn c handle (asSet pockets) [] [] [], reply)
    | some _ => (s.setCab c { s.cab c with heldLearn := some { handle := handle, pockets := asSet pockets } }, reply)

/-- LEARN_EMPTY (R35). -/
def execLearnEmpty (tag : Byte) (body : List Byte) (s : State) : Host.Outcome State Fault Refusal :=
  hostCommand 0x12 tag body (fun s => s.learnEmpty (fieldAt body 0 1) (listAt body 1)) s

/-- SCAN_ONCE in its field (R34): the range is tested before the mode. -/
def State.scanOnce (s : State) (c : Nat) : State × Reply :=
  if cabinetNo c = false then (s, .plain .range)
  else if s.running = false then (s, .plain .notInMode)
  else if (s.cab c).settings.enabled = false then (s, .plain .state)
  else if (s.cab c).pass.isSome || (s.cab c).heldLearn.isSome then (s, .plain .busy)
  else (s.takeHandle.startSingle c s.svp.handle, .with .accepted (.handle s.svp.handle))

/-- SCAN_ONCE (R34). -/
def execScanOnce (tag : Byte) (body : List Byte) (s : State) : Host.Outcome State Fault Refusal :=
  hostCommand 0x13 tag body (fun s => s.scanOnce (fieldAt body 0 1)) s

/-- IDENTIFY takes an instance in this custody and location (R44). -/
def InstRec.identifiable (r : InstRec) : Bool :=
  match r.custody, r.loc with
  | .missing, _ => true
  | .returning, _ => true
  | .staged, _ => true
  | .issued, .toBench => true
  | .unmeasured, .bench => true
  | _, _ => false

/-- The custody that IDENTIFY gives (R44). -/
def State.identifiedAs (s : State) (n : Nat) (r : InstRec) : Custody × Option QCause :=
  match r.custody with
  | .missing => (.quarantine, some .discrepancy)
  | .issued => s.placementOf n { r with custody := .returning }
  | _ => s.placementOf n r

/-- An accepted IDENTIFY (R44); for an ISSUED instance, HOE's cancelled TOOL_DATA come before what ISC reports (log entry 93, the
model's choice). -/
def State.identify (s : State) (n : Nat) (r : InstRec) (c p : Nat) : State :=
  let goal := s.identifiedAs n r
  let s := s.leavePutaway n
  let s := s.move n r { cause := .identify, custody := goal.1, loc := .pocket c p, qcause := goal.2 }
  let s := s.setPocket c p { s.pocket c p with tool := some n, state := .occupied }
  let s := if r.custody = .issued then (s.leftIssued n).loseRequest r.link else s
  s.announce n

/-- IDENTIFY (R44). -/
def execIdentify (tag : Byte) (body : List Byte) (s : State) : Host.Outcome State Fault Refusal :=
  hostCommand 0x14 tag body (whenRunning (fun s =>
    let n := fieldAt body 0 2
    let c := fieldAt body 2 1
    let p := fieldAt body 3 1
    if (toolNo n && cabinetNo c && pocketNo p) = false then (s, .plain .range)
    else
      match s.tool n with
      | none => (s, .plain .noSuch)
      | some r =>
        if (s.pocket c p).state = .unknown ∧ r.identifiable = true ∧ s.vacant n (.pocket c p) = true then
          (s.identify n r c p, .plain .ok)
        else (s, .plain .state))) s

/-- READ_POCKET (R45). -/
def execReadPocket (tag : Byte) (body : List Byte) (s : State) : Host.Outcome State Fault Refusal :=
  readCommand 0x15 tag body (fun s =>
    let c := fieldAt body 0 1
    let p := fieldAt body 1 1
    if cabinetNo c && pocketNo p then .with .ok (.pocket c p (s.pocket c p) (s.pocket c p).sensing) else .plain .range) s

/-- READ_CABINET (R45): settings, channel, held learning pass, and the pockets in each state in the order of R28. -/
def execReadCabinet (tag : Byte) (body : List Byte) (s : State) : Host.Outcome State Fault Refusal :=
  readCommand 0x16 tag body (fun s =>
    let c := fieldAt body 0 1
    if cabinetNo c then
      .with .ok (.cabinet c (s.cab c)
        ([PocketState.disabled, .empty, .occupied, .expectTake, .expectPlace, .unknown, .fault].map (fun st => s.pocketsIn c st)))
    else .plain .range) s

end Sys2Proof.Machine
end

