-- ==== Sys2Proof/Machine/IssueCommands.lean ====
section
/-! DEFINITION. The commands of issue: ISSUE (R51), CANCEL (R66), HAND_OUT (R60), BENCH_RETURN (R72), SET_ISSUE (R74),
NEXT_TO_MEASURE (R73), READ_REQUEST, LIST_REQUESTS and READ_PUTAWAY (R75). -/

namespace Sys2Proof.Machine

/-- A station number (00_scope.md, Capacities). -/
def stationNo (n : Nat) : Bool := within 1 32 n

/-- The request that ISSUE's fields name; none for a value out of range (R51, 11.3). -/
def State.issueFields (s : State) (b : List Byte) : Option NewRequest :=
  let st := fieldAt b 2 1
  let place := fieldAt b 3 1
  let life := fieldAt b 10 3
  let minLife := if flagAt b 5 1 then some life else none
  match priorityOf (fieldAt b 4 1) with
  | none => none
  | some prio =>
    if typeNo (fieldAt b 0 2) && (decide (st = 0) || (stationNo st && (s.station st).hasPlace place)) &&
        (minLife.isNone || within 1 4000000 life) then
      some
        { origin := .supervisor, type := fieldAt b 0 2, dest := if st = 0 then .bench else .station st place, prio := prio,
          neededBy := if flagAt b 5 0 then some (fieldAt b 6 4) else none, minLife := minLife }
    else none

/-- The live request that a new one merges into: none for the bench (R49, R51). -/
def State.mergeTarget (s : State) (q : NewRequest) : Option Request :=
  match q.dest with
  | .station st place => s.requestFor st place q.type
  | .bench => none

/-- ISSUE of a request in range (R51). -/
def State.issue (s : State) (q : NewRequest) : State × Reply :=
  if (s.type q.type).isNone then (s, .plain .noSuch)
  else
    match s.mergeTarget q with
    | some r => (s.merge r q, .with .accepted (.requestHandle r.number true))
    | none =>
      match s.enter q with
      | (s', .entered number) => (s', .with .accepted (.requestHandle number false))
      | (s', _) => (s', .plain .full)

/-- ISSUE (R51). -/
def execIssue (tag : Byte) (body : List Byte) (s : State) : Host.Outcome State Fault Refusal :=
  hostCommand 0x18 tag body (whenRunning (fun s =>
    match s.issueFields body with
    | none => (s, .plain .range)
    | some q => s.issue q)) s

/-- A command on one live request: range and presence of its number (R60, R66). -/
def withRequest (n : Nat) (f : State → Request → State × Reply) (s : State) : State × Reply :=
  if within 1 255 n = false then (s, .plain .range)
  else
    match s.request n with
    | none => (s, .plain .noSuch)
    | some r => f s r

/-- CANCEL (R66). -/
def execCancel (tag : Byte) (body : List Byte) (s : State) : Host.Outcome State Fault Refusal :=
  hostCommand 0x19 tag body (whenRunning (withRequest (fieldAt body 0 1) (fun s r =>
    if r.state = .issued then (s, .plain .state) else (s.cancelRequest r .cancelledHost, .plain .ok)))) s

/-- HAND_OUT on a live request (R60). -/
def State.handOut (s : State) (r : Request) : State × Reply :=
  match r.state, r.tool with
  | .reserved, some n =>
    match s.tool n with
    | none => (s, .plain .state)
    | some i =>
      if i.loc = .bench then
        let goal : Location := match r.dest with
          | .station st place => .toStation st place
          | .bench => .toBench
        let s := s.move n i { cause := .handOut, custody := .issued, loc := goal }
        let r := { r with state := .issued, reserveTick := none }
        ((s.changeRequest r .handOut).afterPick r n, .plain .ok)
      else (s, .plain .state)
  | _, _ => (s, .plain .state)

/-- HAND_OUT (R60). -/
def execHandOut (tag : Byte) (body : List Byte) (s : State) : Host.Outcome State Fault Refusal :=
  hostCommand 0x1A tag body (whenRunning (withRequest (fieldAt body 0 1) (fun s r => s.handOut r))) s

/-- BENCH_RETURN on a record (R72); HOE's cancelled TOOL_DATA come before what ISC reports (log entry 93, the model's choice). -/
def State.benchReturn (s : State) (n : Nat) (r : InstRec) : State × Reply :=
  if r.custody = .issued ∧ r.loc = .toBench then
    let s := s.move n r { cause := .benchReturn, custody := .returning, loc := .backBench }
    (((s.leftIssued n).loseRequest r.link).announce n, .plain .ok)
  else (s, .plain .state)

/-- BENCH_RETURN (R72). -/
def execBenchReturn (tag : Byte) (body : List Byte) (s : State) : Host.Outcome State Fault Refusal :=
  hostCommand 0x1B tag body
    (whenRunning (withTool (fieldAt body 0 2) (fun s r => s.benchReturn (fieldAt body 0 2) r))) s

/-- Reservations and assignments already past the settings time out at once (R74). -/
def State.fireTimings (s : State) : State :=
  let s := (s.isc.queue.map (·.number)).foldl (fun s number => s.firePick number) s
  (s.isc.assigned.map (·.1)).foldl (fun s n => s.firePutaway n) s

/-- SET_ISSUE in its fields (R74). -/
def State.setIssue (s : State) (pick grace putaway : Option Nat) : State × Reply :=
  let fits := fun (lo hi : Nat) (v : Option Nat) => match v with
    | some x => within lo hi x
    | none => true
  if fits 10 600 pick && fits 0 3600 grace && fits 60 1800 putaway then
    ((s.setIsc { s.isc with
        pickTimeout := pick.getD s.isc.pickTimeout
        expiryGrace := grace.getD s.isc.expiryGrace
        putawayTimeout := putaway.getD s.isc.putawayTimeout }).fireTimings, .plain .ok)
  else (s, .plain .range)

/-- SET_ISSUE (R74). -/
def execSetIssue (tag : Byte) (body : List Byte) (s : State) : Host.Outcome State Fault Refusal :=
  hostCommand 0x1C tag body (fun s =>
    s.setIssue (if flagAt body 0 0 then some (fieldAt body 1 2) else none)
      (if flagAt body 0 1 then some (fieldAt body 3 2) else none)
      (if flagAt body 0 2 then some (fieldAt body 5 2) else none)) s

/-- The WAITING_STOCK request that ranks a type: its first in service order (R73). -/
def State.rankingRequest (s : State) (type : Nat) : Option Request :=
  s.isc.queue.find? (fun r => r.type == type && r.state == .waitingStock)

/-- The worklist's key: priority and needed-by of the ranking request, types without one last, the bench first (R73). -/
def State.worklistKey (s : State) (i : InstRec) : Nat :=
  let rank := match s.rankingRequest i.type with
    | some r => r.prio.rank * 8589934592 + r.neededBy.getD 4294967296
    | none => 4 * 8589934592
  rank * 2 + (if i.loc = .bench then 0 else 1)

/-- The presetting worklist (R73): the key, then the lowest number. -/
def State.worklist (s : State) : List (Nat × InstRec) :=
  sortBy (fun e => s.worklistKey e.2)
    (s.trg.insts.filter (fun e => e.2.custody == .unmeasured && !s.typeHeld e.2.type))

/-- NEXT_TO_MEASURE (R73). -/
def execNextToMeasure (tag : Byte) (body : List Byte) (s : State) : Host.Outcome State Fault Refusal :=
  readCommand 0x1D tag body (fun s =>
    .with .ok (.worklist ((s.worklist.take 8).map
      (fun e => (e.1, e.2.type, e.2.loc, (s.rankingRequest e.2.type).map (·.number)))))) s

/-- READ_REQUEST (R75). -/
def execReadRequest (tag : Byte) (body : List Byte) (s : State) : Host.Outcome State Fault Refusal :=
  hostCommand 0x1E tag body (withRequest (fieldAt body 0 1) (fun s r => (s, .with .ok (.request r)))) s

/-- LIST_REQUESTS (R75). -/
def execListRequests (tag : Byte) (body : List Byte) (s : State) : Host.Outcome State Fault Refusal :=
  readCommand 0x1F tag body (fun s =>
    let position := fieldAt body 0 1
    if within 1 64 position then
      .with .ok (.requests s.isc.queue.length ((s.isc.queue.drop (position - 1)).take 8))
    else .plain .range) s

/-- Where an instance's put-away stands (R75), with the zone decided at the assignment (log entry 62, the model's choice). -/
def State.putawayView (s : State) (n : Nat) : PutawayView :=
  match tget s.isc.assigned n with
  | some a => .assigned a ((a.tick : Int) + s.isc.putawayTimeout * 1000 - s.tick)
  | none =>
    match s.waitingOrder.findIdx? (fun k => k == n) with
    | some i => .waiting (i + 1)
    | none => .neither

/-- The late-pick memory that names an instance: cabinet, pocket, ticks remaining (R75). -/
def State.latePickView (s : State) (n : Nat) : Option (Nat × Nat × Int) :=
  (s.isc.latePicks.find? (fun e => e.2.tool == n)).map
    (fun e => (keyCabinet e.1, keyPocket e.1, (e.2.endTick : Int) - s.tick))

/-- READ_PUTAWAY (R75); an absent instance has neither (log entry 61, the model's choice). -/
def execReadPutaway (tag : Byte) (body : List Byte) (s : State) : Host.Outcome State Fault Refusal :=
  readCommand 0x20 tag body (fun s =>
    let n := fieldAt body 0 2
    if toolNo n then .with .ok (.putaway (s.putawayView n) (s.latePickView n)) else .plain .range) s

end Sys2Proof.Machine
end

