-- ==== Sys2Proof/Machine/Clock.lean ====
section
/-! DEFINITION. HCK: hall time and ticks (R176, R177), the path checkers (R178, R179), path selection (R180), disciplining (R181),
SET_TIME and SET_CLOCK (R182, R183), and what a RESET carries over (R187). -/

namespace Sys2Proof.Machine

/-- Hall time one millisecond later (R177). -/
def HallTime.advance (t : HallTime) : HallTime :=
  if t.ms + 1 < 1000 then { t with ms := t.ms + 1 } else { sec := (t.sec + 1) % 4294967296, ms := 0 }

/-- One millisecond of the part's time base (R176, R177). Above its range of 2^48 − 1, which no part reaches in its service life, the
tick count counts on (log entry 92, the model's choice). -/
def Hck.elapse (h : Hck) : Hck := { h with tick := h.tick + 1, hall := h.hall.advance }

/-- Hall time as one number of milliseconds. -/
def HallTime.millis (t : HallTime) : Int := (t.sec : Int) * 1000 + t.ms

/-! ### Path checkers -/

/-- Whether a step of a length is valid under a tolerance (R178). -/
def stepValid (tol : Nat) (length : Int) : Bool := decide (1000 - (tol : Int) ≤ length) && decide (length ≤ 1000 + (tol : Int))

/-- A counted step updates the runs and the status (R179). -/
def Path.count (p : Path) (valid : Bool) : Path :=
  let p := if valid then { p with validRun := min (p.validRun + 1) 8, invalidRun := 0 }
    else { p with invalidRun := min (p.invalidRun + 1) 3, validRun := 0 }
  { p with
    status :=
      match p.status with
      | .qualifying => if 2 ≤ p.validRun then .usable else .qualifying
      | .usable => if 3 ≤ p.invalidRun then .lost else .usable
      | .lost => if 8 ≤ p.validRun then .usable else .lost }

/-- The step deadline that follows a tick (R178, R183). -/
def deadlineAfter (tol : Nat) (base : Int) : Int := base + 1000 + tol + 1

/-- A pulse at a checker: a reference, or a counted step (R178). -/
def Path.pulse (p : Path) (tol tick : Nat) : Path :=
  let p := match p.reference with
    | none => p
    | some r =>
      let length : Int := tick - r
      ({ p with lastStep := some (.measured length (stepValid tol length)) } : Path).count (stepValid tol length)
  { p with reference := some tick, base := tick, deadline := deadlineAfter tol tick }

/-- Whether the step that a pulse ends is valid (R178). -/
def Path.validAt (p : Path) (tol tick : Nat) : Bool :=
  match p.reference with
  | none => false
  | some r => stepValid tol (tick - r)

/-- A step deadline reached without a pulse (R178). -/
def Path.missed (p : Path) (tol tick : Nat) : Path :=
  let p := ({ p with lastStep := some .missing } : Path).count false
  { p with reference := none, base := tick, deadline := deadlineAfter tol tick }

/-! ### Selection -/

/-- The path selection once hall time has been set (R180); UNSET stands for the UNSET of a SET_TIME. -/
def selectPath (before : TimeState) (primary secondary revertive : Bool) : TimeState :=
  match before with
  | .lockedSecondary =>
    if primary && revertive then .lockedPrimary
    else if secondary then .lockedSecondary
    else if primary then .lockedPrimary
    else .freeRun
  | _ => if primary then .lockedPrimary else if secondary then .lockedSecondary else .freeRun

/-- The state disciplines hall time by pulses (R180). -/
def TimeState.locked (t : TimeState) : Bool :=
  match t with
  | .lockedPrimary => true
  | .lockedSecondary => true
  | _ => false

/-- The TIME_STATE report of an event (R184). -/
def State.reportTime (s : State) (before : TimeState) (diff : Option Int) (cause : TimeCause) : State :=
  s.report (.timeState before s.hck.state s.hck.primary.status s.hck.secondary.status diff cause)

/-- The time state after a selection; a lock owes the shift of its first disciplining pulse (R180, R184). -/
def Hck.selected (h : Hck) : Hck :=
  let after := selectPath h.state (h.primary.status == .usable) (h.secondary.status == .usable) h.revertive
  if after = h.state then h else { h with state := after, shiftOwed := after.locked }

/-- A SET_TIME takes effect: hall time, its report, the new-second notice (R182). -/
def State.timeTakes (s : State) (second : Nat) (lastDiscipline : Option Int) : State :=
  let before := s.hck.hall
  let s := s.setHck { s.hck with hall := ⟨second, 0⟩, setPending := none, lastDiscipline := lastDiscipline }
  (s.reportTime s.hck.state (some (s.hck.hall.millis - before.millis)) .setTime).expiryTest

/-- A pending SET_TIME takes effect at a change to FREE_RUN (R182). -/
def State.settlePending (s : State) : State :=
  match s.hck.state, s.hck.setPending with
  | .freeRun, some v => s.timeTakes v none
  | _, _ => s

/-- The path selection, reported under a cause when `always` or when the state changes (R180, R184). In UNSET the state does
not lock. A pending SET_TIME that a change to FREE_RUN settles comes after that report, which shows the hall time before it (log
entry 84, the model's choice). -/
def State.selection (s : State) (cause : TimeCause) (always : Bool) : State :=
  let before := s.hck.state
  let s := if before = .unset then s else s.setHck s.hck.selected
  let s := if always || s.hck.state != before then s.reportTime before none cause else s
  if s.hck.state != before then s.settlePending else s

/-- A checker's record after a counted step; a change of status is reported and leads to the selection (R179). -/
def State.stepPath (s : State) (l : PulseLine) (p : Path) : State :=
  let before := (s.path l).status
  let s := s.setPath l p
  if p.status = before then s else s.selection .path true

/-! ### Disciplining -/

/-- The path that disciplines hall time (R181). -/
def TimeState.follows (t : TimeState) (l : PulseLine) : Bool :=
  match t, l with
  | .lockedPrimary, .primary => true
  | .lockedSecondary, .secondary => true
  | _, _ => false

/-- Hall time rounded to the nearest whole second (R181). -/
def HallTime.rounded (t : HallTime) : HallTime :=
  if t.ms < 500 then { t with ms := 0 } else { sec := (t.sec + 1) % 4294967296, ms := 0 }

/-- How far the rounding moves hall time (R184). -/
def HallTime.shift (t : HallTime) : Int := if t.ms < 500 then -(t.ms : Int) else 1000 - t.ms

/-- The report of a lock's first disciplining pulse (R184). -/
def State.reportShift (s : State) (shift : Int) : State :=
  if s.hck.shiftOwed then
    (s.setHck { s.hck with shiftOwed := false }).reportTime s.hck.state (some shift) .path
  else s

/-- A valid pulse on the selected path disciplines hall time, or applies a pending SET_TIME (R181, R182). -/
def State.discipline (s : State) : State :=
  let t := s.hck.hall
  match s.hck.setPending with
  | some v =>
    let s := s.setHck { s.hck with hall := ⟨v, 0⟩ }
    let s := s.reportShift ((⟨v, 0⟩ : HallTime).millis - t.millis)
    (s.setHck { s.hck with hall := t }).timeTakes v (some s.tick)
  | none =>
    let s := (s.setHck { s.hck with hall := t.rounded, lastDiscipline := some s.tick }).reportShift t.shift
    if t.rounded.sec = t.sec then s else s.expiryTest

/-- A pulse on a line (R178 to R181). -/
def State.pulse (s : State) (l : PulseLine) : State :=
  let p := s.path l
  let valid := p.validAt s.hck.tol s.tick
  let s := s.stepPath l (p.pulse s.hck.tol s.tick)
  if valid && s.hck.state.follows l then s.discipline else s

/-- The tick count has reached the step deadline of a checker (R178). -/
def State.deadlineDue (s : State) (l : PulseLine) : Bool := decide ((s.path l).deadline ≤ s.tick)

/-- A step deadline, where it has been reached (R178). -/
def State.fireDeadline (s : State) (l : PulseLine) : State :=
  if s.deadlineDue l then s.stepPath l ((s.path l).missed s.hck.tol s.tick) else s

/-! ### Reading -/

/-- A checker as READ_TIME returns it (R186). -/
def Path.view (p : Path) (tick : Nat) : PathView :=
  { status := p.status, sinceReference := p.reference.map (fun r => (tick : Int) - r), validRun := p.validRun,
    invalidRun := p.invalidRun, lastStep := p.lastStep }

/-- HCK as READ_TIME returns it (R186). -/
def Hck.view (h : Hck) : TimeView :=
  { hall := h.hall, tick := h.tick, state := h.state, setPending := h.setPending, tol := h.tol, revertive := h.revertive,
    primary := h.primary.view h.tick, secondary := h.secondary.view h.tick,
    sinceDiscipline := h.lastDiscipline.map (fun t => (h.tick : Int) - t) }

/-! ### Settings and RESET -/

/-- SET_TIME in range of its field (R182): whether it is held pending. -/
def State.setTime (s : State) (second : Nat) : State × Bool :=
  if s.hck.state.locked then (s.setHck { s.hck with setPending := some second }, true)
  else
    let before := s.hck.state
    let s := s.timeTakes second none
    if before = .unset then
      let s := s.setHck s.hck.selected
      (s.reportTime .unset none .state, false)
    else (s, false)

/-- A checker's deadline under a new tolerance; one already passed counts at once (R183, log entry 32). -/
def State.retime (s : State) (l : PulseLine) : State :=
  let p := s.path l
  (s.setPath l { p with deadline := deadlineAfter s.hck.tol p.base }).fireDeadline l

/-- A new tolerance (R183); PRIMARY before SECONDARY is the model's choice (log entry 66). -/
def State.setTolerance (s : State) (tol : Nat) : State :=
  ((s.setHck { s.hck with tol := tol }).retime .primary).retime .secondary

/-- The revertive setting; a change leads to the selection (R180, R183). -/
def State.setRevertive (s : State) (revertive : Bool) : State :=
  if revertive = s.hck.revertive then s else (s.setHck { s.hck with revertive := revertive }).selection .state false

/-- A checker carried across the change of tick origin (R187). -/
def Path.rebased (p : Path) (tick : Nat) : Path :=
  { p with reference := p.reference.map (fun r => r - tick), deadline := p.deadline - tick, base := p.base - tick }

/-- HCK after a RESET (R187). -/
def Hck.afterReset (h : Hck) : Hck :=
  { h with
    tick := 0
    setPending := none
    primary := h.primary.rebased h.tick
    secondary := h.secondary.rebased h.tick
    lastDiscipline := h.lastDiscipline.map (fun t => t - h.tick) }

end Sys2Proof.Machine
end

