-- ==== Sys2Proof/Machine/Links.lean ====
section
/-! DEFINITION. SLC: the search (R136), framing and judging (R137, R138, R141), taking blocks (R142, R147, R148), sending (R144),
failures (R146), and the changes of link state (R135, R139, R149, R150). -/

namespace Sys2Proof.Machine

/-! ### Changes of link state -/

/-- The link record is rewritten. -/
def State.modLink (s : State) (n : Nat) (f : Link → Link) : State := s.setLink n (f (s.link n))

/-- What every departure from a running state drops: the held block, verdicts not returned, outstanding entries (R150). -/
def Link.stopped (l : Link) : Link :=
  if l.state.running then { l with held := none, returns := [], outstanding := [] } else l

/-- A change of link state: the record, LINK_STATE with the BAD count before the change empties the window (log entry 77, the model's
choice), then HOE's link-stopped or link-running notice (R140, R150). -/
def State.changeLink (s : State) (n : Nat) (after : LinkState) (cause : LinkCause) (f : Link → Link) : State :=
  let l := s.link n
  let s := s.setLink n (f { l.stopped with state := after })
  let s := s.report (.linkState n l.state after cause l.bad)
  if l.state.running then s.linkStopped n else if after.running then s.linkStarted n else s

/-- What SEARCHING starts from: no expected position, no misses, no held block, no acquisition (R151, log entry 24). -/
def Link.unframed (l : Link) : Link :=
  { l with expected := none, misses := 0, held := none, acqRun := 0, acqCount := 0 }

/-- The link searches for its alignment afresh (R137, R149, R151). -/
def State.toSearching (s : State) (n : Nat) (cause : LinkCause) : State := s.changeLink n .searching cause Link.unframed

/-- The link goes from ACQUIRING to ECHO: no held block, no verdicts, an empty window (R139); the
acquisition counters stand (log entry 65, the model's choice). -/
def State.toEcho (s : State) (n : Nat) (cause : LinkCause) : State :=
  s.changeLink n .echo cause (fun l => { l with held := none, returns := [], density := [] })

/-- The link has been silent for 100 ms (R135). -/
def State.silentLink (s : State) (n : Nat) : Bool :=
  let l := s.link n
  l.state != .down &&
  (match l.lastByte with
   | some t => decide (t + 100 ≤ s.tick)
   | none => false)

/-- The link becomes DOWN, where it has been silent (R135). -/
def State.fireLinkSilence (s : State) (n : Nat) : State :=
  if s.silentLink n then
    s.changeLink n .down .silence (fun l => { l.unframed with returns := [], density := [], applied := [], rx := [] })
  else s

/-- The acquisition count has reached 200 with the run below 8 (R139). -/
def State.acquireDue (s : State) (n : Nat) : Bool :=
  let l := s.link n
  l.state == .acquiring && decide (200 ≤ l.acqCount) && decide (l.acqRun < 8)

/-- The acquisition timeout by the check policy, where the count has run out (R139). -/
def State.fireAcquire (s : State) (n : Nat) : State :=
  if s.acquireDue n then
    match (s.link n).policy with
    | .checkOnly => s.changeLink n .acquiring .acquireTimeout (fun l => { l with acqRun := 0, acqCount := 0 })
    | _ => s.toEcho n .acquireTimeout
  else s

/-! ### Verdicts and failures -/

/-- A list without its first element that a test picks. -/
def dropFirst (p : α → Bool) (xs : List α) : List α :=
  match xs with
  | [] => []
  | x :: rest => if p x then rest else x :: dropFirst p rest

/-- A verdict joins the return list; a full list loses its oldest GOOD verdict for a FILL block, or its oldest (R143). -/
def Link.addVerdict (l : Link) (v : ReturnVerdict) : Link :=
  let spare := fun (x : ReturnVerdict) => x.good && x.kind == .fill
  let kept :=
    if l.returns.length < 4 then l.returns
    else if l.returns.any spare then dropFirst spare l.returns
    else l.returns.drop 1
  { l with returns := kept ++ [v] }

/-- A judgement enters the density window, which keeps 256 (R149). -/
def Link.addDensity (l : Link) (good : Bool) : Link :=
  let d := l.density ++ [good]
  { l with density := d.drop (d.length - 256) }

/-- More than 200 BAD judgements make a running link SEARCHING (R149). -/
def State.densityTest (s : State) (n : Nat) : State :=
  if (s.link n).state.running && decide (200 < (s.link n).bad) then s.toSearching n .errorDensity else s

/-- An outstanding entry fails (R146). -/
def State.failEntry (s : State) (n : Nat) (e : Outstanding) : State :=
  if e.failures + 1 ≤ 3 then
    s.modLink n (fun l => { l with
      outstanding := l.outstanding.map (fun x => if x = e then { x with failures := x.failures + 1, resend := true } else x) })
  else
    let s := s.modLink n (fun l => { l with outstanding := l.outstanding.filter (fun x => x ≠ e) })
    match e.origin with
    | .transaction id => s.sendFailed n id
    | .reply => s

/-- An outstanding entry is confirmed (R145). -/
def State.confirmEntry' (s : State) (n : Nat) (e : Outstanding) : State :=
  let s := s.modLink n (fun l => { l with outstanding := l.outstanding.filter (fun x => x ≠ e) })
  match e.origin with
  | .transaction id => s.delivered n id
  | .reply => s

/-- The entry last sent at a train position, not awaiting resend (R145). -/
def Link.entryAt (l : Link) (position : Nat) : Option Outstanding :=
  l.outstanding.find? (fun e => !e.resend && decide (e.sent % 8 = position))

/-- A station's verdict settles the entry it names (R145). -/
def State.settleVerdict (s : State) (n position : Nat) (good : Bool) : State :=
  match (s.link n).entryAt position with
  | some e => if good then s.confirmEntry' n e else s.failEntry n e
  | none => s

/-- The verdict field of a block: the position judged and GOOD, if the valid flag is set (11.4). -/
def blockVerdict (b : List Byte) : Option (Nat × Bool) :=
  if flagAt b 4 7 then some (fieldAt b 4 1 % 8, flagAt b 4 6) else none

/-- A DATA block is taken: a repeat, or a new message for HOE (R142). -/
def State.takeData (s : State) (n : Nat) (b : List Byte) : State :=
  let message := fieldAt b 5 1
  let l := s.link n
  if l.applied.contains message then s
  else
    let a := l.applied ++ [message]
    (s.setLink n { l with applied := a.drop (a.length - 8) }).stationMessage n message (blockBody b)

/-- A block judged GOOD in CHECKED is taken: its verdict field, then its kind (R142). -/
def State.takeChecked (s : State) (n : Nat) (b : List Byte) : State :=
  let s := match blockVerdict b with
    | some v => s.settleVerdict n v.1 v.2
    | none => s
  match blockKindOf b with
  | .data => s.takeData n b
  | _ => s

/-- The outcome of an ECHO block against the outstanding entry (R147): what becomes of the entry, and the judgement. -/
def State.judgeEcho (s : State) (n : Nat) (b : List Byte) : State × Bool :=
  match (s.link n).outstanding with
  | e :: _ =>
    if e.message = fieldAt b 5 1 then
      if e.body = blockBody b then (s.confirmEntry' n e, true) else (s.failEntry n e, false)
    else (s, false)
  | [] => (s, false)

/-- A well-formed block in ECHO: its verdict field, then its kind (R147, R148). -/
def State.takeEcho (s : State) (n : Nat) (b : List Byte) : State :=
  let s := match blockVerdict b, (s.link n).held with
    | some v, some h =>
      if (h.echoed.map (fun p => p % 8)) = some v.1 then
        let s := s.modLink n (fun l => { l with held := none })
        if v.2 then s.takeData n h.bytes else s
      else s
    | _, _ => s
  let s := match blockKindOf b with
    | .fill => s.modLink n (fun l => l.addDensity true)
    | .data => s.modLink n (fun l => ({ l with held := some { bytes := b, echoed := none } } : Link).addDensity true)
    | .echo =>
      let out := s.judgeEcho n b
      out.1.modLink n (fun l =>
        (l.addVerdict { position := blockPosition b, good := out.2, kind := .echo }).addDensity out.2)
  s.densityTest n

/-! ### Incoming block positions -/

/-- The opener stands at the head of the bytes (11.4). -/
def openerAt (b : List Byte) : Bool := b.take 2 == [0xC3, 0x3C]

/-- The block position is well-formed (R137). -/
def wellFormedBlock (n : Nat) (expected : Option Nat) (b : List Byte) : Bool :=
  openerAt b && decide (fieldAt b 2 1 = n) && decide (some (blockPosition b) = expected)

/-- The last station number seen follows every opener-bearing block (R134). -/
def Link.seeing (l : Link) (b : List Byte) : Link :=
  if openerAt b ∧ 3 ≤ b.length ∧ 1 ≤ fieldAt b 2 1 ∧ fieldAt b 2 1 ≤ 32 then { l with lastSeen := some (fieldAt b 2 1) } else l

/-- A judgement in ACQUIRING: count and run (R138). -/
def Link.acquired (l : Link) (ok : Bool) : Link :=
  { l with acqCount := min (l.acqCount + 1) 200, acqRun := if ok then l.acqRun + 1 else 0 }

/-- The held block's judgement enters the window or the acquisition, and its verdict joins the return list (R138, R141). -/
def Link.judgeHeld (l : Link) (h : HeldBlock) (ok : Bool) : Link :=
  let kind := blockKindOf h.bytes
  match l.state with
  | .acquiring => (l.acquired ok).addVerdict { position := blockPosition h.bytes, good := ok && kind == .fill, kind := kind }
  | _ => (l.addDensity ok).addVerdict { position := blockPosition h.bytes, good := ok, kind := kind }

/-- A block that is not well-formed is judged BAD at the position expected (R137, log entry 22). -/
def Link.judgeBroken (l : Link) (b : List Byte) (position : Nat) : Link :=
  match l.state with
  | .acquiring => (l.acquired false).addVerdict { position := position, good := false, kind := blockKindOf b }
  | .checked => (l.addDensity false).addVerdict { position := position, good := false, kind := blockKindOf b }
  | _ => l.addDensity false

/-- A block position that is not well-formed (R137). -/
def State.brokenBlock (s : State) (n position : Nat) (b : List Byte) : State :=
  let s := match (s.link n).state, (s.link n).held with
    | .echo, _ => s
    | _, some h => (s.modLink n (fun l => { l.judgeHeld h false with held := none })).densityTest n
    | _, none => s
  if (s.link n).state = .searching then s
  else
    let s := s.modLink n (fun l => ({ l with misses := l.misses + 1 } : Link).judgeBroken b position)
    if 3 ≤ (s.link n).misses then s.toSearching n .framingLost else s.densityTest n

/-- A well-formed block position in ACQUIRING or CHECKED (R138, R141). -/
def State.goodBlock (s : State) (n : Nat) (b : List Byte) : State :=
  let l := { s.link n with misses := 0 }
  let fresh : HeldBlock := { bytes := b, echoed := none }
  match l.held with
  | none => s.setLink n { l with held := some fresh }
  | some h =>
    let ok := decide (fieldAt b 30 2 = (crc16 h.bytes).toNat)
    let l' := { l.judgeHeld h ok with held := some fresh }
    match l.state with
    | .acquiring =>
      let s := s.setLink n l'
      if 8 ≤ l'.acqRun then s.changeLink n .checked .acquired (fun l => { l with density := [] }) else s
    | _ =>
      let s := (s.setLink n l').densityTest n
      if ok then s.takeChecked n h.bytes else s

/-- A block position of 32 bytes is taken in ACQUIRING, CHECKED or ECHO (R137). An acquisition timeout that stands is taken
first (log entry 25). -/
def State.takeBlock (s : State) (n : Nat) (b : List Byte) : State :=
  let s := s.fireAcquire n
  let l := s.link n
  let expected := l.expected
  let s := s.setLink n ({ l with expected := expected.map (fun e => (e + 1) % 8) } : Link)
  let s := s.modLink n (fun l => l.seeing b)
  if wellFormedBlock n expected b then
    match l.state with
    | .echo => (s.modLink n (fun l => { l with misses := 0 })).takeEcho n b
    | _ => s.goodBlock n b
  else s.brokenBlock n (expected.getD 0) b

/-! ### The search -/

/-- How a search stands at the head of the bytes (R136). -/
inductive Search where
  | wait
  | failed
  | aligned
deriving DecidableEq, Repr

/-- One of the three blocks of a candidate: opener, the link's number, and the position that follows (R136). -/
def markOk (n position : Nat) (b : List Byte) : Bool :=
  openerAt b && decide (fieldAt b 2 1 = n) && decide (blockPosition b = position)

/-- The candidate at the head of the bytes (R136): it fails as soon as what has been received fails, and aligns when its third
block is whole (log entry 23). -/
def searchAt (n : Nat) (rx : List Byte) : Search :=
  let first := blockPosition rx
  if (rx.take 2) ≠ ([0xC3, 0x3C] : List Byte).take rx.length then .failed
  else if rx.length < 4 then .wait
  else if markOk n first rx = false then .failed
  else if rx.length < 36 then .wait
  else if markOk n ((first + 1) % 8) (rx.drop 32) = false then .failed
  else if rx.length < 68 then .wait
  else if markOk n ((first + 2) % 8) (rx.drop 64) = false then .failed
  else if rx.length < 96 then .wait
  else .aligned

/-- Alignment: ACQUIRING, or ECHO under ECHO_ONLY with the third block received in ECHO (R136). -/
def State.align (s : State) (n : Nat) : State :=
  let l := s.link n
  let third := (l.rx.drop 64).take 32
  let s := s.setLink n { l with rx := l.rx.drop 96 }
  let framed := fun (l : Link) =>
    ({ l with expected := some ((blockPosition third + 1) % 8), misses := 0, acqRun := 0, acqCount := 0, density := [],
              held := none } : Link)
  match l.policy with
  | .echoOnly => (s.changeLink n .echo .aligned framed).takeEcho n third
  | _ => s.changeLink n .acquiring .aligned (fun l => { framed l with held := some { bytes := third, echoed := none } })

/-- The bytes received are examined in arrival order; each turn takes at least one byte, so as many turns as bytes do. -/
def State.pump (s : State) (n turns : Nat) : State :=
  match turns with
  | 0 => s
  | k + 1 =>
    let l := s.link n
    match l.state with
    | .down => s
    | .searching =>
      if l.rx.isEmpty then s
      else
        let s := s.modLink n (fun l => l.seeing l.rx)
        (match searchAt n l.rx with
         | .wait => s
         | .failed => (s.modLink n (fun l => { l with rx := l.rx.drop 1 })).pump n k
         | .aligned => (s.align n).pump n k)
    | _ =>
      if l.rx.length < 32 then s
      else ((s.setLink n { l with rx := l.rx.drop 32 }).takeBlock n (l.rx.take 32)).pump n k

/-- Bytes arrive on a link (R135 to R137). -/
def State.linkBytes (s : State) (n : Nat) (bytes : List Byte) : State :=
  if bytes.isEmpty then s
  else
    let s := s.modLink n (fun l => { l with rx := l.rx ++ bytes, lastByte := some s.tick })
    let s := if (s.link n).state = .down then s.changeLink n .searching .activity id else s
    s.pump n (s.link n).rx.length

/-! ### Sending -/

/-- The part's train has reached the next block period (R132, log entry 26). -/
def State.periodDue (s : State) (n : Nat) : Bool := decide (((s.link n).period + 1) * 4 ≤ s.tick)

/-- The outstanding entries 8 periods after their last sending (R146, R147). -/
def State.overdue (s : State) (n : Nat) : List Outstanding :=
  if s.periodDue n then
    (s.link n).outstanding.filter (fun e => !e.resend && decide (e.sent + 8 ≤ (s.link n).period))
  else []

/-- Every overdue entry fails (R146), in the order of the list (log entry 86, the model's choice). -/
def State.fireOutstanding (s : State) (n : Nat) : State := (s.overdue n).foldl (fun s e => s.failEntry n e) s

/-- The held block's echo was sent 8 periods ago without a verdict (R148). -/
def State.echoHeldDue (s : State) (n : Nat) : Bool :=
  let l := s.link n
  s.periodDue n && l.state == .echo &&
  (match l.held.bind (·.echoed) with
   | some p => decide (p + 8 ≤ l.period)
   | none => false)

/-- The held block is discarded, where its time has run out (R148). -/
def State.fireEchoHeld (s : State) (n : Nat) : State :=
  if s.echoHeldDue n then s.modLink n (fun l => { l with held := none }) else s

/-- What a block period sends, beside position, verdict and check (R144). -/
structure Outgoing where
  kind : BlockKind
  message : Nat
  body : List Byte
deriving DecidableEq, Repr

/-- A FILL block (R132). -/
def fillBlock : Outgoing := { kind := .fill, message := 0, body := List.replicate 24 0 }

/-- The oldest entry awaiting resend is sent again (R144, R146). -/
def State.resendOldest (s : State) (n : Nat) : Option (State × Outgoing) :=
  let l := s.link n
  match l.outstanding.find? (fun e => e.resend) with
  | some e =>
    some (s.setLink n { l with
            outstanding := l.outstanding.map (fun x => if x = e then { x with resend := false, sent := l.period } else x) },
          { kind := .data, message := e.message, body := e.body })
  | none => none

/-- HOE's next ready message goes out as a new DATA block, where the outstanding list has room (R133, R144, R145). -/
def State.sendNew (s : State) (n room : Nat) : Option (State × Outgoing) :=
  if (s.link n).outstanding.length < room then
    match s.offer n with
    | some (body, origin, s') =>
      let l := s'.link n
      let e : Outstanding :=
        { message := l.outNumber, body := body, sent := l.period, failures := 0, resend := false, origin := origin }
      some (s'.setLink n { l with outstanding := l.outstanding ++ [e], outNumber := cyclicNext 255 l.outNumber },
            { kind := .data, message := e.message, body := body })
    | none => none
  else none

/-- The ECHO of a held block not yet echoed (R144). -/
def State.sendEcho (s : State) (n : Nat) : Option (State × Outgoing) :=
  let l := s.link n
  match l.held with
  | some h =>
    match h.echoed with
    | none =>
      some (s.setLink n { l with held := some { h with echoed := some l.period } },
            { kind := .echo, message := fieldAt h.bytes 5 1, body := blockBody h.bytes })
    | some _ => none
  | none => none

/-- What the period sends, by the first row of R144 that applies. -/
def State.chooseBlock (s : State) (n : Nat) : State × Outgoing :=
  match (s.link n).state with
  | .checked => ((s.resendOldest n).orElse (fun _ => s.sendNew n 4)).getD (s, fillBlock)
  | .echo =>
    ((s.sendEcho n).orElse (fun _ => (s.resendOldest n).orElse (fun _ => s.sendNew n 1))).getD (s, fillBlock)
  | _ => (s, fillBlock)

/-- The part sends its block of a period: position, oldest verdict, and the check of the block before (R132, R143). -/
def State.sendBlock (s : State) (n : Nat) : State :=
  let out := s.chooseBlock n
  let l := out.1.link n
  let b := blockBytes n (l.period % 8) out.2.kind l.returns.head? out.2.message out.2.body l.lastCheck
  out.1.setLink n { l with returns := l.returns.drop 1, period := l.period + 1, lastSent := b, lastCheck := crc16 b }

/-- The block period of a link, where the train has reached it: what has run out by it first (R144, R146, R148). -/
def State.firePeriod (s : State) (n : Nat) : State :=
  if s.periodDue n then ((s.fireOutstanding n).fireEchoHeld n).sendBlock n else s

end Sys2Proof.Machine
end

