-- ==== Sys2Proof/Machine/Outgoing.lean ====
section
/-! DEFINITION. The supervisory frames as bytes (R189, R205): replies (R192), the BUSY refusal (R190) and reports (R196), with the
two central report bodies (11.3). Data and bodies whose layout the spec does not give are free (log entry 8). -/

namespace Sys2Proof.Machine

/-- A supervisory frame as its bytes, in either direction (R189): start, length, kind, tag, body and check. -/
def HostFrame.bytes (f : HostFrame) : List Byte :=
  let inner := bytesOf 2 (f.body.length + 2) ++ [f.kind, f.tag] ++ f.body
  [0xA5] ++ inner ++ checkBytes inner

/-- A hall time as its 6 bytes (R205). -/
def HallTime.bytes (t : HallTime) : List Byte := bytesOf 4 t.sec ++ bytesOf 2 t.ms

/-! ### Codes (11.2, 11.3) -/

def ReplyCode.code (c : ReplyCode) : Nat :=
  match c with
  | .ok => 0x00
  | .accepted => 0x01
  | .unknownKind => 0x02
  | .badLength => 0x03
  | .notInMode => 0x04
  | .noSuch => 0x05
  | .state => 0x06
  | .range => 0x07
  | .full => 0x08
  | .busy => 0x09
  | .zeroStale => 0x0A
  | .held => 0x0B
  | .limit => 0x0C

def Cause.code (c : Cause) : Nat :=
  match c with
  | .register => 1
  | .measureBegin => 2
  | .measureEnd => 3
  | .reserve => 4
  | .release => 5
  | .pick => 6
  | .handOut => 7
  | .latePick => 8
  | .benchReturn => 9
  | .place => 10
  | .putawayTimeout => 11
  | .discrepancy => 12
  | .identify => 13
  | .stationLoaded => 14
  | .verify => 15
  | .unloaded => 16
  | .typeHold => 17
  | .typeRelease => 18
  | .lifeZero => 19
  | .spentAtLimit => 20
  | .regrindOut => 21
  | .regrindBack => 22
  | .quarantineTool => 23
  | .clearQuarantine => 24
  | .retire => 25
  | .delete => 26

def ReqState.code (c : ReqState) : Nat :=
  match c with
  | .queued => 1
  | .waitingStock => 2
  | .reserved => 3
  | .issued => 4
  | .delivered => 5
  | .cancelled => 6
  | .expired => 7

def ReqCause.code (c : ReqCause) : Nat :=
  match c with
  | .entered => 1
  | .merged => 2
  | .noStock => 3
  | .reserved => 4
  | .released => 5
  | .pick => 6
  | .latePick => 7
  | .handOut => 8
  | .pickTimeout => 9
  | .pickMissed => 10
  | .typeHold => 11
  | .evicted => 12
  | .cancelledHost => 13
  | .cancelledStation => 14
  | .expired => 15
  | .delivered => 16
  | .instanceLost => 17

/-- The two origin bytes: its code and, for STATION, the station (11.3). For SUPERVISOR and AUTO 11.3 gives the station byte no value; 0
is the model's choice (log entry 90). -/
def Origin.bytes (o : Origin) : List Byte :=
  match o with
  | .station s => bytesOf 1 1 ++ bytesOf 1 s
  | .supervisor => bytesOf 1 2 ++ bytesOf 1 0
  | .auto => bytesOf 1 3 ++ bytesOf 1 0

/-- The two destination bytes, station 0 for BENCH (11.3); its place byte, without a value in REQUEST_STATE, is 0, the model's choice
(log entry 90). -/
def Dest.bytes (d : Dest) : List Byte :=
  match d with
  | .station s place => bytesOf 1 s ++ bytesOf 1 place
  | .bench => bytesOf 1 0 ++ bytesOf 1 0

/-! ### Replies -/

/-- Free data bytes of a reply: as many as one body takes at most, or as the whole reply has (log entry 8). -/
def ReplyData.freeBytes (d : ReplyData) (kind : Byte) : List Byte :=
  let length := Config.replyDataLength kind.toNat d.entries
  (List.range (if d.oneBody then min 244 length else length)).map (Config.replyDataByte d)

/-- The data bytes of a reply, all its parts together (R192): as 11.2 and 11.3 lay them out, free where they do not. -/
def ReplyData.bytes (d : ReplyData) (kind : Byte) : List Byte :=
  match d with
  | .nothing => []
  | .handle h => bytesOf 2 h
  | .requestHandle number _ => bytesOf 2 number ++ d.freeBytes kind
  | .typeRec n r => typeBytes n r
  | .instRec n r => instBytes n r
  | _ => d.freeBytes kind

/-- The body of a part of a reply (R192, 11.2): its four opening bytes and its share of the data. -/
def replyBody (kind : Byte) (code : ReplyCode) (notTaken : Bool) (part parts : Nat) (data : List Byte) : List Byte :=
  [kind] ++ bytesOf 1 code.code ++ [flagByte [notTaken, decide (part = parts)]] ++ bytesOf 1 part ++
  (data.drop (246 * (part - 1))).take 246

/-! ### Reports -/

/-- The body of CUSTODY_CHANGE (11.3). -/
def custodyBody (tool type : Nat) (before : Option Custody) (locBefore : Location) (after : Option Custody) (locAfter : Location)
    (cause : Cause) (link : Option Nat) : List Byte :=
  bytesOf 2 tool ++ bytesOf 2 type ++ bytesOf 1 ((before.map Custody.code).getD 0) ++ locBefore.bytes ++
  bytesOf 1 ((after.map Custody.code).getD 0) ++ locAfter.bytes ++ bytesOf 1 cause.code ++ bytesOf 1 (link.getD 0)

/-- The body of REQUEST_STATE (11.3). -/
def requestBody (r : Request) (cause : ReqCause) : List Byte :=
  bytesOf 1 r.number ++ r.origin.bytes ++ bytesOf 2 r.type ++ r.dest.bytes ++ bytesOf 1 r.prio.rank ++
  [flagByte [r.neededBy.isSome]] ++ bytesOf 4 (r.neededBy.getD 0) ++ bytesOf 1 r.state.code ++ bytesOf 1 cause.code ++
  bytesOf 2 (r.tool.getD 0) ++ bytesOf 1 r.misses

/-- The kind-specific bytes of a report: those of 11.3, free ones of at most the 241 that fit otherwise (log entry 8). -/
def Report.bytes (r : Report) : List Byte :=
  match r with
  | .custodyChange tool type before locBefore after locAfter cause link =>
    custodyBody tool type before locBefore after locAfter cause link
  | .requestState q cause => requestBody q cause
  | _ => (Config.reportBytes r).take 241

/-- The body of a report frame (R196, 11.2). -/
def QueuedReport.body (q : QueuedReport) : List Byte :=
  bytesOf 1 q.report.kind ++ bytesOf 2 q.overrun ++ q.time.bytes ++ q.report.bytes

/-- A frame that has been sent, as the frame of R189: kind REPLY 80h with the tag answered, or REPORT 81h with tag 0. -/
def SentFrame.frame (f : SentFrame) : HostFrame :=
  match f with
  | .reply tag kind r part parts =>
    { kind := 0x80, tag := tag, body := replyBody kind r.code false part parts (r.data.bytes kind) }
  | .busy tag kind => { kind := 0x80, tag := tag, body := replyBody kind .busy true 1 1 [] }
  | .report q => { kind := 0x81, tag := 0, body := q.body }

/-- What the lines show of a frame that has been sent (log entry 7). -/
def Lines.sending (l : Lines) (f : SentFrame) : Lines := { l with sv := some f, svBytes := f.frame.bytes }

end Sys2Proof.Machine
end

