-- ==== Sys2Proof/Machine/Arith.lean ====
section
/-! DEFINITION. MSU: the measurement arithmetic of chapter 5, stage by stage, over exact integers. -/

namespace Sys2Proof.Machine

/-- The Z breakpoints (R98). -/
def zPoints : List Nat :=
  [0, 50000, 100000, 200000, 400000, 800000, 1200000, 1600000, 2000000, 2400000, 2800000, 3200000, 3600000, 3800000, 3900000,
    3950000, 4000000]

/-- The X breakpoints (R98). -/
def xPoints : List Nat := [0, 50000, 100000, 250000, 500000, 750000, 1000000, 1250000, 1500000]

/-- The share of the step from one correction to the next (R101). -/
def shareOf (p p' : Nat) (c c' : Int) (r : Nat) : Int := roundDiv ((c' - c) * ((r : Int) - p)) (p' - p)

/-- The correction of a reading: interpolated between breakpoints, the last correction at or beyond the last (R101, R102). -/
def correctionAt (curve : List (Nat × Int)) (r : Nat) : Int :=
  match curve with
  | [] => 0
  | [(_, c)] => c
  | (p, c) :: (p', c') :: rest => if r < p' then c + shareOf p p' c c' r else correctionAt ((p', c') :: rest) r

/-- A corrected reading (R101). -/
def corrected (points : List Nat) (table : List Int) (r : Nat) : Int := (r : Int) + correctionAt (points.zip table) r

/-- A capture as MSU takes and corrects it: counts limited, range flags, corrected readings, RANGE mark (R77, R101, R102).
A count above its range is limited with its flag set, which is what marks a reading beyond the upper end. -/
def Head.takeCapture (h : Head) (z x : BitVec 24) (spindle scaleTemp toolTemp : BitVec 16) (flags : Byte) : Capture :=
  let zc := min z.toNat 4000000
  let xc := min x.toNat 1500000
  let zFlag := flags.getLsbD 0 || decide (4000000 < z.toNat)
  let xFlag := flags.getLsbD 1 || decide (1500000 < x.toNat)
  { zCount := zc, xCount := xc, spindle := spindle.toNat, scaleTemp := scaleTemp.toInt, toolTemp := toolTemp.toInt,
    zFlag := zFlag, xFlag := xFlag, z := corrected zPoints (h.zCurve.getD []) zc, x := corrected xPoints (h.xCurve.getD []) xc,
    rangeMark := zFlag || xFlag }

/-- Insertion of an integer into an ascending list. -/
def insertInt (v : Int) (vs : List Int) : List Int :=
  match vs with
  | [] => [v]
  | w :: rest => if v < w then v :: w :: rest else w :: insertInt v rest

/-- Integers in ascending order. -/
def ascending (vs : List Int) : List Int := vs.foldl (fun acc v => insertInt v acc) []

/-- The middle value, the lower of the two middle values for an even number (R103). -/
def medianOf (vs : List Int) : Int := (ascending vs).getD ((vs.length - 1) / 2) 0

/-- The captures with their numbers (R83). -/
def Session.numbered (s : Session) : List (Nat × Capture) := s.captures.zipIdx.map (fun e => (e.2 + 1, e.1))

/-- The captures in view: from the window start onward, at most the last N (R84, R103). -/
def Session.inView (s : Session) (n : Nat) : List (Nat × Capture) :=
  let from' := s.numbered.filter (fun e => decide (s.windowStart ≤ e.1))
  from'.drop (from'.length - n)

/-- The agreeing captures, where agreement is reached (R103). -/
def Session.agreement (s : Session) (h : HeadSettings) : Option (List (Nat × Capture)) :=
  let eligible := (s.inView h.n).filter (fun e => !e.2.rangeMark)
  if eligible.length < h.k then none
  else
    let median := medianOf (eligible.map (fun e => e.2.z))
    let agreeing := eligible.filter (fun e => decide ((e.2.z - median).natAbs ≤ h.band))
    if agreeing.length < h.k then none else some agreeing

/-- The rounded mean of a list (R97, R104, R105). -/
def meanOf (vs : List Int) : Int := roundDiv vs.sum vs.length

/-- The high-point capture: the largest x′, the earliest of equals (R104). -/
def highPoint (cs : List (Nat × Capture)) : Option (Nat × Capture) :=
  cs.foldl (fun acc e => match acc with
    | none => some e
    | some b => if b.2.x < e.2.x then some e else some b) none

/-- The smallest x′. -/
def lowestX (cs : List (Nat × Capture)) (start : Int) : Int := cs.foldl (fun acc e => min acc e.2.x) start

/-- A value held between two ends. -/
def clampInt (lo hi v : Int) : Int := if v < lo then lo else if hi < v then hi else v

/-- The effective nominal of a dimension (R110). -/
def effective (nominal marks step : Nat) (governed : Bool) : Nat := if governed then nominal - marks * step else nominal

/-- A deviation within a band (R110). -/
def Band.holds (b : Band) (d : Int) : Bool := decide (b.lower ≤ d) && decide (d ≤ b.upper)

/-- The computed verdict (R111). -/
def computedVerdict (t : TypeRec) (dL dR : Int) (runout : Nat) : Verdict :=
  let runoutOk := decide (t.runoutLimit = 0) || decide (runout ≤ t.runoutLimit)
  let lengthOk := t.lengthBand.holds dL && runoutOk
  match t.cls with
  | .lengthOnly => if lengthOk then .pass else .reject
  | .lengthRadius =>
    if lengthOk && t.radiusBand.holds dR then .pass
    else if t.adjustable && lengthOk && (t.adjustBand.map (fun b => b.holds dR)).getD false then .adjust
    else .reject

/-- The values of an evaluation (R104, R106 to R110). -/
def evaluate (h : HeadSettings) (zeroZ zeroX : Int) (t : TypeRec) (marks : Nat) (cs : List (Nat × Capture)) : Values :=
  let high := highPoint cs
  let acceptedZ := meanOf (cs.map (fun e => e.2.z))
  let highX := (high.map (fun e => e.2.x)).getD 0
  let runout := min (highX - lowestX cs highX).toNat 1500000
  let rawL := acceptedZ - zeroZ + h.masterLength + h.offsets.getD t.adapter 0
  let rawR := highX - zeroX + h.masterRadius
  let cL := clampInt 0 4000000 rawL
  let cR := clampInt 0 1500000 rawR
  let dTs := meanOf (cs.map (fun e => e.2.scaleTemp)) - 2000
  let dTt := meanOf (cs.map (fun e => e.2.toolTemp)) - 2000
  let ts := clampInt (-1500) 1500 dTs
  let tt := clampInt (-1500) 1500 dTt
  let k := (h.scaleCoeff : Int) * ts - (t.expansion : Int) * tt
  let hotL := cL + roundDiv (cL * k) 10000000000
  let hotR := cR + roundDiv (cR * k) 10000000000
  let length := clampInt 0 4000000 hotL
  let radius := clampInt 0 1500000 hotR
  let nomL := effective t.nominalLength marks t.regrindStep (t.governed == .length)
  let nomR := effective t.nominalRadius marks t.regrindStep (t.governed == .radius)
  { length := length.toNat, radius := radius.toNat, runout := runout, nominalLength := nomL, nominalRadius := nomR,
    dL := length - nomL, dR := radius - nomR, thermalLimited := decide (ts ≠ dTs) || decide (tt ≠ dTt),
    rangeLimited := decide (cL ≠ rawL) || decide (cR ≠ rawR) || decide (length ≠ hotL) || decide (radius ≠ hotR),
    spindle := (high.map (fun e => e.2.spindle)).getD 0, acceptedZ := acceptedZ, highX := highX, rawLength := rawL,
    rawRadius := rawR, scaleDiff := ts, toolDiff := tt, factor := k, agreeing := cs.map (·.1) }

/-- The verdict a session holds after an evaluation (R112). -/
def verdictOf (zeroValid : Bool) (t : TypeRec) (v : Values) : Verdict :=
  if !zeroValid then .drift else if v.rangeLimited then .range else computedVerdict t v.dL v.dR v.runout

end Sys2Proof.Machine
end

