-- ==== Sys2Proof/Machine/Sessions.lean ====
section
/-! DEFINITION. MSU: head lines and availability (R78, R79), the reference zero (R80, R82), captures and evaluations (R84 to R86),
the closing of a session (R89 to R93), and the messages to the heads (R207). -/

namespace Sys2Proof.Machine

/-! ### Messages to the heads -/

/-- Outcome codes of RESULT (R207). -/
def Verdict.code (v : Verdict) : Nat :=
  match v with
  | .pass => 1
  | .adjust => 2
  | .reject => 3
  | .unstable => 4
  | .drift => 5
  | .range => 6

/-- The type of the session's instance, 0 for none. -/
def State.sessionType (s : State) (h : HeadId) : Nat :=
  match (s.head h).session with
  | some x =>
    match x.kind with
    | .measure tool _ _ => ((s.tool tool).map (·.type)).getD 0
    | .zero => 0
  | none => 0

/-- The body of SESSION_STATE (R207); where it shows IDLE, the window start is 0 (log entry 73, the model's choice). -/
def State.sessionStateBody (s : State) (h : HeadId) : List Byte :=
  let r := s.head h
  let valid := r.zeroValid s.tick
  match r.session with
  | none => bytesOf 1 (headCode h) ++ List.replicate 9 0 ++ bytesOf 1 valid.toNat
  | some x =>
    bytesOf 1 (headCode h) ++
    bytesOf 1 (match x.kind with
      | .measure _ _ _ => 1
      | .zero => 2) ++
    bytesOf 1 (match x.state with
      | .capturing => 1
      | .awaitAdjust => 2
      | .evaluated => 3) ++
    bytesOf 2 (match x.kind with
      | .measure tool _ _ => tool
      | .zero => 0) ++
    bytesOf 2 (s.sessionType h) ++ bytesOf 1 x.captures.length ++ bytesOf 1 (x.inView r.settings.n).length ++
    bytesOf 1 x.windowStart ++ bytesOf 1 valid.toNat

/-- MSU sends the head a SESSION_STATE (R77). -/
def State.sendSession (s : State) (h : HeadId) : State := s.sendHead h (headFrame 0x11 (s.sessionStateBody h))

/-- The body of RESULT (R207); an UNSTABLE one carries 0 in every value field. -/
def resultBody (h : HeadId) (outcome : Nat) (length radius : Int) (runout : Nat) (dL dR : Int) (spindle agreeing : Nat)
    (limited : Bool) : List Byte :=
  bytesOf 1 (headCode h) ++ bytesOf 1 outcome ++ bytesOfInt 4 length ++ bytesOfInt 4 radius ++ bytesOf 3 runout ++
  bytesOfInt 3 dL ++ bytesOfInt 3 dR ++ bytesOf 2 spindle ++ bytesOf 1 agreeing ++ [flagByte [limited]]

/-- MSU sends the head the RESULT of an evaluation (R86). -/
def State.sendResult (s : State) (h : HeadId) (r : Result) : State :=
  s.sendHead h (headFrame 0x12 (match r.values with
    | some v =>
      resultBody h r.verdict.code v.length v.radius v.runout v.dL v.dR v.spindle v.agreeing.length v.thermalLimited
    | none => resultBody h r.verdict.code 0 0 0 0 0 0 0 false))

/-! ### The reference zero -/

/-- Why a zero that has stopped being valid did so (R80). -/
def Head.lapseReason (r : Head) (tick : Nat) : ZeroReason :=
  match r.zero with
  | none => .removed
  | some _ => if r.ageOk tick then .temperature else .age

/-- MSU tests validity and reports a change; `cause` is the reason for a zero that becomes valid (R80, log entry 15). -/
def State.testZero (s : State) (h : HeadId) (cause : ZeroReason) : State :=
  let r := s.head h
  let valid := r.zeroValid s.tick
  if valid = r.zeroOk then s
  else
    (s.setHead h { r with zeroOk := valid }).report (.zeroState h valid (if valid then cause else r.lapseReason s.tick))

/-- The last scale temperature is set and validity tested (R78, R80); a SESSION_STATE of the same message follows it and shows the
validity found (log entry 87, the model's choice). -/
def State.setScaleTemp (s : State) (h : HeadId) (t : Int) : State :=
  (s.setHead h { s.head h with scaleTemp := some t }).testZero h .temperature

/-! ### Closing sessions -/

/-- The session record returns to IDLE and the head is told (R93). -/
def State.idleSession (s : State) (h : HeadId) : State := (s.setHead h { s.head h with session := none }).sendSession h

/-- The end of a MEASURE session (R93): the transition, CLOSED, IDLE, then what PSC and ISC do. -/
def State.closeMeasure (s : State) (h : HeadId) (x : Session) (n : Nat) (cause : CloseCause) (acted : Option Verdict)
    (m : Move) (also : InstRec → InstRec) : State :=
  match s.tool n with
  | none => s.idleSession h
  | some r =>
    let s := s.transition n r m also
    let after := r.moved m
    let s := s.report (.closed x.handle h n cause acted after.custody after.loc)
    ((s.idleSession h).settleMarks n).announce n

/-- Where a session without a PASS or REJECT sends its instance (R91). -/
def State.noVerdictMove (s : State) (n : Nat) (entry : Custody) (entryCause : Option QCause) : Move :=
  let i := s.tool n
  let stands := match entry, entryCause with
    | .ready, _ => true
    | .quarantine, some .typeHold => (i.bind (·.meas)).isSome
    | _, _ => false
  let held := (i.map (fun r => s.typeHeld r.type)).getD false
  { cause := .measureEnd, custody := if stands && !held then .staged else .unmeasured, loc := .bench }

/-- The session closes without acting on a verdict: ABORT or HEAD_LOSS (R79, R92). -/
def State.abandonSession (s : State) (h : HeadId) (cause : CloseCause) : State :=
  match (s.head h).session with
  | none => s
  | some x =>
    match x.kind with
    | .measure n entry entryCause => s.closeMeasure h x n cause none (s.noVerdictMove n entry entryCause) id
    | .zero =>
      (s.idleSession h).report (.closedZero x.handle h (match cause with
        | .headLoss => .headLoss
        | _ => .abort))

/-- The verdict a session holds (R89). -/
def Session.held (x : Session) : Option Verdict := x.result.map (·.verdict)

/-- The transition of MEASURE_END by the verdict held (R89 to R91), with its other field changes (R10). -/
def State.endMove (s : State) (h : HeadId) (x : Session) (n : Nat) (entry : Custody) (entryCause : Option QCause) :
    Move × (InstRec → InstRec) :=
  match x.result with
  | some ⟨.pass, time, some v⟩ =>
    let held := ((s.tool n).map (fun r => s.typeHeld r.type)).getD false
    ({ cause := .measureEnd, custody := if held then .quarantine else .staged, loc := .bench,
       qcause := if held then some .typeHold else none },
     fun r => { r with
       meas := some { length := v.length, radius := v.radius, runout := v.runout, time := time, head := h,
                      thermalLimited := v.thermalLimited }
       generation := min (r.generation + 1) 65535 })
  | some ⟨.reject, _, _⟩ =>
    ({ cause := .measureEnd, custody := .quarantine, loc := .bench, qcause := some .reject }, fun r => { r with meas := none })
  | _ => (s.noVerdictMove n entry entryCause, id)

/-! ### Availability -/

/-- A change of availability is reported, and a head that has become unavailable loses its session (R78, R79). -/
def State.testAvailable (s : State) (h : HeadId) (before : Bool) : State :=
  let r := s.head h
  if r.available = before then s
  else
    let s := s.report (.headState h r.available r.reason)
    if r.available then s else s.abandonSession h .headLoss

/-- A HEAD_STATUS is taken (R78). The spec orders neither HEAD_STATE and ZERO_STATE, where HEAD_STATE goes first (log entry 63), nor
the new temperature and the SESSION_STATE of a line become READY, which shows the zero's validity as the new temperature leaves it (log
entry 87): both are the model's choice. -/
def State.takeStatus (s : State) (h : HeadId) (ready : Bool) (temp : Int) : State :=
  let r := s.head h
  let s := s.setHead h { r with line := if ready then .ready else .fault, lastFrame := some s.tick }
  let s := s.testAvailable h r.available
  if ready then
    let s := s.setScaleTemp h temp
    if r.line = .ready then s else s.sendSession h
  else s

/-- 2 s have passed since the last framed message of a head that is not SILENT (R78). -/
def State.silenceDue (s : State) (h : HeadId) : Bool :=
  let r := s.head h
  r.line != .silent &&
  (match r.lastFrame with
   | some t => decide (t + 2000 ≤ s.tick)
   | none => false)

/-- The line state becomes SILENT, where 2 s have passed (R78). -/
def State.fireSilence (s : State) (h : HeadId) : State :=
  if s.silenceDue h then
    let r := s.head h
    (s.setHead h { r with line := .silent }).testAvailable h r.available
  else s

/-- The tick count has passed the end of the zero's life since the zero was last tested (R80, log entry 15). -/
def State.lapseDue (s : State) (h : HeadId) : Bool := (s.head h).zeroOk && !(s.head h).ageOk s.tick

/-- The zero lapses by age, where it has (R80). -/
def State.fireLapse (s : State) (h : HeadId) : State := if s.lapseDue h then s.testZero h .age else s

/-! ### Captures -/

/-- The session of a head is rewritten. -/
def State.setSession (s : State) (h : HeadId) (x : Session) : State := s.setHead h { s.head h with session := some x }

/-- A ZERO session reaches agreement: the zero, RESULT, IDLE, CLOSED, then validity (R82, R105). -/
def State.setZero (s : State) (h : HeadId) (x : Session) (cs : List (Nat × Capture)) (temp : Int) : State :=
  let z := meanOf (cs.map (fun e => e.2.z))
  let m := meanOf (cs.map (fun e => e.2.x))
  let zero : Zero := { z := z, x := m, time := s.now, tick := s.tick, temp := temp }
  let s := s.setHead h { s.head h with zero := some zero }
  let s := s.sendHead h (headFrame 0x12 (resultBody h 7 z m 0 0 0 0 cs.length false))
  ((s.idleSession h).report (.closedZero x.handle h (.zeroSet zero))).testZero h .set

/-- A MEASURE session reaches agreement: result, state and window, RESULT, SESSION_STATE, VERDICT (R86, R112). -/
def State.judge (s : State) (h : HeadId) (x : Session) (tool : Nat) (cs : List (Nat × Capture)) : State :=
  match s.tool tool with
  | none => s
  | some i =>
    match s.type i.type with
    | none => s
    | some t =>
      let r := s.head h
      let v := evaluate r.settings ((r.zero.map (·.z)).getD 0) ((r.zero.map (·.x)).getD 0) t i.marks cs
      let verdict := verdictOf (r.zeroValid s.tick) t v
      let result : Result := { verdict := verdict, time := s.now, values := some v }
      let x := { x with
        result := some result
        state := if verdict = .adjust then .awaitAdjust else .evaluated
        windowStart := if verdict = .adjust then x.captures.length + 1 else x.windowStart }
      let s := ((s.setSession h x).sendResult h result).sendSession h
      s.report (.verdict x.handle h tool i.type result)

/-- A 33rd capture arrives (R82, R85). In a ZERO session RESULT goes to the head before the SESSION_STATE that shows IDLE, which the
spec does not order (log entry 88, the model's choice). -/
def State.captureLimit (s : State) (h : HeadId) (x : Session) : State :=
  let result : Result := { verdict := .unstable, time := s.now, values := none }
  match x.kind with
  | .measure tool _ _ =>
    let x := { x with result := some result, state := .evaluated }
    let s := ((s.setSession h x).sendResult h result).sendSession h
    s.report (.verdict x.handle h tool (s.sessionType h) result)
  | .zero => ((s.sendResult h result).idleSession h).report (.closedZero x.handle h .unstable)

/-- A capture is stored and agreement tried (R84). -/
def State.storeCapture (s : State) (h : HeadId) (x : Session) (c : Capture) : State :=
  let x := { x with captures := x.captures ++ [c] }
  let s := (s.setSession h x).sendSession h
  match x.agreement (s.head h).settings with
  | none => s
  | some cs =>
    match x.kind with
    | .measure tool _ _ => s.judge h x tool cs
    | .zero => s.setZero h x cs c.scaleTemp

/-- A CAPTURE is taken (R78, R84). ZERO_STATE before what the session reports (log entry 64), and every SESSION_STATE after the
scale temperature is set (log entry 87), are the model's choice. -/
def State.takeCapture (s : State) (h : HeadId) (z x : BitVec 24) (spindle scaleTemp toolTemp : BitVec 16) (flags : Byte) :
    State :=
  let r := s.head h
  let s := s.setHead h { r with lastFrame := some s.tick }
  match r.line with
  | .silent => s
  | .fault => s
  | .ready =>
    let s := s.setScaleTemp h scaleTemp.toInt
    match r.session with
    | none => s.sendSession h
    | some q =>
      match q.state with
      | .evaluated => s.sendSession h
      | _ =>
        if q.captures.length < 32 then s.storeCapture h q (r.takeCapture z x spindle scaleTemp toolTemp flags)
        else s.captureLimit h q

end Sys2Proof.Machine
end

