-- ==== Sys2Proof/Machine/Port.lean ====
section
/-! DEFINITION. SVP and the head receivers: framing (R189, R207), sending (R197), resets (R202, R203) and START (R200, R201). -/

namespace Sys2Proof.Machine

/-! ### Framing -/

/-- How the bytes in reception stand (R189): too few, discarded at their first byte, a byte dropped in HUNT, or a whole frame
of so many bytes whose bytes from kind through body are given. -/
inductive Framing where
  | wait
  | hunt
  | discard
  | whole (payload : List Byte) (size : Nat)
deriving DecidableEq, Repr

/-- The receiver's judgement of the bytes it holds (R189). -/
def frameAt (rx : List Byte) : Framing :=
  match rx with
  | [] => .wait
  | b :: _ =>
    if b ≠ 0xA5 then .hunt
    else if rx.length < 3 then .wait
    else
      let len := fieldAt rx 1 2
      if len < 2 ∨ 252 < len then .discard
      else if rx.length < len + 5 then .wait
      else if fieldAt rx (len + 3) 2 = (crc16 ((rx.drop 1).take (len + 2))).toNat then
        .whole ((rx.drop 3).take len) (len + 5)
      else .discard

/-- A counter that stays at 65,535 (R204). -/
def countUp (n : Nat) : Nat := min (n + 1) 65535

/-- More than 10 ms have passed since the last byte of the frame in reception (R189). -/
def Svp.byteLate (v : Svp) (tick : Nat) : Bool := !v.rx.isEmpty && decide (v.rxTick + 10 < tick)

/-- A frame whose bytes stop is discarded and counted (R189). -/
def Svp.dropLate (v : Svp) (tick : Nat) : Svp := if v.byteLate tick then { v with rx := [], discards := countUp v.discards } else v

/-- The bytes received are framed; each turn takes at least one byte (R189, R190). -/
def Svp.pump (v : Svp) (turns : Nat) : Svp :=
  match turns with
  | 0 => v
  | k + 1 =>
    match frameAt v.rx with
    | .wait => v
    | .hunt => ({ v with rx := v.rx.drop 1 } : Svp).pump k
    | .discard => ({ v with rx := v.rx.drop 1, discards := countUp v.discards } : Svp).pump k
    | .whole payload size =>
      (({ v with rx := v.rx.drop size } : Svp).receive ⟨payload.getD 0 0, payload.getD 1 0, payload.drop 2⟩).pump k

/-- Bytes arrive on SV_RXD (R189, R190). -/
def Svp.bytes (v : Svp) (tick : Nat) (bs : List Byte) : Svp :=
  if bs.isEmpty then v
  else
    let v := v.dropLate tick
    ({ v with rx := v.rx ++ bs, rxTick := tick } : Svp).pump (v.rx.length + bs.length)

/-- A framed head payload is taken, or fails: unknown kind, wrong length, invalid field (R207). -/
def State.headPayload (s : State) (h : HeadId) (p : List Byte) : Option State :=
  match fieldAt p 0 1, p.length with
  | 1, 14 =>
    if fieldAt p 7 2 ≤ 359 then
      some (s.takeCapture h (BitVec.ofNat 24 (fieldAt p 1 3)) (BitVec.ofNat 24 (fieldAt p 4 3)) (BitVec.ofNat 16 (fieldAt p 7 2))
        (BitVec.ofNat 16 (fieldAt p 9 2)) (BitVec.ofNat 16 (fieldAt p 11 2)) (p.getD 13 0))
    else none
  | 2, 4 =>
    match fieldAt p 1 1 with
    | 0 => some (s.takeStatus h true (signedAt p 2 2))
    | 1 => some (s.takeStatus h false (signedAt p 2 2))
    | _ => none
  | _, _ => none

/-- The bytes of a head line are framed; each turn takes at least one byte (R207). A frame whose length does
not fit its kind is discarded when all its bytes have come (log entry 67, the model's choice). -/
def State.headPump (s : State) (h : HeadId) (turns : Nat) : State :=
  match turns with
  | 0 => s
  | k + 1 =>
    let r := s.head h
    match frameAt r.rx with
    | .wait => s
    | .hunt => (s.setHead h { r with rx := r.rx.drop 1 }).headPump h k
    | .discard => (s.setHead h { r with rx := r.rx.drop 1 }).headPump h k
    | .whole payload size =>
      match (s.setHead h { r with rx := r.rx.drop size }).headPayload h payload with
      | some s' => s'.headPump h k
      | none => (s.setHead h { r with rx := r.rx.drop 1 }).headPump h k

/-- More than 10 ms have passed since the last byte of the head frame in reception (R207). -/
def Head.byteLate (r : Head) (tick : Nat) : Bool := !r.rx.isEmpty && decide (r.rxTick + 10 < tick)

/-- A head frame whose bytes stop is discarded (R207). -/
def State.fireHeadBytes (s : State) (h : HeadId) : State :=
  if (s.head h).byteLate s.tick then s.setHead h { s.head h with rx := [] } else s

/-- Bytes arrive on a head line (R207). -/
def State.headBytes (s : State) (h : HeadId) (bs : List Byte) : State :=
  if bs.isEmpty then s
  else
    let s := s.fireHeadBytes h
    let r := s.head h
    (s.setHead h { r with rx := r.rx ++ bs, rxTick := s.tick }).headPump h (r.rx.length + bs.length)

/-- A frame of a head completes: nothing of it stays in reception (log entry 30). -/
def State.headFramed (s : State) (h : HeadId) : State := s.setHead h { s.head h with rx := [] }

/-- A frame of a head completes and fails (R207): hunting resumes at the byte after its start byte (R189, log entry 30). -/
def State.headFailed (s : State) (h : HeadId) (frame : List Byte) : State :=
  (s.setHead h { s.head h with rx := frame.drop 1, rxTick := s.tick }).headPump h frame.length

/-- The bytes of a CAPTURE frame from its fields (R207). -/
def captureFrame (z x : BitVec 24) (spindle scaleTemp toolTemp : BitVec 16) (flags : Byte) : List Byte :=
  headFrame 0x01 (bytesOf 3 z.toNat ++ bytesOf 3 x.toNat ++ bytesOf 2 spindle.toNat ++ bytesOf 2 scaleTemp.toNat ++
    bytesOf 2 toolTemp.toNat ++ [flags])

/-- The bytes of a HEAD_STATUS frame from its fields (R207). -/
def statusFrame (status : Byte) (scaleTemp : BitVec 16) : List Byte := headFrame 0x02 ([status] ++ bytesOf 2 scaleTemp.toNat)

/-! ### Power-on and resets -/

/-- The line rate of the straps (R188). -/
def rateOf (baud1 baud0 : Bool) : Nat :=
  match baud1, baud0 with
  | false, false => 115200
  | false, true => 230400
  | true, false => 460800
  | true, true => 921600

/-- The part after power-on; the queue of waiting commands is not the part's and stays. -/
def State.poweredOn (s : State) (baud1 baud0 : Bool) : State :=
  { State.reset with pending := s.pending, svp := Svp.powerOn (rateOf baud1 baud0) }

/-- A reset takes effect: every block at its reset values, but for the line rate and what HCK keeps (R202, R203, R187). -/
def State.resetNow (s : State) : State :=
  { State.reset with pending := s.pending, svp := Svp.powerOn s.svp.rate, hck := s.hck.afterReset, lines := s.lines }

/-! ### The transmitter -/

/-- The reply is that of an accepted RESET (R202). -/
def Svp.isResetReply (v : Svp) (f : HostFrame) (r : Reply) : Bool := v.resetting && f.kind == 0x51 && r.code == .ok

/-- The transmitter is sending the last part of an accepted RESET's reply (R202). -/
def Svp.sendingReset (v : Svp) : Bool :=
  match v.tx with
  | none => false
  | some t =>
    match t.item with
    | .reply stamp =>
      decide (t.parts ≤ t.part) &&
      (match v.madeReplies.find? (fun e => e.1 == stamp) with
       | some (_, f, r) => v.isResetReply f r
       | none => false)
    | _ => false

/-- The frame being sent has been sent completely (R197): a further part, a freed place, an empty BUSY slot, a report gone, or
the reset that its reply arranged (R202). -/
def State.frameSent (s : State) : State :=
  let v := s.svp
  match v.tx with
  | none => s
  | some t =>
    match t.item with
    | .reply stamp =>
      match v.madeReplies.find? (fun e => e.1 == stamp) with
      | none => s.setSvp { v with tx := none }
      | some (_, f, r) =>
        let s := { s with lines := s.lines.sending (.reply f.tag f.kind r t.part t.parts) }
        if t.part < t.parts then s.setSvp { v with tx := some { t with part := t.part + 1 } }
        else if v.isResetReply f r then s.resetNow
        else
          s.setSvp { v with
            tx := none
            buffer := v.buffer.filter (fun e => (e.reply.map (·.1)) ≠ some stamp) }
    | .busy =>
      match v.busy with
      | none => s.setSvp { v with tx := none }
      | some b =>
        let s := { s with lines := s.lines.sending (.busy b.tag b.kind) }
        s.setSvp { v with tx := none, busy := none }
    | .report stamp =>
      match v.reports with
      | [] => s.setSvp { v with tx := none }
      | r :: rest =>
        if r.stamp = stamp then
          let s := { s with lines := s.lines.sending (.report r) }
          s.setSvp { v with tx := none, reports := rest }
        else s.setSvp { v with tx := none }

/-! ### START -/

/-- The first disagreement that a pocket record shows (R200). -/
def State.pocketDisagreement (s : State) (key : Nat) (r : Pocket) : Option ReplyData :=
  match r.tool with
  | none => none
  | some n =>
    if ((s.tool n).map (·.loc)) ≠ some (.pocket (keyCabinet key) (keyPocket key)) then
      some (.disagreement .pocketNamesOther (keyCabinet key) (keyPocket key) n)
    else if r.enabled = false then some (.disagreement .disabledPocket (keyCabinet key) (keyPocket key) n)
    else none

/-- The disagreement that an instance record shows (R200). -/
def State.instDisagreement (s : State) (n : Nat) (r : InstRec) : Option ReplyData :=
  match r.loc with
  | .pocket c p => if (s.pocket c p).tool = some n then none else some (.disagreement .instanceNotRecorded c p n)
  | _ => none

/-- The first disagreement that START finds (R200). -/
def State.disagreement (s : State) : Option ReplyData :=
  match s.psc.pockets.findSome? (fun e => s.pocketDisagreement e.1 e.2) with
  | some d => some d
  | none => s.trg.insts.findSome? (fun e => s.instDisagreement e.1 e.2)

/-- The twelve cabinets. -/
def allCabinets : List Nat := (List.range 12).map (· + 1)

/-- START's blocked update for one instance: LOADED, spent, its entry showing spent notice no (R168). -/
def State.blockedAtStart (s : State) (n : Nat) : State :=
  match s.tool n with
  | some r =>
    match r.custody, r.heldPlace with
    | .loaded, some (st, place) =>
      if r.spent ∧ (((s.station st).entryOf n).map (·.2.spentNotice)).getD true = false then s.askBlocked st place n else s
    | _, _ => s
  | none => s

/-- START's steps (R175, R201). Cabinets and stations are taken by ascending number, and the blocked updates of R168 by ascending
instance number over all stations (log entry 85, the model's choice). -/
def State.begin (s : State) : State :=
  let s := s.setSvp { s.svp with mode := .running }
  let s := allCabinets.foldl (fun s c => s.beginBoundaries c) s
  let tools := s.trg.insts.map (·.1)
  let s := tools.foldl (fun s n => s.tryPutaway n) s
  let s := allStations.foldl (fun s n => s.fillSpace n) s
  let s := tools.foldl (fun s n => s.blockedAtStart n) s
  allStations.foldl (fun s n => s.startTxn n) s

end Sys2Proof.Machine
end

