-- ==== Sys2Proof/Machine/PortCommands.lean ====
section
/-! DEFINITION. The commands of time and of the port: SET_TIME (R182), SET_CLOCK (R183), READ_TIME (R186), START (R200, R201), RESET
(R202), REPORT_ENABLE (R198), READ_PORT (R204). -/

namespace Sys2Proof.Machine

/-- SET_TIME (R182). -/
def execSetTime (tag : Byte) (body : List Byte) (s : State) : Host.Outcome State Fault Refusal :=
  hostCommand 0x48 tag body (fun s =>
    let out := s.setTime (fieldAt body 0 4)
    (out.1, .plain (if out.2 then .accepted else .ok))) s

/-- SET_CLOCK in its fields (R183); the tolerance before the revertive setting is the model's choice (log entry 66). -/
def State.setClock (s : State) (tol revertive : Option Nat) : State × Reply :=
  let fits := (tol.map (within 1 20)).getD true && (revertive.map (within 0 1)).getD true
  if fits then
    let s := match tol with
      | some t => s.setTolerance t
      | none => s
    let s := match revertive with
      | some v => s.setRevertive (decide (v = 1))
      | none => s
    (s, .plain .ok)
  else (s, .plain .range)

/-- SET_CLOCK (R183). -/
def execSetClock (tag : Byte) (body : List Byte) (s : State) : Host.Outcome State Fault Refusal :=
  hostCommand 0x49 tag body (fun s =>
    s.setClock (if flagAt body 0 0 then some (fieldAt body 1 1) else none)
      (if flagAt body 0 1 then some (fieldAt body 2 1) else none)) s

/-- READ_TIME (R186). -/
def execReadTime (tag : Byte) (body : List Byte) (s : State) : Host.Outcome State Fault Refusal :=
  readCommand 0x4A tag body (fun s => .with .ok (.time s.hck.view)) s

/-- START (R200, R201). -/
def execStart (tag : Byte) (body : List Byte) (s : State) : Host.Outcome State Fault Refusal :=
  hostCommand 0x50 tag body (fun s =>
    if s.running then (s, .plain .notInMode)
    else
      match s.disagreement with
      | some d => (s, .with .state d)
      | none => (s.begin, .plain .ok)) s

/-- RESET (R202): the reply is made and no further command is taken; the reset comes with the reply's last byte. -/
def execReset (tag : Byte) (body : List Byte) (s : State) : Host.Outcome State Fault Refusal :=
  hostCommand 0x51 tag body (fun s => (s.setSvp { s.svp with resetting := true }, .plain .ok)) s

/-- REPORT_ENABLE (R198). -/
def execReportEnable (tag : Byte) (body : List Byte) (s : State) : Host.Outcome State Fault Refusal :=
  hostCommand 0x52 tag body (fun s =>
    let set := fieldAt body 0 2
    if set < 16384 then (s.setSvp { s.svp with enable := set }, .plain .ok) else (s, .plain .range)) s

/-- What READ_PORT returns (R204). -/
def Svp.portData (v : Svp) : ReplyData :=
  .port v.mode v.rate v.buffer.length v.busy.isSome v.reports.length v.lost v.enable v.handle v.discards v.refusals v.drops

/-- READ_PORT (R204). -/
def execReadPort (tag : Byte) (body : List Byte) (s : State) : Host.Outcome State Fault Refusal :=
  hostCommand 0x53 tag body (fun s =>
    let d := s.svp.portData
    (if flagAt body 0 0 then s.setSvp { s.svp with discards := 0, refusals := 0, drops := 0 } else s, .with .ok d)) s

/-! ### The port's own events -/

/-- POWER_ON (R188, R203). -/
def execPowerOn (baud1 baud0 : Bool) (s : State) : Host.Outcome State Fault Refusal := .next (s.poweredOn baud1 baud0)

/-- RESET_N asserted (R202). -/
def execResetN (s : State) : Host.Outcome State Fault Refusal := event State.resetNow s

/-- SUPERVISORY_FRAME: bytes arrive and are framed (R189, R190). -/
def execSupervisoryFrame (bytes : List Byte) (s : State) : Host.Outcome State Fault Refusal :=
  event (fun s => s.setSvp (s.svp.bytes s.tick bytes)) s

/-- FRAME_BYTE_TIMEOUT (R189). -/
def execFrameByteTimeout (s : State) : Host.Outcome State Fault Refusal := event (fun s => s.setSvp (s.svp.dropLate s.tick)) s

/-- UNKNOWN_KIND_FRAME (R191): a taken frame whose kind names no command. -/
def execUnknownKindFrame (kind tag : Byte) (body : List Byte) (s : State) : Host.Outcome State Fault Refusal :=
  event (fun s =>
    let s := s.bringIn ⟨kind, tag, body⟩
    if s.svp.takes ⟨kind, tag, body⟩ && (bodyLength kind body).isNone then s.setSvp (s.svp.makeReply (.plain .unknownKind))
    else s) s

/-- FRAME_SENT (R197). -/
def execFrameSent (s : State) : Host.Outcome State Fault Refusal := event State.frameSent s

/-- RESET_EFFECT (R202): the last byte of the RESET reply has been sent, and the reset takes effect. With any other frame on the
line the row has not come (log entry 6). -/
def execResetEffect (s : State) : Host.Outcome State Fault Refusal :=
  event (fun s => if s.svp.sendingReset then s.frameSent else s) s

end Sys2Proof.Machine
end

