-- ==== Sys2Proof/Machine/Events.lean ====
section
/-! DEFINITION. The events of the lines and the timers, one meaning for each row. A timer's event that has not come changes nothing
(log entry 3); an event of a line that the part does not have faults (log entry 34). -/

namespace Sys2Proof.Machine

/-- An event of a cabinet. -/
def cabinetEvent (c : Nat) (f : State → State) (s : State) : Host.Outcome State Fault Refusal :=
  if cabinetNo c then event f s else .fault .noSuchLine

/-- An event of a pocket. -/
def pocketEvent (c p : Nat) (f : State → State) (s : State) : Host.Outcome State Fault Refusal :=
  if cabinetNo c && pocketNo p then event f s else .fault .noSuchLine

/-- An event of a station. -/
def stationEvent (n : Nat) (f : State → State) (s : State) : Host.Outcome State Fault Refusal :=
  if stationNo n then event f s else .fault .noSuchLine

/-- SCAN_INTERVAL (R34). -/
def execScanInterval (c : Nat) (s : State) : Host.Outcome State Fault Refusal := cabinetEvent c (fun s => s.fireBoundary c) s

/-- POCKET_COUNT (R32 to R36). -/
def execPocketCount (c cycles : Nat) (s : State) : Host.Outcome State Fault Refusal :=
  cabinetEvent c (fun s => s.takeCount c cycles) s

/-- LEARN_MEASUREMENT (R35). -/
def execLearnMeasurement (c cycles : Nat) (s : State) : Host.Outcome State Fault Refusal :=
  cabinetEvent c (fun s => s.takeLearn c cycles) s

/-- PICK_TIMEOUT (R62). -/
def execPickTimeout (request : Nat) (s : State) : Host.Outcome State Fault Refusal := event (fun s => s.firePick request) s

/-- The late-pick memory of a pocket has reached its end tick (R63). -/
def State.latePickDue (s : State) (key : Nat) : Bool :=
  match tget s.isc.latePicks key with
  | some m => decide (m.endTick ≤ s.tick)
  | none => false

/-- LATE_PICK_END (R63): the memory is cleared and a pass starts. -/
def execLatePickEnd (c p : Nat) (s : State) : Host.Outcome State Fault Refusal :=
  pocketEvent c p (fun s =>
    if s.latePickDue (pocketKey c p) then (s.clearLatePick (pocketKey c p)).allocationPass else s) s

/-- PUTAWAY_TIMEOUT (R70). -/
def execPutawayTimeout (tool : Nat) (s : State) : Host.Outcome State Fault Refusal := event (fun s => s.firePutaway tool) s

/-- HEAD_STATUS (R78); a status that is neither READY nor FAULT fails to frame (R207). -/
def execHeadStatus (h : HeadId) (status : Byte) (scaleTemp : BitVec 16) (s : State) : Host.Outcome State Fault Refusal :=
  event (fun s =>
    if status = 0 then (s.headFramed h).takeStatus h true scaleTemp.toInt
    else if status = 1 then (s.headFramed h).takeStatus h false scaleTemp.toInt
    else s.headFailed h (statusFrame status scaleTemp)) s

/-- CAPTURE (R84); a spindle index above 359 fails to frame (R207). -/
def execCapture (h : HeadId) (z x : BitVec 24) (spindle scaleTemp toolTemp : BitVec 16) (flags : Byte) (s : State) :
    Host.Outcome State Fault Refusal :=
  event (fun s =>
    if spindle.toNat ≤ 359 then (s.headFramed h).takeCapture h z x spindle scaleTemp toolTemp flags
    else s.headFailed h (captureFrame z x spindle scaleTemp toolTemp flags)) s

/-- HEAD_FRAME_BYTE_TIMEOUT (R207). -/
def execHeadFrameByteTimeout (h : HeadId) (s : State) : Host.Outcome State Fault Refusal := event (fun s => s.fireHeadBytes h) s

/-- HEAD_SILENCE (R78). -/
def execHeadSilence (h : HeadId) (s : State) : Host.Outcome State Fault Refusal := event (fun s => s.fireSilence h) s

/-- ZERO_AGE_LAPSE (R80). -/
def execZeroAgeLapse (h : HeadId) (s : State) : Host.Outcome State Fault Refusal := event (fun s => s.fireLapse h) s

/-- HEAD_FRAME_DISCARDED (R207): bytes of a head line that do not all frame. -/
def execHeadFrameDiscarded (h : HeadId) (bytes : List Byte) (s : State) : Host.Outcome State Fault Refusal :=
  event (fun s => s.headBytes h bytes) s

/-- HANDOFF_TIMEOUT (R160). -/
def execHandoffTimeout (n : Nat) (s : State) : Host.Outcome State Fault Refusal := stationEvent n (fun s => s.fireHandoff n) s

/-- HOLD_OFF_EXPIRY (R160). -/
def execHoldOffExpiry (n : Nat) (s : State) : Host.Outcome State Fault Refusal := stationEvent n (fun s => s.fireHoldOff n) s

/-- BROADCAST_EXPIRY (R173). -/
def execBroadcastExpiry (number : Nat) (s : State) : Host.Outcome State Fault Refusal :=
  event (fun s => s.fireBroadcast number) s

/-- STATION_BLOCK (R135 to R142, R147, R148). -/
def execStationBlock (n : Nat) (bytes : List Byte) (s : State) : Host.Outcome State Fault Refusal :=
  stationEvent n (fun s => s.linkBytes n bytes) s

/-- ACQUIRE_TIMEOUT (R139). -/
def execAcquireTimeout (n : Nat) (s : State) : Host.Outcome State Fault Refusal := stationEvent n (fun s => s.fireAcquire n) s

/-- LINK_SILENCE (R135). -/
def execLinkSilence (n : Nat) (s : State) : Host.Outcome State Fault Refusal := stationEvent n (fun s => s.fireLinkSilence n) s

/-- BLOCK_PERIOD (R144). -/
def execBlockPeriod (n : Nat) (s : State) : Host.Outcome State Fault Refusal := stationEvent n (fun s => s.firePeriod n) s

/-- OUTSTANDING_TIMEOUT (R146). -/
def execOutstandingTimeout (n : Nat) (s : State) : Host.Outcome State Fault Refusal :=
  stationEvent n (fun s => s.fireOutstanding n) s

/-- ECHO_HELD_TIMEOUT (R148). -/
def execEchoHeldTimeout (n : Nat) (s : State) : Host.Outcome State Fault Refusal := stationEvent n (fun s => s.fireEchoHeld n) s

/-- PPS_PULSE (R178 to R181). -/
def execPpsPulse (l : PulseLine) (s : State) : Host.Outcome State Fault Refusal := event (fun s => s.pulse l) s

/-- STEP_DEADLINE (R178). -/
def execStepDeadline (l : PulseLine) (s : State) : Host.Outcome State Fault Refusal := event (fun s => s.fireDeadline l) s

/-- HALL_SECOND (R177): ISC makes its expiry test (R65). -/
def execHallSecond (s : State) : Host.Outcome State Fault Refusal := event State.expiryTest s

end Sys2Proof.Machine
end

