-- ==== Sys2Proof/Machine/HandoffCommands.lean ====
section
/-! DEFINITION. The commands of handoff: SET_STATION (R156), SET_GROUP and READ_GROUPS (R169), TYPE_HOLD (R170), TYPE_RELEASE (R171),
SEND_DATA, READ_HANDOFF and READ_BROADCAST (R174). -/

namespace Sys2Proof.Machine

/-- A magazine entry, an ISSUED instance's destination or a live request names a place above a count (R156). -/
def State.placeAbove (s : State) (n count : Nat) : Bool :=
  (s.station n).magazine.any (fun e => decide (count < e.1)) ||
  s.trg.insts.any (fun e => e.2.custody == .issued &&
    (match e.2.heldPlace with
     | some (st, p) => decide (st = n) && decide (count < p)
     | none => false)) ||
  s.isc.queue.any (fun r =>
    match r.dest with
    | .station st p => decide (st = n) && decide (count < p)
    | .bench => false)

/-- SET_STATION in its fields (R156). -/
def State.setPlaces (s : State) (n count : Nat) : State × Reply :=
  if (stationNo n && within 1 120 count) = false then (s, .plain .range)
  else if s.placeAbove n count then (s, .plain .state)
  else (s.setStation n { s.station n with places := count }, .plain .ok)

/-- SET_STATION (R156). -/
def execSetStation (tag : Byte) (body : List Byte) (s : State) : Host.Outcome State Fault Refusal :=
  hostCommand 0x40 tag body (fun s => s.setPlaces (fieldAt body 0 1) (fieldAt body 1 1)) s

/-- SET_GROUP (R169). -/
def execSetGroup (tag : Byte) (body : List Byte) (s : State) : Host.Outcome State Fault Refusal :=
  hostCommand 0x41 tag body (fun s =>
    if within 1 8 (fieldAt body 0 1) && (listAt body 1).all stationNo then
      (s.setGroup (fieldAt body 0 1) (asSet (listAt body 1)), .plain .ok)
    else (s, .plain .range)) s

/-- The member stations that a hold or release names (R170). -/
def State.members (s : State) (group : Nat) : List Nat := if group = 0 then allStations else s.group group

/-- The numbers of the instances of a type that a test picks, ascending. -/
def State.toolsOf (s : State) (type : Nat) (p : InstRec → Bool) : List Nat :=
  (s.trg.insts.filter (fun e => decide (e.2.type = type) && p e.2)).map (·.1)

/-- TYPE_HOLD of one instance: QUARANTINE in place (R170). -/
def State.holdTool (s : State) (n : Nat) : State :=
  match s.tool n with
  | some r =>
    (s.move n r { cause := .typeHold, custody := .quarantine, loc := r.loc, qcause := some .typeHold }).tryPutaway n
  | none => s

/-- TYPE_HOLD of one RESERVED instance: release, WAITING_STOCK, then QUARANTINE (R61, R170). -/
def State.holdReserved (s : State) (n : Nat) : State :=
  let r := ((s.tool n).bind (·.link)).bind s.request
  let s := s.releaseTool n false
  let s := match r with
    | some q => s.enterWaiting q.unreserved .typeHold
    | none => s
  s.holdTool n

/-- The held flag of a type. -/
def State.setHeld (s : State) (n : Nat) (t : TypeRec) (held : Bool) : State := s.setType n { t with held := held }

/-- The reply of a hold or release: its broadcast's number, or BUSY without a record (R172, R193). -/
def broadcastReply (number : Option Nat) : Reply :=
  match number with
  | some k => .with .accepted (.handle k)
  | none => .plain .busy

/-- An accepted hold (R170); the data is cancelled station by station, in queue order (log entry 52, the model's choice). -/
def State.hold (s : State) (n : Nat) (t : TypeRec) (group : Nat) : State × Reply :=
  let s := s.setHeld n t true
  let reserved := s.toolsOf n (fun r => r.custody == .reserved)
  let s := reserved.foldl (fun s k => s.holdReserved k) s
  let s := (s.toolsOf n (fun r => r.custody == .ready || r.custody == .staged)).foldl (fun s k => s.holdTool k) s
  let tools := s.toolsOf n (fun r => r.custody == .issued || r.custody == .loaded)
  let s := s.cancelAll (fun x => tools.any (fun k => x.isDataOf k))
  let out := s.createBroadcast .hold n (s.members group)
  (if reserved.isEmpty then out.1 else out.1.allocationPass, broadcastReply out.2)

/-- The checks that TYPE_HOLD and TYPE_RELEASE share: ranges, then presence (R170). -/
def withType (type group : Nat) (f : State → TypeRec → State × Reply) (s : State) : State × Reply :=
  if (typeNo type && within 0 8 group) = false then (s, .plain .range)
  else
    match s.type type with
    | none => (s, .plain .noSuch)
    | some t => f s t

/-- TYPE_HOLD (R170). -/
def execTypeHold (tag : Byte) (body : List Byte) (s : State) : Host.Outcome State Fault Refusal :=
  hostCommand 0x42 tag body (whenRunning (withType (fieldAt body 0 2) (fieldAt body 2 1) (fun s t =>
    if t.held then (s, .plain .held) else s.hold (fieldAt body 0 2) t (fieldAt body 2 1)))) s

/-- The custody that TYPE_RELEASE gives (R171). -/
def InstRec.releasedAs (r : InstRec) : Custody :=
  match r.loc with
  | .pocket _ _ => if r.meas.isSome && decide (0 < r.life) then .ready else .unmeasured
  | .bench => if r.meas.isSome then .staged else .unmeasured
  | _ => .unmeasured

/-- TYPE_RELEASE of one instance (R171, step 2). -/
def State.releaseHeld (s : State) (n : Nat) : State :=
  match s.tool n with
  | some r => s.move n r { cause := .typeRelease, custody := r.releasedAs, loc := r.loc }
  | none => s

/-- A TOOL_DATA for the instance is queued at the station. -/
def State.dataQueued (s : State) (st n : Nat) : Bool := (s.station st).queue.any (fun t => t.kind.isDataOf n)

/-- TYPE_RELEASE's verification and data for an ISSUED instance (R171, step 3). -/
def State.supplyIssued (s : State) (n : Nat) : State :=
  let s := s.verify n
  match s.tool n with
  | none => s
  | some r =>
    match r.custody, r.heldPlace with
    | .issued, some (st, place) =>
      let confirmed := ((s.station st).entryOf n).map (fun e => (e.1, e.2.confirmed))
      if confirmed = some (place, some r.generation) ∨ s.dataQueued st n = true then s else s.supplyData st place n
    | _, _ => s

/-- TYPE_RELEASE's data for a LOADED instance with the owed mark (R171, step 3). -/
def State.supplyLoaded (s : State) (n : Nat) : State :=
  match s.tool n with
  | none => s
  | some r =>
    match r.custody, r.heldPlace with
    | .loaded, some (st, place) => if r.owed then s.supplyData st place n else s
    | _, _ => s

/-- An accepted release (R171). -/
def State.release (s : State) (n : Nat) (t : TypeRec) (group : Nat) : State × Reply :=
  let s := s.setHeld n t false
  let held := s.toolsOf n (fun r => r.custody == .quarantine && r.qcause == some .typeHold)
  let s := held.foldl (fun s k => s.releaseHeld k) s
  let s := (s.toolsOf n (fun r => r.custody == .issued)).foldl (fun s k => s.supplyIssued k) s
  let s := (s.toolsOf n (fun r => r.custody == .loaded)).foldl (fun s k => s.supplyLoaded k) s
  let out := s.createBroadcast .release n (s.members group)
  (held.foldl (fun s k => s.tryPutaway k) out.1.allocationPass, broadcastReply out.2)

/-- TYPE_RELEASE (R171). -/
def execTypeRelease (tag : Byte) (body : List Byte) (s : State) : Host.Outcome State Fault Refusal :=
  hostCommand 0x43 tag body (whenRunning (withType (fieldAt body 0 2) (fieldAt body 2 1) (fun s t =>
    if t.held then s.release (fieldAt body 0 2) t (fieldAt body 2 1) else (s, .plain .state)))) s

/-- SEND_DATA on a record (R174). -/
def State.sendData (s : State) (n : Nat) (r : InstRec) : State × Reply :=
  match r.heldPlace with
  | none => (s, .plain .state)
  | some (st, place) =>
    if s.typeHeld r.type then (s, .plain .held)
    else if (s.pendingTxn st (fun k => k.isDataOf n)).isNone && s.queueFull st then (s, .plain .full)
    else (s.supplyData st place n, .with .accepted (.handle s.hoe.nextTxn))

/-- SEND_DATA (R174). -/
def execSendData (tag : Byte) (body : List Byte) (s : State) : Host.Outcome State Fault Refusal :=
  hostCommand 0x44 tag body
    (whenRunning (withTool (fieldAt body 0 2) (fun s r => s.sendData (fieldAt body 0 2) r))) s

/-- READ_HANDOFF (R174); a station out of range is answered RANGE (log entry 34). -/
def execReadHandoff (tag : Byte) (body : List Byte) (s : State) : Host.Outcome State Fault Refusal :=
  readCommand 0x45 tag body (fun s =>
    let n := fieldAt body 0 1
    if stationNo n then .with .ok (.handoff n (s.station n)) else .plain .range) s

/-- READ_GROUPS (R169). -/
def execReadGroups (tag : Byte) (body : List Byte) (s : State) : Host.Outcome State Fault Refusal :=
  readCommand 0x46 tag body (fun s =>
    .with .ok (.groups ((List.range 8).map (fun i => s.group (i + 1))))) s

/-- READ_BROADCAST (R174). -/
def execReadBroadcast (tag : Byte) (body : List Byte) (s : State) : Host.Outcome State Fault Refusal :=
  readCommand 0x47 tag body (fun s =>
    let number := fieldAt body 0 1
    if within 1 255 number = false then .plain .range
    else
      match s.broadcast number with
      | none => .plain .noSuch
      | some b => .with .ok (.broadcast b b.worst)) s

end Sys2Proof.Machine
end

