-- ==== Sys2Proof/Machine/HeadCommands.lean ====
section
/-! DEFINITION. The commands of presetting: SET_CURVE (R99), SET_HEAD (R100, R94), ZERO_HEAD (R81), MEASURE_BEGIN (R87, R88),
MEASURE_END (R89 to R91), MEASURE_ABORT (R92), READ_HEAD (R95). -/

namespace Sys2Proof.Machine

/-- The reference zero is removed; the ZERO_STATE report of the removal follows wherever a zero was present (R94). -/
def State.removeZero (s : State) (h : HeadId) : State :=
  let r := s.head h
  let s := s.setHead h { r with zero := none, zeroOk := false }
  if r.zero.isSome then s.report (.zeroState h false .removed) else s

/-- An accepted SET_CURVE: the table, the removed zero, and availability (R94, R99). -/
def State.loadCurve (s : State) (h : HeadId) (axis : Nat) (values : List Int) : State :=
  let r := s.head h
  let s := s.setHead h (if axis = 0 then { r with zCurve := some values } else { r with xCurve := some values })
  (s.removeZero h).testAvailable h r.available

/-- SET_CURVE in its fields (R99). -/
def State.setCurve (s : State) (head axis : Nat) (values : List Int) : State × Reply :=
  match headOf head with
  | none => (s, .plain .range)
  | some h =>
    if 1 < axis then (s, .plain .range)
    else if (s.head h).session.isSome then (s, .plain .busy)
    else if values.length ≠ (if axis = 0 then 17 else 9) then (s, .plain .badLength)
    else if values.all (fun v => decide (-2000 ≤ v) && decide (v ≤ 2000)) then (s.loadCurve h axis values, .plain .ok)
    else (s, .plain .range)

/-- SET_CURVE (R99). -/
def execSetCurve (tag : Byte) (body : List Byte) (s : State) : Host.Outcome State Fault Refusal :=
  hostCommand 0x28 tag body (fun s => s.setCurve (fieldAt body 0 1) (fieldAt body 1 1) (signedPairs (body.drop 3))) s

/-- A field of SET_HEAD, given or left unchanged. -/
def given (flag : Bool) (new old : Nat) : Nat := if flag then new else old

/-- The settings that SET_HEAD would leave (R94, R100, 11.3). -/
def headFields (b : List Byte) (old : HeadSettings) : HeadSettings :=
  { masterLength := given (flagAt b 1 0) (fieldAt b 4 3) old.masterLength
    masterRadius := given (flagAt b 1 1) (fieldAt b 7 3) old.masterRadius
    scaleCoeff := given (flagAt b 1 2) (fieldAt b 10 2) old.scaleCoeff
    offsets := (List.range 16).map (fun c =>
      if (fieldAt b 2 2).testBit c then signedAt b (12 + 3 * c) 3 else old.offsets.getD c 0)
    k := given (flagAt b 1 3) (fieldAt b 60 1) old.k
    n := given (flagAt b 1 4) (fieldAt b 61 1) old.n
    band := given (flagAt b 1 5) (fieldAt b 62 2) old.band
    zeroLife := given (flagAt b 1 6) (fieldAt b 64 1) old.zeroLife
    drift := given (flagAt b 1 7) (fieldAt b 65 2) old.drift }

/-- The ranges of the head settings; those in force already lie within them (R94, R100). -/
def HeadSettings.inRange (h : HeadSettings) : Bool :=
  decide (h.masterLength ≤ 4000000) && decide (h.masterRadius ≤ 1500000) && decide (h.scaleCoeff ≤ 3000) &&
  h.offsets.all (fun v => decide (-100000 ≤ v) && decide (v ≤ 100000)) && decide (2 ≤ h.k) && within 3 10 h.n &&
  within 1 500 h.band && within 1 24 h.zeroLife && within 10 500 h.drift && decide (h.k ≤ h.n)

/-- Accepted head settings, with validity tested again (R94, R80). -/
def State.putHeadSettings (s : State) (h : HeadId) (new : HeadSettings) : State :=
  let r := s.head h
  let cause : ZeroReason := if r.ageOk s.tick then .temperature else .age
  (s.setHead h { r with settings := new }).testZero h cause

/-- SET_HEAD (R100). -/
def execSetHead (tag : Byte) (body : List Byte) (s : State) : Host.Outcome State Fault Refusal :=
  hostCommand 0x29 tag body (fun s =>
    match headOf (fieldAt body 0 1) with
    | none => (s, .plain .range)
    | some h =>
      if (s.head h).session.isSome then (s, .plain .busy)
      else
        let new := headFields body (s.head h).settings
        if new.inRange then (s.putHeadSettings h new, .plain .ok) else (s, .plain .range)) s

/-- A session opens: its record and the SESSION_STATE (R81, R88). -/
def State.openSession (s : State) (h : HeadId) (kind : SessionKind) (handle : Nat) : State :=
  (s.setSession h { kind := kind, handle := handle, state := .capturing, captures := [], windowStart := 1, result := none }).sendSession h

/-- ZERO_HEAD in RUNNING (R81). -/
def State.zeroHead (s : State) (head : Nat) : State × Reply :=
  match headOf head with
  | none => (s, .plain .range)
  | some h =>
    if (s.head h).session.isSome then (s, .plain .busy)
    else if (s.head h).available = false then (s, .plain .state)
    else (s.takeHandle.openSession h .zero s.svp.handle, .with .accepted (.handle s.svp.handle))

/-- ZERO_HEAD (R81). -/
def execZeroHead (tag : Byte) (body : List Byte) (s : State) : Host.Outcome State Fault Refusal :=
  hostCommand 0x2A tag body (whenRunning (fun s => s.zeroHead (fieldAt body 0 1))) s

/-- MEASURE_BEGIN takes an instance in this custody and location (R87). -/
def InstRec.measurable (r : InstRec) : Bool :=
  match r.custody, r.loc with
  | .unmeasured, .pocket _ _ => true
  | .unmeasured, .bench => true
  | .ready, _ => true
  | .quarantine, _ => true
  | .regrindDue, _ => true
  | .missing, _ => true
  | _, _ => false

/-- An accepted MEASURE_BEGIN (R88): the transition, then PSC, ISC and MSU. -/
def State.beginMeasure (s : State) (h : HeadId) (n : Nat) (r : InstRec) : State :=
  let handle := s.svp.handle
  let s := s.takeHandle.move n r { cause := .measureBegin, custody := .atPresetter, loc := .head h }
  let s := ((s.departPocket r.loc n .presetting).leavePutaway n).clearLatePicksOf n
  s.openSession h (.measure n r.custody r.qcause) handle

/-- MEASURE_BEGIN in RUNNING (R87). -/
def State.measureBegin (s : State) (head n : Nat) : State × Reply :=
  match headOf head with
  | none => (s, .plain .range)
  | some h =>
    withTool n (fun s r =>
      if (s.head h).session.isSome then (s, .plain .busy)
      else if (s.head h).available = false then (s, .plain .state)
      else if (s.head h).zeroValid s.tick = false then (s, .plain .zeroStale)
      else if r.measurable && s.vacant n (.head h) then
        (s.beginMeasure h n r, .with .accepted (.handle s.svp.handle))
      else (s, .plain .state)) s

/-- MEASURE_BEGIN (R87, R88). -/
def execMeasureBegin (tag : Byte) (body : List Byte) (s : State) : Host.Outcome State Fault Refusal :=
  hostCommand 0x2B tag body (whenRunning (fun s => s.measureBegin (fieldAt body 0 1) (fieldAt body 1 2))) s

/-- MEASURE_END in RUNNING (R89 to R91). -/
def State.measureEnd (s : State) (head : Nat) : State × Reply :=
  match headOf head with
  | none => (s, .plain .range)
  | some h =>
    match (s.head h).session with
    | none => (s, .plain .state)
    | some x =>
      match x.kind with
      | .zero => (s, .plain .state)
      | .measure n entry entryCause =>
        let m := s.endMove h x n entry entryCause
        let after := redirect m.1.custody (((s.tool n).map (·.life)).getD 0)
        (s.closeMeasure h x n .ended x.held m.1 m.2, .with .ok (.sessionEnd x.held after))

/-- MEASURE_END (R89). -/
def execMeasureEnd (tag : Byte) (body : List Byte) (s : State) : Host.Outcome State Fault Refusal :=
  hostCommand 0x2C tag body (whenRunning (fun s => s.measureEnd (fieldAt body 0 1))) s

/-- MEASURE_ABORT in RUNNING (R92). -/
def State.measureAbort (s : State) (head : Nat) : State × Reply :=
  match headOf head with
  | none => (s, .plain .range)
  | some h =>
    if (s.head h).session.isNone then (s, .plain .state) else (s.abandonSession h .abort, .plain .ok)

/-- MEASURE_ABORT (R92). -/
def execMeasureAbort (tag : Byte) (body : List Byte) (s : State) : Host.Outcome State Fault Refusal :=
  hostCommand 0x2D tag body (whenRunning (fun s => s.measureAbort (fieldAt body 0 1))) s

/-- READ_HEAD (R95); the age of the zero is in whole seconds, rounded down (log entry 74, the model's choice). -/
def execReadHead (tag : Byte) (body : List Byte) (s : State) : Host.Outcome State Fault Refusal :=
  readCommand 0x2E tag body (fun s =>
    match headOf (fieldAt body 0 1) with
    | none => .plain .range
    | some h =>
      let r := s.head h
      .with .ok (.head h r r.reason (r.zero.map (fun z => (s.tick - z.tick) / 1000)) (r.ageOk s.tick) r.tempOk)) s

end Sys2Proof.Machine
end

