-- ==== Sys2Proof/Machine/LinkCommands.lean ====
section
/-! DEFINITION. The commands of the station links: SET_LINK (R139), LINK_RESTART (R151), READ_LINK (R152). -/

namespace Sys2Proof.Machine

/-- A policy by its code (11.3). -/
def policyOf (n : Nat) : Option Policy :=
  match n with
  | 0 => some .auto
  | 1 => some .checkOnly
  | 2 => some .echoOnly
  | _ => none

/-- An accepted SET_LINK (R139). -/
def State.setPolicy (s : State) (n : Nat) (p : Policy) : State :=
  let s := s.modLink n (fun l => { l with policy := p })
  if p = .echoOnly ∧ (s.link n).state = .acquiring then s.toEcho n .policy else s

/-- SET_LINK (R139). -/
def execSetLink (tag : Byte) (body : List Byte) (s : State) : Host.Outcome State Fault Refusal :=
  hostCommand 0x38 tag body (fun s =>
    match policyOf (fieldAt body 1 1) with
    | none => (s, .plain .range)
    | some p =>
      if stationNo (fieldAt body 0 1) then (s.setPolicy (fieldAt body 0 1) p, .plain .ok) else (s, .plain .range)) s

/-- LINK_RESTART on a station's link (R151). -/
def State.linkRestart (s : State) (n : Nat) : State × Reply :=
  match (s.link n).state with
  | .down => (s, .plain .state)
  | .searching => (s.modLink n (fun l => { l with rx := [] }), .plain .ok)
  | _ => ((s.toSearching n .restart).modLink n (fun l => { l with rx := [] }), .plain .ok)

/-- LINK_RESTART (R151). -/
def execLinkRestart (tag : Byte) (body : List Byte) (s : State) : Host.Outcome State Fault Refusal :=
  hostCommand 0x39 tag body (fun s =>
    if stationNo (fieldAt body 0 1) then s.linkRestart (fieldAt body 0 1) else (s, .plain .range)) s

/-- READ_LINK (R152). -/
def execReadLink (tag : Byte) (body : List Byte) (s : State) : Host.Outcome State Fault Refusal :=
  readCommand 0x3A tag body (fun s =>
    let n := fieldAt body 0 1
    if stationNo n then .with .ok (.link n (s.link n) (s.link n).bad (s.link n).density.length) else .plain .range) s

end Sys2Proof.Machine
end

