-- ==== Sys2Proof/Machine/Dispatch.lean ====
section
/-! DEFINITION. One arm for each command of the table, in its order. -/

namespace Sys2Proof.Machine

def exec (i : Instr) (s : State) : Host.Outcome State Fault Refusal :=
  match i with
  | .powerOn baud1 baud0 => Sys2Proof.Machine.execPowerOn baud1 baud0 s
  | .resetN => Sys2Proof.Machine.execResetN s
  | .supervisoryFrame bytes => Sys2Proof.Machine.execSupervisoryFrame bytes s
  | .frameByteTimeout => Sys2Proof.Machine.execFrameByteTimeout s
  | .unknownKindFrame kind tag body => Sys2Proof.Machine.execUnknownKindFrame kind tag body s
  | .frameSent => Sys2Proof.Machine.execFrameSent s
  | .resetEffect => Sys2Proof.Machine.execResetEffect s
  | .loadType tag body => Sys2Proof.Machine.execLoadType tag body s
  | .deleteType tag body => Sys2Proof.Machine.execDeleteType tag body s
  | .readType tag body => Sys2Proof.Machine.execReadType tag body s
  | .register tag body => Sys2Proof.Machine.execRegister tag body s
  | .loadInstance tag body => Sys2Proof.Machine.execLoadInstance tag body s
  | .quarantineTool tag body => Sys2Proof.Machine.execQuarantineTool tag body s
  | .clearQuarantine tag body => Sys2Proof.Machine.execClearQuarantine tag body s
  | .retire tag body => Sys2Proof.Machine.execRetire tag body s
  | .delete tag body => Sys2Proof.Machine.execDelete tag body s
  | .readInstance tag body => Sys2Proof.Machine.execReadInstance tag body s
  | .listInstances tag body => Sys2Proof.Machine.execListInstances tag body s
  | .setCabinet tag body => Sys2Proof.Machine.execSetCabinet tag body s
  | .setPockets tag body => Sys2Proof.Machine.execSetPockets tag body s
  | .learnEmpty tag body => Sys2Proof.Machine.execLearnEmpty tag body s
  | .scanOnce tag body => Sys2Proof.Machine.execScanOnce tag body s
  | .identify tag body => Sys2Proof.Machine.execIdentify tag body s
  | .readPocket tag body => Sys2Proof.Machine.execReadPocket tag body s
  | .readCabinet tag body => Sys2Proof.Machine.execReadCabinet tag body s
  | .issue tag body => Sys2Proof.Machine.execIssue tag body s
  | .cancel tag body => Sys2Proof.Machine.execCancel tag body s
  | .handOut tag body => Sys2Proof.Machine.execHandOut tag body s
  | .benchReturn tag body => Sys2Proof.Machine.execBenchReturn tag body s
  | .setIssue tag body => Sys2Proof.Machine.execSetIssue tag body s
  | .nextToMeasure tag body => Sys2Proof.Machine.execNextToMeasure tag body s
  | .readRequest tag body => Sys2Proof.Machine.execReadRequest tag body s
  | .listRequests tag body => Sys2Proof.Machine.execListRequests tag body s
  | .readPutaway tag body => Sys2Proof.Machine.execReadPutaway tag body s
  | .setCurve tag body => Sys2Proof.Machine.execSetCurve tag body s
  | .setHead tag body => Sys2Proof.Machine.execSetHead tag body s
  | .zeroHead tag body => Sys2Proof.Machine.execZeroHead tag body s
  | .measureBegin tag body => Sys2Proof.Machine.execMeasureBegin tag body s
  | .measureEnd tag body => Sys2Proof.Machine.execMeasureEnd tag body s
  | .measureAbort tag body => Sys2Proof.Machine.execMeasureAbort tag body s
  | .readHead tag body => Sys2Proof.Machine.execReadHead tag body s
  | .regrindOut tag body => Sys2Proof.Machine.execRegrindOut tag body s
  | .regrindBack tag body => Sys2Proof.Machine.execRegrindBack tag body s
  | .setLink tag body => Sys2Proof.Machine.execSetLink tag body s
  | .linkRestart tag body => Sys2Proof.Machine.execLinkRestart tag body s
  | .readLink tag body => Sys2Proof.Machine.execReadLink tag body s
  | .setStation tag body => Sys2Proof.Machine.execSetStation tag body s
  | .setGroup tag body => Sys2Proof.Machine.execSetGroup tag body s
  | .typeHold tag body => Sys2Proof.Machine.execTypeHold tag body s
  | .typeRelease tag body => Sys2Proof.Machine.execTypeRelease tag body s
  | .sendData tag body => Sys2Proof.Machine.execSendData tag body s
  | .readHandoff tag body => Sys2Proof.Machine.execReadHandoff tag body s
  | .readGroups tag body => Sys2Proof.Machine.execReadGroups tag body s
  | .readBroadcast tag body => Sys2Proof.Machine.execReadBroadcast tag body s
  | .setTime tag body => Sys2Proof.Machine.execSetTime tag body s
  | .setClock tag body => Sys2Proof.Machine.execSetClock tag body s
  | .readTime tag body => Sys2Proof.Machine.execReadTime tag body s
  | .start tag body => Sys2Proof.Machine.execStart tag body s
  | .reset tag body => Sys2Proof.Machine.execReset tag body s
  | .reportEnable tag body => Sys2Proof.Machine.execReportEnable tag body s
  | .readPort tag body => Sys2Proof.Machine.execReadPort tag body s
  | .scanInterval cabinet => Sys2Proof.Machine.execScanInterval cabinet s
  | .pocketCount cabinet cycles => Sys2Proof.Machine.execPocketCount cabinet cycles s
  | .learnMeasurement cabinet cycles => Sys2Proof.Machine.execLearnMeasurement cabinet cycles s
  | .pickTimeout request => Sys2Proof.Machine.execPickTimeout request s
  | .latePickEnd cabinet pocket => Sys2Proof.Machine.execLatePickEnd cabinet pocket s
  | .putawayTimeout tool => Sys2Proof.Machine.execPutawayTimeout tool s
  | .headStatus head status scaleTemp => Sys2Proof.Machine.execHeadStatus head status scaleTemp s
  | .capture head z x spindle scaleTemp toolTemp flags => Sys2Proof.Machine.execCapture head z x spindle scaleTemp toolTemp flags s
  | .headFrameByteTimeout head => Sys2Proof.Machine.execHeadFrameByteTimeout head s
  | .headSilence head => Sys2Proof.Machine.execHeadSilence head s
  | .zeroAgeLapse head => Sys2Proof.Machine.execZeroAgeLapse head s
  | .handoffTimeout station => Sys2Proof.Machine.execHandoffTimeout station s
  | .holdOffExpiry station => Sys2Proof.Machine.execHoldOffExpiry station s
  | .broadcastExpiry number => Sys2Proof.Machine.execBroadcastExpiry number s
  | .stationBlock station bytes => Sys2Proof.Machine.execStationBlock station bytes s
  | .acquireTimeout station => Sys2Proof.Machine.execAcquireTimeout station s
  | .linkSilence station => Sys2Proof.Machine.execLinkSilence station s
  | .blockPeriod station => Sys2Proof.Machine.execBlockPeriod station s
  | .outstandingTimeout station => Sys2Proof.Machine.execOutstandingTimeout station s
  | .echoHeldTimeout station => Sys2Proof.Machine.execEchoHeldTimeout station s
  | .ppsPulse line => Sys2Proof.Machine.execPpsPulse line s
  | .stepDeadline line => Sys2Proof.Machine.execStepDeadline line s
  | .hallSecond => Sys2Proof.Machine.execHallSecond s
  | .headFrameDiscarded head bytes => Sys2Proof.Machine.execHeadFrameDiscarded head bytes s

end Sys2Proof.Machine
end

