-- ==== Sys2Proof/Machine/Idle.lean ====
section
/-! DEFINITION. What happens on an empty queue: the next frame of the receive buffer is taken, or the part's time base advances by
one millisecond and the events that have come join the queue (log entries 1 and 2). -/

namespace Sys2Proof.Machine

/-- A one-element list where a condition holds. -/
def onlyIf (c : Bool) (i : Instr) : List Instr := if c then [i] else []

/-- The two heads. -/
def bothHeads : List HeadId := [.a, .b]

/-- The events of SVP, the heads' receivers and the clock that have come (R189, R207, R177, R178). -/
def State.dueClock (s : State) (newSecond : Bool) : List Instr :=
  onlyIf (s.svp.byteLate s.tick) .frameByteTimeout ++
  (bothHeads.map (fun h => onlyIf ((s.head h).byteLate s.tick) (.headFrameByteTimeout h))).flatten ++
  onlyIf newSecond .hallSecond ++
  ([PulseLine.primary, .secondary].map (fun l => onlyIf (s.deadlineDue l) (.stepDeadline l))).flatten

/-- The events of the crib and of issue that have come (R34, R62, R63, R70). -/
def State.dueCrib (s : State) : List Instr :=
  (allCabinets.map (fun c => onlyIf (s.boundaryDue c) (.scanInterval c))).flatten ++
  (s.isc.queue.map (fun r => onlyIf (s.pickDue r) (.pickTimeout r.number))).flatten ++
  (s.isc.latePicks.map (fun e => onlyIf (s.latePickDue e.1) (.latePickEnd (keyCabinet e.1) (keyPocket e.1)))).flatten ++
  (s.isc.assigned.map (fun e => onlyIf (s.putawayDue e.2) (.putawayTimeout e.1))).flatten

/-- The events of the heads, the links, handoff and broadcasts that have come (R78, R80, R135, R160, R173). -/
def State.dueLines (s : State) : List Instr :=
  (bothHeads.map (fun h => onlyIf (s.silenceDue h) (.headSilence h))).flatten ++
  (bothHeads.map (fun h => onlyIf (s.lapseDue h) (.zeroAgeLapse h))).flatten ++
  (allStations.map (fun n => onlyIf (s.silentLink n) (.linkSilence n))).flatten ++
  (allStations.map (fun n => onlyIf (s.handoffDue n).isSome (.handoffTimeout n))).flatten ++
  (allStations.map (fun n => onlyIf (s.holdOffDue n) (.holdOffExpiry n))).flatten ++
  ((s.hoe.broadcasts.filterMap id).map (fun b => onlyIf (s.broadcastDue b) (.broadcastExpiry b.number))).flatten

/-- The block period of every link, each with what it finds run out (R132, R146, R148). -/
def State.duePeriods (s : State) : List Instr :=
  if s.tick % 4 = 0 then
    (allStations.map (fun n =>
      onlyIf (!(s.overdue n).isEmpty) (.outstandingTimeout n) ++ onlyIf (s.echoHeldDue n) (.echoHeldTimeout n) ++
      [Instr.blockPeriod n])).flatten
  else []

/-- One millisecond passes, and the events that have come join the empty queue in a fixed order (log entry 2). -/
def State.elapse (s : State) : State :=
  let second := s.hck.hall.sec
  let s := { s.quiet with hck := s.hck.elapse }
  { s with pending := s.dueClock (decide (s.hck.hall.sec ≠ second)) ++ s.dueCrib ++ s.dueLines ++ s.duePeriods }

/-- The frame that SVP takes next, if any (R191, R202). -/
def Svp.nextFrame (v : Svp) : Option HostFrame := if v.resetting then none else v.untaken.head?

/-- The step on an empty queue: the next frame, an acquisition timeout that stands, or a millisecond. -/
def State.idle (s : State) : Host.Outcome State Fault Refusal :=
  match s.svp.nextFrame with
  | some f => exec (commandOf f.kind f.tag f.body) s
  | none =>
    match allStations.find? (fun n => s.acquireDue n) with
    | some n => .next { s with pending := [Instr.acquireTimeout n] }
    | none => .next s.elapse

end Sys2Proof.Machine
end

