-- ==== Sys2Proof/Safety.lean ====
section
/-! DEFINITION. The terms of the claims: when SVP takes a command at once, what SVP holds after it, a frame as its bytes, and the
ranges within which every block keeps its state. -/

namespace Sys2Proof.Machine

/-! ### Commands and their answers -/

/-- SVP takes the command's frame at once, and its body has the length of its kind (R190, R191, R202): the frame stands next in
the buffer, or joins it there, and no RESET waits. -/
def State.takesNow (s : State) (kind tag : Byte) (body : List Byte) : Bool :=
  bodyFits kind body && (s.bringIn ⟨kind, tag, body⟩).svp.takes ⟨kind, tag, body⟩

/-- SVP after these reports, handed over in this order at one hall time (R196). -/
def Svp.handed (v : Svp) (time : HallTime) (rs : List Report) : Svp := rs.foldl (fun v r => v.report time r) v

/-- SVP after a command taken at once: its frame in the buffer, the reports it raised, its reply, and a free transmitter started
(R190, R191, R196, R197). -/
def State.svpAnswered (s : State) (kind tag : Byte) (body : List Byte) (rs : List Report) (r : Reply) : Svp :=
  (((s.bringIn ⟨kind, tag, body⟩).svp.handed s.now rs).makeReply r).startTx

/-- SVP after an event that raised these reports (R196, R197). -/
def State.svpReported (s : State) (rs : List Report) : Svp := (s.svp.handed s.now rs).startTx

/-- The state after a command taken at once that changes nothing and raises no report: its reply alone (R191). -/
def State.answered (s : State) (kind tag : Byte) (body : List Byte) (r : Reply) : State :=
  { s with svp := s.svpAnswered kind tag body [] r, lines := Lines.quiet }

/-- An instance that a command names nothing of: unchanged, but that HOE may set or clear its handoff owed and that an
allocation pass may reserve it from READY or STAGED (R57, R163). -/
def InstRec.PassedBy (i j : InstRec) : Prop :=
  j = { i with owed := j.owed } ∨
  ((i.custody = .ready ∨ i.custody = .staged) ∧
    j = { i with custody := .reserved, link := j.link, qcause := none, owed := j.owed } ∧ j.link.isSome = true)

/-- Every instance but one is passed by. -/
def State.OthersPassedBy (s t : State) (n : Nat) : Prop :=
  ∀ m, m ≠ n → (s.tool m = none → t.tool m = none) ∧ (∀ i, s.tool m = some i → ∃ j, t.tool m = some j ∧ i.PassedBy j)

/-- Every instance is passed by. -/
def State.AllPassedBy (s t : State) : Prop :=
  ∀ m, (s.tool m = none → t.tool m = none) ∧ (∀ i, s.tool m = some i → ∃ j, t.tool m = some j ∧ i.PassedBy j)

/-- Every instance but one stands as it stood. -/
def State.OthersStand (s t : State) (n : Nat) : Prop := ∀ m, m ≠ n → t.tool m = s.tool m

/-- Beside TRG, PSC, ISC and HOE, and the port, nothing of the part has changed: the queue of commands, HCK, MSU and SLC stand,
and no frame went to a head. -/
def State.ToolsOnly (s t : State) : Prop :=
  t.pending = s.pending ∧ t.hck = s.hck ∧ t.msu = s.msu ∧ t.slc = s.slc ∧ t.lines = Lines.quiet ∧ t.trg.types = s.trg.types

/-- Beside the instances, the crib, issue, handoff and the port, nothing of the part has changed, and the port has only taken these
reports. -/
def State.Raises (s t : State) (rs : List Report) : Prop :=
  t = { s with
    trg := { types := s.trg.types, insts := t.trg.insts }, psc := t.psc, isc := t.isc, hoe := t.hoe
    svp := s.svp.handed s.now rs }

/-- A live request that an URGENT one evicts: the PREFETCH request in QUEUED, WAITING_STOCK or RESERVED with the latest enqueue tick,
among equal ticks the last to enter (R54). -/
def State.Evicts (s : State) (v : Request) : Prop :=
  v ∈ s.isc.queue ∧ v.prio = .prefetch ∧ v.state ≠ .issued ∧
  ∀ r ∈ s.isc.queue, r ≠ v → r.prio = .prefetch → r.state ≠ .issued →
    r.enqTick < v.enqTick ∨ (r.enqTick = v.enqTick ∧ r.entry < v.entry)

/-- What the release of a request's reservation reports first (R61): nothing where it holds none. -/
def State.Releases (s : State) (v : Request) (n : Nat) (rs : List Report) : Prop :=
  ((v.state = .queued ∨ v.state = .waitingStock) ∧ rs = []) ∨
  (v.state = .reserved ∧ v.tool = some n ∧
    ∃ i, s.tool n = some i ∧ i.custody = .reserved ∧ (i.loc = .bench ∨ ∃ c p, i.loc = .pocket c p) ∧
      rs = [.custodyChange n i.type (some .reserved) i.loc
        (some (if i.life = 0 then .regrindDue else if i.loc = .bench then .staged else .ready)) i.loc .release none])

/-- A live request after a new need folds into it (R53). -/
def Request.folded (r : Request) (q : NewRequest) : Request :=
  { r with
    prio := if r.prio.rank ≤ q.prio.rank then r.prio else q.prio
    neededBy := match r.neededBy, q.neededBy with
      | some x, some y => some (min x y)
      | some x, none => some x
      | none, y => y
    minLife := match r.minLife, q.minLife with
      | some x, some y => some (max x y)
      | some x, none => some x
      | none, y => y }

/-- A new need as the request that enters now under a number (R50, R51, R52). -/
def State.entrant (s : State) (q : NewRequest) (k : Nat) : Request :=
  { number := k, origin := q.origin, type := q.type, dest := q.dest, prio := q.prio, neededBy := q.neededBy, minLife := q.minLife
    state := .queued, tool := none, misses := 0, enqTick := s.tick, reserveTick := none, entry := s.isc.entries }

/-- The part without a live request, as its request numbers stand once it has left the queue and its reservation, where it holds
one, is released: it is out of the queue, and the request link of its instance is cleared (R48, R61). -/
def State.without (s : State) (v : Request) : State :=
  { s with
    isc := { s.isc with queue := s.isc.queue.filter (fun x => x.number ≠ v.number) }
    trg := { s.trg with
      insts := s.trg.insts.map (fun e => if v.state = .reserved ∧ v.tool = some e.1 then (e.1, { e.2 with link := none }) else e) } }

/-- Where a picked instance goes (R59). -/
def Dest.transit (d : Dest) : Location :=
  match d with
  | .station st place => .toStation st place
  | .bench => .toBench

/-- A pocket that a command or event names nothing of: unchanged, but that ISC may assign it where it stands EMPTY (R68). -/
def Pocket.PassedBy (p q : Pocket) : Prop := q = p ∨ (p.state = .empty ∧ q = { p with state := .expectPlace })

/-- An automatic pass measures an enabled pocket, and another enabled pocket follows it in the pass. -/
def State.measures (s : State) (c p q : Nat) : Prop :=
  1 ≤ c ∧ c ≤ 12 ∧ 1 ≤ p ∧ p < q ∧ q ≤ 64 ∧ (s.cab c).pass = some (.auto p) ∧ (s.pocket c p).enabled = true ∧
  (s.pocket c q).enabled = true ∧ ∀ k, p < k → k < q → (s.pocket c k).enabled = false

/-- The classification that a presence has (R33). -/
def Presence.classified (e : Presence) : Classification :=
  match e with
  | .present => .isPresent
  | .absent => .isAbsent
  | .undecided => .noChange

/-- The count measured completes the debounce of a sensing pocket as a change to this presence (R36). -/
def State.completes (s : State) (c p q cycles : Nat) (e : Presence) : Prop :=
  s.measures c p q ∧ (s.pocket c p).sensing = true ∧ (s.pocket c p).sensed ≠ .undecided ∧ (s.pocket c p).sensed ≠ e ∧
  e ≠ .undecided ∧ (s.pocket c p).classify (countOf cycles) = e.classified ∧
  (s.cab c).settings.debounce ≤ (s.pocket c p).run + 1

/-- These frames alone went out, all to one head. -/
def Lines.toHead (h : HeadId) (frames : List (List Byte)) : Lines :=
  match h with
  | .a => { headA := frames, headB := [], sv := none, svBytes := [] }
  | .b => { headA := [], headB := frames, sv := none, svBytes := [] }

/-- The SESSION_STATE frame that tells a head of its session as it stands (R207). -/
def State.sessionFrame (s : State) (h : HeadId) : List Byte := headFrame 0x11 (s.sessionStateBody h)

/-- A session that has just opened (R81, R88). -/
def Session.opened (kind : SessionKind) (handle : Nat) : Session :=
  { kind := kind, handle := handle, state := .capturing, captures := [], windowStart := 1, result := none }

/-- Beside one head, the port and the lines, nothing of the part has changed. -/
def State.HeadOnly (s t : State) (h : HeadId) : Prop :=
  (∀ k, k ≠ h → t.head k = s.head k) ∧ t = { s with msu := t.msu, svp := t.svp, lines := t.lines }

/-- Beside the register, the crib, issue, handoff, one head, the port and the lines, nothing of the part has changed. -/
def State.HeadAndTools (s t : State) (h : HeadId) : Prop :=
  (∀ k, k ≠ h → t.head k = s.head k) ∧ t.pending = s.pending ∧ t.hck = s.hck ∧ t.slc = s.slc ∧ t.trg.types = s.trg.types

/-- Beside one link, the port and the lines, nothing of the part has changed. -/
def State.LinkOnly (s t : State) (n : Nat) : Prop :=
  (∀ m, m ≠ n → t.link m = s.link m) ∧ t = { s with slc := t.slc, svp := t.svp, lines := Lines.quiet }

/-- Beside one link, HOE's records, marks of handoff owed and the port, nothing of the part has changed. -/
def State.LinkAndHandoff (s t : State) (n : Nat) : Prop :=
  (∀ m, m ≠ n → t.link m = s.link m) ∧ t.trg.types = s.trg.types ∧
  (∀ m, t.tool m = s.tool m ∨ ∃ i o, s.tool m = some i ∧ t.tool m = some { i with owed := o }) ∧
  t = { s with slc := t.slc, hoe := t.hoe, trg := t.trg, svp := t.svp, lines := Lines.quiet }

/-- Nothing happens but that a free transmitter starts: an event that has not come (log entry 3). -/
def State.idled (s : State) : State := { s with svp := s.svpReported [], lines := Lines.quiet }

/-- What a test of a head's zero reports between two records of it, where a scale temperature has come (R80): a ZERO_STATE exactly
where validity has changed. A zero that lapses does so with AGE where its life has passed, else with TEMPERATURE, and one that becomes
valid does so with TEMPERATURE (log entry 15). -/
def Head.zeroChange (was now : Head) (h : HeadId) (tick : Nat) : List Report :=
  if now.zeroOk = was.zeroOk then []
  else
    [.zeroState h now.zeroOk (match now.zero with
      | none => .removed
      | some z => if tick ≤ z.tick + now.settings.zeroLife * 3600000 then .temperature else .age)]

/-- The report is a change of validity of the head's zero (R80). -/
def Report.isZeroState (r : Report) (h : HeadId) : Prop := ∃ v z, r = .zeroState h v z

/-- The custody in which an instance leaves a session that acts on no PASS and no REJECT (R91). -/
def unfinishedCustody (entry : Custody) (entryCause : Option QCause) (measured held : Bool) (life : Nat) : Custody :=
  if life = 0 then .regrindDue
  else if (entry = .ready ∨ (entry = .quarantine ∧ entryCause = some .typeHold ∧ measured = true)) ∧ held = false then .staged
  else .unmeasured

/-- A safe step: the machine goes on. -/
def State.goesOn (s : State) : Prop := ∃ t, step s = .next t

/-! ### The ranges of the blocks -/

/-- SVP keeps within its capacities (R190, R193, R196, R198, R204). -/
def Svp.Within (v : Svp) : Prop :=
  v.buffer.length ≤ 4 ∧ v.reports.length ≤ 32 ∧ v.lost ≤ 65535 ∧ 1 ≤ v.handle ∧ v.handle ≤ 65535 ∧ v.discards ≤ 65535 ∧
  v.refusals ≤ 65535 ∧ v.drops ≤ 65535 ∧ v.enable < 16384

/-- A path checker keeps its run counters within their ranges (R178). -/
def Path.Within (p : Path) : Prop := p.validRun ≤ 8 ∧ p.invalidRun ≤ 3

/-- HCK keeps hall time a second of 32 bits with a millisecond part below 1,000, and its settings in range (R177, R178, R183). -/
def Hck.Within (h : Hck) : Prop :=
  h.hall.sec < 4294967296 ∧ h.hall.ms < 1000 ∧ (∀ v ∈ h.setPending, v < 4294967296) ∧ 1 ≤ h.tol ∧ h.tol ≤ 20 ∧
  h.primary.Within ∧ h.secondary.Within

/-- The record rules of an instance against its type (R8, R9): a present type, life and marks within it, a quarantine cause
exactly in QUARANTINE, a request link only in RESERVED or ISSUED. -/
def InstRec.Lawful (types : Table TypeRec) (r : InstRec) : Prop :=
  (∃ t, tget types r.type = some t ∧ r.life ≤ t.budget ∧ r.marks ≤ t.regrindLimit) ∧
  (r.qcause.isSome = true ↔ r.custody = .quarantine) ∧ (r.link.isSome = true → r.custody = .reserved ∨ r.custody = .issued)

/-- TRG's tables hold slots of the part, in canonical form, and every instance record is lawful (R1, R8, R9). -/
def Trg.Lawful (t : Trg) : Prop :=
  tableSorted t.types = true ∧ tableSorted t.insts = true ∧ (∀ e ∈ t.types, typeNo e.1 = true ∧ e.2.inRange = true) ∧
  (∀ e ∈ t.insts, toolNo e.1 = true ∧ e.2.Lawful t.types)

/-- ISC keeps at most 64 requests, their numbers distinct and from 1 to 255, and its settings in range (R47, R48, R74). -/
def Isc.Within (i : Isc) : Prop :=
  i.queue.length ≤ 64 ∧ (i.queue.map (·.number)).Nodup ∧ (∀ r ∈ i.queue, 1 ≤ r.number ∧ r.number ≤ 255) ∧
  1 ≤ i.nextNumber ∧ i.nextNumber ≤ 255 ∧ 10 ≤ i.pickTimeout ∧ i.pickTimeout ≤ 600 ∧ i.expiryGrace ≤ 3600 ∧
  60 ≤ i.putawayTimeout ∧ i.putawayTimeout ≤ 1800

/-- ISC keeps its requests in service order (R49). -/
def Isc.InOrder (i : Isc) : Prop := i.queue.Pairwise (fun a b => b.before a = false)

/-- MSU keeps the settings of a head in range and at most 32 captures (R82, R85, R94, R100). -/
def Head.Within (h : Head) : Prop :=
  h.settings.inRange = true ∧ h.settings.offsets.length = 16 ∧ (∀ x ∈ h.session, x.captures.length ≤ 32) ∧
  (∀ c ∈ h.zCurve, c.length = 17) ∧ (∀ c ∈ h.xCurve, c.length = 9)

/-- SLC keeps the lists and counters of a link within their sizes (R134, R143, R145, R149). -/
def Link.Within (l : Link) : Prop :=
  l.returns.length ≤ 4 ∧ l.outstanding.length ≤ 4 ∧ l.density.length ≤ 256 ∧ l.applied.length ≤ 8 ∧ l.acqCount ≤ 200 ∧
  1 ≤ l.outNumber ∧ l.outNumber ≤ 255 ∧ (∀ e ∈ l.expected, e < 8)

/-- HOE keeps the queue and the reply list of a station within their sizes, its place count in range, one magazine entry a place
and one unacknowledged hold entry a type (R155, R156, R157, R159, R172). -/
def Station.Within (st : Station) : Prop :=
  st.queue.length ≤ 16 ∧ st.replies.length ≤ 8 ∧ 1 ≤ st.places ∧ st.places ≤ 120 ∧ tableSorted st.magazine = true ∧
  tableSorted st.unacked = true

/-- HOE keeps the queue of a station within 16, each transaction one of those made, once, the first class ahead of the second, at most
one PENDING TOOL_DATA an instance and one PENDING notice a type, and at most one transaction IN_FLIGHT (R158, R159, R160). -/
def Station.Queued (st : Station) (entries : Nat) : Prop :=
  st.queue.length ≤ 16 ∧ (st.queue.map (·.id)).Nodup ∧ (∀ x ∈ st.queue, x.id < entries) ∧
  st.queue.Pairwise (fun a b => b.kind.firstClass = true → a.kind.firstClass = true) ∧
  (∀ a ∈ st.queue, ∀ b ∈ st.queue, a.state = .pending → b.state = .pending →
    ((∃ tool, a.kind.isDataOf tool = true ∧ b.kind.isDataOf tool = true) ∨
      (∃ type, a.kind.isNoticeOf type = true ∧ b.kind.isNoticeOf type = true)) → a.id = b.id) ∧
  (∀ a ∈ st.queue, ∀ b ∈ st.queue, a.state = .inFlight → b.state = .inFlight → a.id = b.id)

/-- HOE keeps four broadcast records and its counters in range (R158, R172). -/
def Hoe.Within (h : Hoe) : Prop :=
  (∀ e ∈ h.stations, e.2.Within) ∧ h.broadcasts.length = 4 ∧ 1 ≤ h.nextTxn ∧ h.nextTxn ≤ 65535 ∧ 1 ≤ h.nextBroadcast ∧
  h.nextBroadcast ≤ 255

/-- The settings of a cabinet are in range (R30). -/
def CabSettings.Within (c : CabSettings) : Prop :=
  64 ≤ c.window ∧ c.window ≤ 4096 ∧ 1 ≤ c.absentDev ∧ c.absentDev < c.presentDev ∧ c.presentDev ≤ 900 ∧
  (c.interval = 50 ∨ c.interval = 100 ∨ c.interval = 200 ∨ c.interval = 400) ∧ 1 ≤ c.debounce ∧ c.debounce ≤ 8

/-- A pass measures pockets of the cabinet (R34, R35). -/
def Pass.Within (x : Pass) : Prop :=
  match x with
  | .auto p => 1 ≤ p ∧ p ≤ 64
  | .single _ p _ => 1 ≤ p ∧ p ≤ 64
  | .learn _ p rest _ _ _ => (1 ≤ p ∧ p ≤ 64) ∧ ∀ q ∈ rest, 1 ≤ q ∧ q ≤ 64

/-- PSC keeps a cabinet's settings, those that wait, its pass and its held learning pass in range (R30, R34, R35). -/
def Cabinet.Within (k : Cabinet) : Prop :=
  k.settings.Within ∧ (∀ c ∈ k.pendingSettings, c.Within) ∧ (∀ x ∈ k.pass, x.Within) ∧
  (∀ l ∈ k.heldLearn, ∀ p ∈ l.pockets, 1 ≤ p ∧ p ≤ 64)

/-- PSC keeps a pocket's counts in range and its bounds those of its baseline under the cabinet's deviations (R28, R35). -/
def Pocket.Within (r : Pocket) (c : CabSettings) : Prop :=
  (∀ b ∈ r.baseline, 1 ≤ b ∧ b ≤ 16383) ∧ (∀ k ∈ r.lastCount, k ≤ 16383) ∧ r.run ≤ 8 ∧
  r.presentBound = r.baseline.map (fun b => b * (1000 - c.presentDev) / 1000) ∧
  r.absentBound = r.baseline.map (fun b => b * (1000 - c.absentDev) / 1000)

/-- PSC keeps its tables in order, its cabinets and its pockets within their ranges (R28, R30, R35). -/
def Psc.Within (p : Psc) : Prop :=
  tableSorted p.pockets = true ∧ tableSorted p.cabinets = true ∧ (∀ e ∈ p.cabinets, e.2.Within) ∧
  (∀ e ∈ p.pockets, e.2.Within (dget Cabinet.reset p.cabinets (keyCabinet e.1)).settings)

/-- The part keeps within its capacities: the port, the clock, the crib, the heads, the links and handoff, with every handoff queue
in its order. -/
def State.WithinCapacities (s : State) : Prop :=
  s.svp.Within ∧ s.hck.Within ∧ s.psc.Within ∧ (∀ h, (s.head h).Within) ∧ (∀ n, (s.link n).Within) ∧ s.hoe.Within ∧
  ∀ n, (s.station n).Queued s.hoe.entries

/-! ### What the blocks keep of one another -/

/-- R29: the combinations of pocket state, instance, departure mark and sensed presence. -/
def Pocket.Fits (r : Pocket) : Prop :=
  (r.tool = none ∨ r.mark = none) ∧ (r.mark ≠ none → r.sensed = .present) ∧
  match r.state with
  | .disabled => r.enabled = false ∧ r.mark = none ∧ r.sensed = .undecided
  | .empty => r.enabled = true ∧ r.tool = none ∧ r.mark = none ∧
      (r.sensed = .absent ∨ (r.sensed = .undecided ∧ r.baseline = none))
  | .occupied => r.enabled = true ∧ (r.tool ≠ none ∨ r.mark ≠ none) ∧
      (r.sensed = .present ∨ (r.sensed = .undecided ∧ r.baseline = none))
  | .expectTake => r.enabled = true ∧ r.baseline ≠ none ∧ r.tool ≠ none ∧ r.sensed = .present
  | .expectPlace => r.enabled = true ∧ r.baseline ≠ none ∧ r.tool = none ∧ r.mark = none ∧ r.sensed = .absent
  | .unknown => r.enabled = true ∧ r.baseline ≠ none ∧ r.tool = none ∧ r.mark = none ∧ r.sensed = .present
  | .fault => r.enabled = true ∧ r.baseline ≠ none ∧ r.sensed ≠ .undecided ∧ (r.tool ≠ none → r.sensed = .present)

/-- The session measures the instance. -/
def Session.measures (q : Session) (n : Nat) : Prop :=
  match q.kind with
  | .measure m _ _ => m = n
  | .zero => False

/-- What TRG, PSC, ISC, MSU and HOE keep of one another: custody and location, pockets, magazine places and heads (R12), the
combinations of R29, requests and reservations (R57), assignments (R68, R71), departure marks (R42), and that a part in LOADING
has no request, assignment, departure mark or session (R34, R46, R76). -/
structure State.Accounted (s : State) : Prop where
  register : s.trg.Lawful
  crib : s.psc.Within
  issue : s.isc.Within
  tables : tableSorted s.isc.assigned = true ∧ tableSorted s.isc.waiting = true ∧ tableSorted s.hoe.stations = true ∧
    ∀ e ∈ s.hoe.stations, e.2.Within
  pairs : ∀ e ∈ s.trg.insts, allowedPair e.2.custody e.2.loc = true
  alone : ∀ e ∈ s.trg.insts, ∀ f ∈ s.trg.insts, e.2.loc.exclusive = true → e.2.loc = f.2.loc → e.1 = f.1
  inPocket : ∀ e ∈ s.trg.insts, ∀ c p, e.2.loc = .pocket c p →
    1 ≤ c ∧ c ≤ 12 ∧ 1 ≤ p ∧ p ≤ 64 ∧ (s.pocket c p).tool = some e.1
  named : ∀ e ∈ s.psc.pockets, 1 ≤ keyCabinet e.1 ∧ keyCabinet e.1 ≤ 12 ∧
    ∀ n ∈ e.2.tool, (s.tool n).map (·.loc) = some (.pocket (keyCabinet e.1) (keyPocket e.1))
  fits : ∀ e ∈ s.psc.pockets, e.2.Fits
  atStation : ∀ e ∈ s.trg.insts, ∀ st p, e.2.loc = .station st p → (tget (s.station st).magazine p).map (·.tool) = some e.1
  magazine : ∀ e ∈ s.hoe.stations, ∀ m ∈ e.2.magazine, (s.tool m.2.tool).bind (·.heldPlace) = some (e.1, m.1)
  atHead : ∀ e ∈ s.trg.insts, ∀ h, e.2.loc = .head h → ∃ q ∈ (s.head h).session, q.measures e.1
  session : ∀ h, ∀ q ∈ (s.head h).session, ∀ n, q.measures n → (s.tool n).map (·.loc) = some (.head h)
  reserved : ∀ e ∈ s.trg.insts, e.2.custody = .reserved →
    ∃ r ∈ s.isc.queue, e.2.link = some r.number ∧ r.state = .reserved ∧ r.tool = some e.1 ∧ r.type = e.2.type
  reserving : ∀ r ∈ s.isc.queue, r.state = .reserved →
    r.reserveTick ≠ none ∧ ∃ n ∈ r.tool, (s.tool n).map (fun i => (i.custody, i.link)) = some (.reserved, some r.number)
  issued : ∀ r ∈ s.isc.queue, r.state = .issued →
    ∃ n ∈ r.tool, (s.tool n).map (fun i => (i.custody, i.link)) = some (.issued, some r.number)
  live : ∀ r ∈ s.isc.queue, r.state = .reserved ∨ r.state = .issued ∨ (r.open = true ∧ r.tool = none)
  expectTake : ∀ e ∈ s.psc.pockets, e.2.state = .expectTake ↔ ∃ n ∈ e.2.tool, (s.tool n).map (·.custody) = some .reserved
  assigned : ∀ a ∈ s.isc.assigned, (s.pocket a.2.cabinet a.2.pocket).state = .expectPlace ∧
    (1 ≤ a.2.cabinet ∧ a.2.cabinet ≤ 12 ∧ 1 ≤ a.2.pocket ∧ a.2.pocket ≤ 64) ∧ (s.tool a.1).map (·.wantsPutaway) = some true
  assignedOnce : ∀ a ∈ s.isc.assigned, ∀ b ∈ s.isc.assigned, a.2.cabinet = b.2.cabinet → a.2.pocket = b.2.pocket → a.1 = b.1
  expectPlace : ∀ e ∈ s.psc.pockets, e.2.state = .expectPlace →
    ∃ a ∈ s.isc.assigned, a.2.cabinet = keyCabinet e.1 ∧ a.2.pocket = keyPocket e.1
  waiting : ∀ w ∈ s.isc.waiting, (s.tool w.1).map (·.wantsPutaway) = some true ∧ tget s.isc.assigned w.1 = none
  marks : ∀ e ∈ s.psc.pockets, ∀ m ∈ e.2.mark, (s.tool m.tool).map (·.custody) = some (match m.cause with
    | .presetting => .atPresetter
    | .regrind => .atRegrind)
  enabled : s.svp.mode = .running → ∀ e ∈ s.psc.pockets, e.2.enabled = false → e.2.tool = none
  loading : s.svp.mode = .loading → s.isc.queue = [] ∧ s.isc.assigned = [] ∧ s.isc.waiting = [] ∧
    (∀ h, (s.head h).session = none) ∧ ∀ e ∈ s.psc.pockets, e.2.mark = none

end Sys2Proof.Machine
end

