-- ==== Sys2Proof/Certificates/Slice0/Obligations.lean ====
section
/-! DEFINITION. The statements for the provers, by the chapters of the spec: what a command or an event leaves, what it leaves as it
was, and what the machine keeps at every step. -/

open Sys2Proof Sys2Proof.Machine

/-! ### Chapter 1: the tool register -/

/-- R2 to R5: LOAD_TYPE whose record fails a check is refused with RANGE and changes nothing; a checked record for an absent slot
fills it, held no, and does nothing else; for a present slot it is refused with STATE on a changed life unit of a type in use or on
a limit below some instance's marks, and otherwise replaces all but held and clamps the lives of the type's instances. The queue of a
station takes an unblocked LIFE_UPDATE with the new life for each clamped instance held there, while it holds fewer than 16
transactions, and nothing else; which of them are left out of a queue that fills is not said here. -/
def Obligations.LoadTypeChecksFillsAndReplaces : Prop :=
  ((∀ (s : State) (tag : Byte) (body : List Byte), s.takesNow 0x01 tag body = true →
        ¬ (∃ r, typeFields body = some r ∧ 1 ≤ fieldAt body 0 2 ∧ fieldAt body 0 2 ≤ 512 ∧
            r.nominalLength ≤ 4000000 ∧ r.nominalRadius ≤ 1500000 ∧
            (-20000 ≤ r.lengthBand.lower ∧ r.lengthBand.lower ≤ 0 ∧ 0 ≤ r.lengthBand.upper ∧ r.lengthBand.upper ≤ 20000) ∧
            (-20000 ≤ r.radiusBand.lower ∧ r.radiusBand.lower ≤ 0 ∧ 0 ≤ r.radiusBand.upper ∧ r.radiusBand.upper ≤ 20000) ∧
            r.runoutLimit ≤ 5000 ∧ r.expansion ≤ 3000 ∧ r.adapter ≤ 15 ∧ 1 ≤ r.budget ∧ r.budget ≤ 4000000 ∧ r.warnLevel ≤ 500 ∧
            r.regrindStep ≤ 20000 ∧ r.regrindLimit ≤ 4 ∧ (∀ c ∈ r.home, 1 ≤ c ∧ c ≤ 12) ∧
            (r.adjustable = true ↔ r.adjustBand.isSome = true) ∧
            (∀ a ∈ r.adjustBand, -20000 ≤ a.lower ∧ a.lower ≤ 0 ∧ 0 ≤ a.upper ∧ a.upper ≤ 20000 ∧
              a.lower ≤ r.radiusBand.lower ∧ r.radiusBand.upper ≤ a.upper) ∧
            (r.cls = .lengthOnly → r.adjustable = false ∧ r.governed = .length)) →
        exec (.loadType tag body) s = .next (s.answered 0x01 tag body (.plain .range))) ∧
    (∀ (s : State) (tag : Byte) (body : List Byte) (r : TypeRec), s.takesNow 0x01 tag body = true → typeFields body = some r →
        typeNo (fieldAt body 0 2) = true → r.inRange = true → s.type (fieldAt body 0 2) = none →
        ∃ t, exec (.loadType tag body) s = .next t ∧ t.type (fieldAt body 0 2) = some { r with held := false } ∧
          (∀ m, m ≠ fieldAt body 0 2 → t.type m = s.type m) ∧
          t = { s with trg := { types := t.trg.types, insts := s.trg.insts }, svp := s.svpAnswered 0x01 tag body [] (.plain .ok),
                       lines := Lines.quiet })) ∧
  (∀ (s : State) (tag : Byte) (body : List Byte) (r old : TypeRec), s.takesNow 0x01 tag body = true → typeFields body = some r →
      typeNo (fieldAt body 0 2) = true → r.inRange = true → s.type (fieldAt body 0 2) = some old →
      (((r.lifeUnit ≠ old.lifeUnit ∧ ∃ e ∈ s.trg.insts, e.2.type = fieldAt body 0 2) ∨
          (∃ e ∈ s.trg.insts, e.2.type = fieldAt body 0 2 ∧ r.regrindLimit < e.2.marks)) →
        exec (.loadType tag body) s = .next (s.answered 0x01 tag body (.plain .state))) ∧
      (¬ ((r.lifeUnit ≠ old.lifeUnit ∧ ∃ e ∈ s.trg.insts, e.2.type = fieldAt body 0 2) ∨
          (∃ e ∈ s.trg.insts, e.2.type = fieldAt body 0 2 ∧ r.regrindLimit < e.2.marks)) →
        ∃ t, exec (.loadType tag body) s = .next t ∧ t.type (fieldAt body 0 2) = some { r with held := old.held } ∧
          (∀ m, m ≠ fieldAt body 0 2 → t.type m = s.type m) ∧
          (∀ m, t.tool m = (s.tool m).map (fun i =>
            if i.type = fieldAt body 0 2 then { i with life := min i.life r.budget } else i)) ∧
          t = { s with trg := t.trg, hoe := t.hoe, svp := s.svpAnswered 0x01 tag body [] (.plain .ok), lines := Lines.quiet } ∧
          t.hoe = { s.hoe with stations := t.hoe.stations, nextTxn := t.hoe.nextTxn, entries := t.hoe.entries } ∧
          (tableSorted s.trg.insts = true → (∀ st, (s.station st).Queued s.hoe.entries) → ∀ st,
            let told : List TxnKind := s.trg.insts.filterMap (fun e =>
              if e.2.type = fieldAt body 0 2 ∧ r.budget < e.2.life then
                match e.2.heldPlace with
                | some (x, place) => if x = st then some (.lifeUpdate e.1 place false) else none
                | none => none
              else none)
            let before := (s.station st).queue
            let kept := (t.station st).queue.take before.length
            let new := (t.station st).queue.drop before.length
            t.station st = { s.station st with queue := kept ++ new } ∧ (told = [] → t.station st = s.station st) ∧
            kept.map (fun x => (x.id, x.kind)) = before.map (fun x => (x.id, x.kind)) ∧
            (∃ left, (new.map (·.kind) ++ left).Perm told) ∧ new.length = min told.length (16 - before.length) ∧
            (∀ x ∈ new, x.broadcast = none ∧ (x.state = .pending ∨ (x.state = .inFlight ∧
              ∀ n place, x.kind = .lifeUpdate n place false → x.body = lifeUpdateBody n place r.budget false))) ∧
            (s.svp.mode = .loading ∨ (s.link st).state.running = false ∨ s.inFlight st ≠ none →
              kept = before ∧ ∀ x ∈ new, x.state = .pending) ∧
            (s.svp.mode = .running → (s.link st).state.running = true → new ≠ [] → t.inFlight st ≠ none))))

/-- R6: DELETE_TYPE answers by the first row that applies; on OK the slot is absent and nothing else has changed. -/
def Obligations.DeleteTypeAnswersInOrder : Prop :=
  ∀ (s : State) (tag : Byte) (body : List Byte), s.takesNow 0x02 tag body = true →
    (¬ (1 ≤ fieldAt body 0 2 ∧ fieldAt body 0 2 ≤ 512) →
      exec (.deleteType tag body) s = .next (s.answered 0x02 tag body (.plain .range))) ∧
    (1 ≤ fieldAt body 0 2 ∧ fieldAt body 0 2 ≤ 512 → s.type (fieldAt body 0 2) = none →
      exec (.deleteType tag body) s = .next (s.answered 0x02 tag body (.plain .noSuch))) ∧
    (∀ r, 1 ≤ fieldAt body 0 2 ∧ fieldAt body 0 2 ≤ 512 → s.type (fieldAt body 0 2) = some r →
      (r.held = true → exec (.deleteType tag body) s = .next (s.answered 0x02 tag body (.plain .held))) ∧
      (r.held = false →
        ((∃ e ∈ s.trg.insts, e.2.type = fieldAt body 0 2) ∨ (∃ q ∈ s.isc.queue, q.type = fieldAt body 0 2)) →
        exec (.deleteType tag body) s = .next (s.answered 0x02 tag body (.plain .state))) ∧
      (r.held = false →
        ¬ ((∃ e ∈ s.trg.insts, e.2.type = fieldAt body 0 2) ∨ (∃ q ∈ s.isc.queue, q.type = fieldAt body 0 2)) →
        ∃ t, exec (.deleteType tag body) s = .next t ∧ t.type (fieldAt body 0 2) = none ∧
          (∀ m, m ≠ fieldAt body 0 2 → t.type m = s.type m) ∧
          t = { s with trg := { types := t.trg.types, insts := s.trg.insts },
                       svp := s.svpAnswered 0x02 tag body [] (.plain .ok), lines := Lines.quiet }))

/-- R21, R26: LIST_INSTANCES answers RANGE for a type above 512, a start above 2048 or an empty custody set, then NO_SUCH for a type
whose slot is absent; otherwise it answers the numbers of the matching instances above start, ascending, all of them or, with a flag
for more, the first 100. Type 0 is any, and the custody set has bit k − 1 for the custody of code k (11.3). The model's choice: bits
13 to 15 of the set, which name no custody, are passed over, so that a set of these alone is empty (log entry 35). -/
def Obligations.ListInstancesAscending : Prop :=
  ∀ (s : State) (tag : Byte) (body : List Byte), s.takesNow 0x0F tag body = true →
    let type := fieldAt body 0 2
    let custodies := fieldAt body 2 2
    let start := fieldAt body 4 2
    let matching := fun (n : Nat) (r : InstRec) =>
      s.tool n = some r ∧ start < n ∧ (type = 0 ∨ r.type = type) ∧ custodies.testBit (r.custody.code - 1) = true
    (512 < type ∨ 2048 < start ∨ custodies % 8192 = 0 →
      exec (.listInstances tag body) s = .next (s.answered 0x0F tag body (.plain .range))) ∧
    (type ≤ 512 → start ≤ 2048 → custodies % 8192 ≠ 0 → type ≠ 0 → s.type type = none →
      exec (.listInstances tag body) s = .next (s.answered 0x0F tag body (.plain .noSuch))) ∧
    (type ≤ 512 → start ≤ 2048 → custodies % 8192 ≠ 0 → (type = 0 ∨ s.type type ≠ none) → tableSorted s.trg.insts = true →
      ∃ ns more, exec (.listInstances tag body) s =
          .next (s.answered 0x0F tag body { code := .ok, data := .instList ns more }) ∧
        ns.Pairwise (· < ·) ∧ ns.length ≤ 100 ∧ (∀ n ∈ ns, ∃ r, matching n r) ∧
        (∀ n r, matching n r → n ∉ ns → more = true ∧ ∀ m ∈ ns, m < n) ∧
        (more = true → ns.length = 100 ∧ ∃ n r, matching n r ∧ ∀ m ∈ ns, m < n))

/-- R13: REGISTER answers by the first row that applies, in either mode; on OK the new record holds what R13 lists, with a
CUSTODY_CHANGE first among the reports. Put-away may follow (R20, R67), with CRIB_FULL at most. The model's choice: that report
shows no custody and NONE before (log entry 56). -/
def Obligations.RegisterCreatesRecord : Prop :=
  ∀ (s : State) (tag : Byte) (body : List Byte), s.takesNow 0x08 tag body = true →
    let n := fieldAt body 0 2
    let type := fieldAt body 2 2
    let marks : Option Nat := if flagAt body 4 0 then some (fieldAt body 5 1) else none
    let life : Option Nat := if flagAt body 4 1 then some (fieldAt body 6 3) else none
    let inRange := 1 ≤ n ∧ n ≤ 2048 ∧ 1 ≤ type ∧ type ≤ 512 ∧ (∀ m ∈ marks, m ≤ 4) ∧ (∀ l ∈ life, 1 ≤ l ∧ l ≤ 4000000)
    (¬ inRange → exec (.register tag body) s = .next (s.answered 0x08 tag body (.plain .range))) ∧
    (inRange → s.type type = none → exec (.register tag body) s = .next (s.answered 0x08 tag body (.plain .noSuch))) ∧
    (∀ ty, inRange → s.type type = some ty →
      ((s.tool n).isSome = true → exec (.register tag body) s = .next (s.answered 0x08 tag body (.plain .state))) ∧
      (s.tool n = none → ty.regrindLimit < marks.getD 0 →
        exec (.register tag body) s = .next (s.answered 0x08 tag body (.plain .limit))) ∧
      (s.tool n = none → marks.getD 0 ≤ ty.regrindLimit → ty.budget < life.getD 0 →
        exec (.register tag body) s = .next (s.answered 0x08 tag body (.plain .range))) ∧
      (s.tool n = none → marks.getD 0 ≤ ty.regrindLimit → life.getD 0 ≤ ty.budget →
        ∃ t rs, exec (.register tag body) s = .next t ∧
          t.tool n = some
            { type := type, custody := .unmeasured, loc := .bench, meas := none, generation := 0, life := life.getD ty.budget,
              warned := false, spent := false, marks := marks.getD 0, link := none, qcause := none, owed := false, last := none } ∧
          s.OthersStand t n ∧ t.trg.types = s.trg.types ∧ t.isc.queue = s.isc.queue ∧
          (rs = [] ∨ rs = [.cribFull n .unmeasured .stock]) ∧
          t = { s with
            trg := t.trg, psc := t.psc, isc := t.isc, lines := Lines.quiet
            svp := s.svpAnswered 0x08 tag body
              (.custodyChange n type none .nowhere (some .unmeasured) .bench .register none :: rs) (.plain .ok) }))

/-- R14, R15, R43: LOAD_INSTANCE in RUNNING is answered NOT_IN_MODE and one that fails a check by that check's reply, in the order of
the table, nothing changed; an accepted one vacates the location of the record that stood in the slot, writes the new record (handoff
owed for ISSUED to a station) and takes up its location. While nothing waits for put-away and no departure mark names the instance, as
in LOADING, it raises no report and every pocket but those two stands. The checks after the ranges are spelled in the last clause. The
model's choices: a place in TRANSIT is no target that another instance can hold, and BENCH and TRANSIT are shared (log entry 49); the
detail bytes of a location are read by its kind (log entry 37); a disabled pocket that drops its instance stays DISABLED (log entry
38); a NOT_TAKEN carries no custody (log entry 70). -/
def Obligations.LoadInstanceWritesRecord : Prop :=
  (∀ (s : State) (tag : Byte) (body : List Byte), s.takesNow 0x09 tag body = true →
    let n := fieldAt body 0 2
    let b := fun (i : Nat) => fieldAt body i 1
    let listed := 1 ≤ b 4 ∧ b 4 ≤ 13 ∧
      ((b 6 = 0 ∧ (b 5 = 0 ∨ (b 5 = 1 ∧ 1 ≤ b 7 ∧ b 7 ≤ 12 ∧ 1 ≤ b 8 ∧ b 8 ≤ 64) ∨ b 5 = 2 ∨ (b 5 = 3 ∧ 1 ≤ b 7 ∧ b 7 ≤ 2) ∨
          (b 5 = 5 ∧ 1 ≤ b 7 ∧ b 7 ≤ 32 ∧ 1 ≤ b 8 ∧ b 8 ≤ (s.station (b 7)).places) ∨ b 5 = 6)) ∨
        (b 5 = 4 ∧ ((b 6 = 1 ∧ 1 ≤ b 7 ∧ b 7 ≤ 32 ∧ 1 ≤ b 8 ∧ b 8 ≤ (s.station (b 7)).places) ∨ b 6 = 2 ∨
          (b 6 = 3 ∧ 1 ≤ b 7 ∧ b 7 ≤ 32) ∨ b 6 = 4))) ∧
      (flagAt body 9 0 = true → fieldAt body 10 3 ≤ 4000000 ∧ fieldAt body 13 3 ≤ 1500000 ∧ fieldAt body 16 3 ≤ 1500000 ∧
        fieldAt body 23 2 ≤ 999 ∧ 1 ≤ b 25 ∧ b 25 ≤ 2) ∧
      (flagAt body 9 4 = true → 1 ≤ b 32) ∧ (flagAt body 9 5 = true → 1 ≤ b 33 ∧ b 33 ≤ 5) ∧
      (flagAt body 9 6 = true → 1 ≤ b 34 ∧ b 34 ≤ 32) ∧ b 31 ≤ 4 ∧
      1 ≤ n ∧ n ≤ 2048 ∧ 1 ≤ fieldAt body 2 2 ∧ fieldAt body 2 2 ≤ 512
    (s.svp.mode = .running → exec (.loadInstance tag body) s = .next (s.answered 0x09 tag body (.plain .notInMode))) ∧
    (s.svp.mode = .loading → ¬ listed → exec (.loadInstance tag body) s = .next (s.answered 0x09 tag body (.plain .range))) ∧
    (s.svp.mode = .loading → listed → ∃ r, instFields body = some r ∧
      (∀ code, s.loadRefusal n r = some code →
        exec (.loadInstance tag body) s = .next (s.answered 0x09 tag body (.plain code))) ∧
      (s.loadRefusal n r = none →
        let old : Option Location := (s.tool n).map (·.loc)
        ∃ t rs, exec (.loadInstance tag body) s = .next t ∧
          ((∃ st p, r.loc = .toStation st p) → t.tool n = some { r with owed := true }) ∧
          ((∀ st p, r.loc ≠ .toStation st p) → t.tool n = some r) ∧ s.OthersStand t n ∧
          (∀ c p, r.loc = .pocket c p → (t.pocket c p).tool = some n) ∧
          (∀ c p, 1 ≤ p → p ≤ 64 → old = some (.pocket c p) → r.loc ≠ .pocket c p → (t.pocket c p).tool ≠ some n) ∧
          (∀ st,
            let left := match old with
              | some (.station x _) =>
                if x = st then (s.station st).magazine.filter (fun e => decide (e.2.tool ≠ n)) else (s.station st).magazine
              | _ => (s.station st).magazine
            t.station st = { s.station st with
              magazine := match r.loc with
                | .station x p =>
                  if x = st then
                    tset left p { tool := n, active := true, confirmed := some r.generation, spentNotice := false }
                  else left
                | _ => left }) ∧
          t.hoe = { s.hoe with stations := t.hoe.stations } ∧ t.psc.cabinets = s.psc.cabinets ∧ s.ToolsOnly t ∧
          t.isc.queue = s.isc.queue ∧ t.svp = s.svpAnswered 0x09 tag body rs (.plain .ok) ∧
          (∀ x ∈ rs, ∃ c p, x = .discrepancy .notTaken c p (some n) none) ∧
          (s.isc.waiting = [] → (∀ c p, 1 ≤ p → p ≤ 64 → ∀ m ∈ (s.pocket c p).mark, m.tool ≠ n) →
            (∀ c p, old = some (.pocket c p) → 1 ≤ p ∧ p ≤ 64) →
            rs = [] ∧ t.isc = s.isc ∧
            ∀ c p, 1 ≤ p → p ≤ 64 →
              let was := s.pocket c p
              let left := if old = some (.pocket c p) ∧ was.tool = some n then
                  { was with
                    tool := none
                    state := if was.state = .fault ∨ was.state = .disabled then was.state
                      else if was.sensed = .present then .unknown else .empty }
                else was
              t.pocket c p =
                if r.loc = .pocket c p then
                  { left with
                    tool := some n, run := 0, state := if was.enabled = true then .occupied else left.state
                    sensed := if was.enabled = true ∧ was.baseline ≠ none then .present else .undecided }
                else left)))) ∧
  (∀ (s : State) (n : Nat) (r : InstRec),
    let custodyOk := r.custody ≠ .reserved ∧ r.custody ≠ .atPresetter ∧
      (r.custody = .issued → r.loc = .toBench ∨ ∃ st p, r.loc = .toStation st p)
    let inPocket := ∃ c p, r.loc = .pocket c p
    let pairOk :=
      (r.custody = .unmeasured ∨ r.custody = .quarantine ∨ r.custody = .regrindDue → r.loc = .bench ∨ inPocket) ∧
      (r.custody = .staged → r.loc = .bench) ∧ (r.custody = .ready → inPocket) ∧
      (r.custody = .loaded → ∃ st p, r.loc = .station st p) ∧
      (r.custody = .returning → r.loc = .backBench ∨ ∃ st, r.loc = .backStation st) ∧
      (r.custody = .missing ∨ r.custody = .retired → r.loc = .nowhere) ∧ (r.custody = .atRegrind → r.loc = .offsite)
    let targetOk :=
      (∀ c p, r.loc = .pocket c p → (∀ m ∈ (s.pocket c p).tool, m = n) ∧ ∀ e ∈ s.trg.insts, e.1 ≠ n → e.2.loc ≠ .pocket c p) ∧
      (∀ st p, r.loc = .station st p →
        (∀ x ∈ tget (s.station st).magazine p, x.tool = n) ∧ ∀ e ∈ s.trg.insts, e.1 ≠ n → e.2.loc ≠ .station st p)
    let lasting := r.custody = .unmeasured ∨ r.custody = .quarantine ∨ r.custody = .regrindDue ∨ r.custody = .atRegrind ∨
      r.custody = .missing ∨ r.custody = .retired
    let fieldsOk :=
      (r.generation = 0 → r.meas = none) ∧ (1 ≤ r.generation → r.meas ≠ none ∨ lasting) ∧
      (r.custody = .ready ∨ r.custody = .staged ∨ r.custody = .issued ∨ r.custody = .loaded → r.meas ≠ none) ∧
      (r.custody = .ready ∨ r.custody = .staged → 0 < r.life) ∧ (r.qcause ≠ none ↔ r.custody = .quarantine) ∧
      (r.spent = true → r.life = 0) ∧ r.link = none
    (s.type r.type = none → s.loadRefusal n r = some .noSuch) ∧
    (∀ ty, s.type r.type = some ty →
      (¬ (custodyOk ∧ pairOk ∧ targetOk) → s.loadRefusal n r = some .state) ∧
      (custodyOk → pairOk → targetOk →
        (ty.budget < r.life → s.loadRefusal n r = some .range) ∧
        (r.life ≤ ty.budget → ty.regrindLimit < r.marks → s.loadRefusal n r = some .limit) ∧
        (r.life ≤ ty.budget → r.marks ≤ ty.regrindLimit → ¬ fieldsOk → s.loadRefusal n r = some .state) ∧
        (r.life ≤ ty.budget → r.marks ≤ ty.regrindLimit → fieldsOk → s.loadRefusal n r = none))))

/-- R22, R23: QUARANTINE_TOOL bars an instance of one of five custodies where it lies, with cause HOST; CLEAR_QUARANTINE lifts a
quarantine unless its cause is TYPE_HOLD of a held type; an instance number out of range, an absent instance and every other case are
refused and change nothing. -/
def Obligations.QuarantineToolAndClear : Prop :=
  (∀ (s : State) (tag : Byte) (body : List Byte) (r : InstRec), s.takesNow 0x0A tag body = true →
      tableSorted s.trg.insts = true → toolNo (fieldAt body 0 2) = true → s.tool (fieldAt body 0 2) = some r →
      ((r.custody = .unmeasured ∨ r.custody = .staged ∨ r.custody = .ready ∨ r.custody = .regrindDue ∨ r.custody = .reserved) →
        ∃ t rs, exec (.quarantineTool tag body) s = .next t ∧
          t.tool (fieldAt body 0 2) = some { r with custody := .quarantine, qcause := some .host, link := none } ∧
          s.OthersPassedBy t (fieldAt body 0 2) ∧ (r.custody ≠ .reserved → s.OthersStand t (fieldAt body 0 2)) ∧
          s.ToolsOnly t ∧ t.hoe = s.hoe ∧ t.svp = s.svpAnswered 0x0A tag body rs (.plain .ok) ∧
          (∃ before, .custodyChange (fieldAt body 0 2) r.type (some before) r.loc (some .quarantine) r.loc .quarantineTool none ∈ rs)) ∧
      (¬ (r.custody = .unmeasured ∨ r.custody = .staged ∨ r.custody = .ready ∨ r.custody = .regrindDue ∨ r.custody = .reserved) →
        exec (.quarantineTool tag body) s = .next (s.answered 0x0A tag body (.plain .state)))) ∧
  (∀ (s : State) (tag : Byte) (body : List Byte) (r : InstRec), s.takesNow 0x0B tag body = true →
      toolNo (fieldAt body 0 2) = true → s.tool (fieldAt body 0 2) = some r →
      (r.custody ≠ .quarantine → exec (.clearQuarantine tag body) s = .next (s.answered 0x0B tag body (.plain .state))) ∧
      (r.custody = .quarantine → r.qcause = some .typeHold → s.typeHeld r.type = true →
        exec (.clearQuarantine tag body) s = .next (s.answered 0x0B tag body (.plain .held))) ∧
      (r.custody = .quarantine → ¬ (r.qcause = some .typeHold ∧ s.typeHeld r.type = true) →
        ∃ t rs, exec (.clearQuarantine tag body) s = .next t ∧
          t.tool (fieldAt body 0 2) =
            some { r with custody := if r.life = 0 then .regrindDue else .unmeasured, qcause := none, link := none } ∧
          s.OthersStand t (fieldAt body 0 2) ∧ s.ToolsOnly t ∧ t.hoe = s.hoe ∧ t.isc.queue = s.isc.queue ∧
          t.svp = s.svpAnswered 0x0B tag body
            (.custodyChange (fieldAt body 0 2) r.type (some .quarantine) r.loc
              (some (if r.life = 0 then .regrindDue else .unmeasured)) r.loc .clearQuarantine none :: rs) (.plain .ok) ∧
          (∀ x ∈ rs, ∃ c z, x = .cribFull (fieldAt body 0 2) c z))) ∧
  (∀ (s : State) (tag : Byte) (body : List Byte),
    let n := fieldAt body 0 2
    (s.takesNow 0x0A tag body = true →
      (¬ (1 ≤ n ∧ n ≤ 2048) → exec (.quarantineTool tag body) s = .next (s.answered 0x0A tag body (.plain .range))) ∧
      (1 ≤ n → n ≤ 2048 → s.tool n = none → exec (.quarantineTool tag body) s = .next (s.answered 0x0A tag body (.plain .noSuch)))) ∧
    (s.takesNow 0x0B tag body = true →
      (¬ (1 ≤ n ∧ n ≤ 2048) → exec (.clearQuarantine tag body) s = .next (s.answered 0x0B tag body (.plain .range))) ∧
      (1 ≤ n → n ≤ 2048 → s.tool n = none → exec (.clearQuarantine tag body) s = .next (s.answered 0x0B tag body (.plain .noSuch)))))

/-- R24, R25: RETIRE makes an instance of any custody but two RETIRED at NONE and keeps its record, its handoff owed cleared where it
was LOADED or ISSUED and kept otherwise; DELETE of a RETIRED or MISSING one, or of one UNMEASURED at BENCH, leaves its slot absent; an
instance number out of range, an absent instance and every other case are refused and change nothing. -/
def Obligations.RetireAndDelete : Prop :=
  (∀ (s : State) (tag : Byte) (body : List Byte) (r : InstRec), s.takesNow 0x0C tag body = true →
      tableSorted s.trg.insts = true → toolNo (fieldAt body 0 2) = true → s.tool (fieldAt body 0 2) = some r →
      ((r.custody = .atPresetter ∨ r.custody = .retired) →
        exec (.retire tag body) s = .next (s.answered 0x0C tag body (.plain .state))) ∧
      (r.custody ≠ .atPresetter → r.custody ≠ .retired →
        ∃ t rs, exec (.retire tag body) s = .next t ∧
          t.tool (fieldAt body 0 2) =
            some { r with
              custody := .retired, loc := .nowhere, link := none, qcause := none
              owed := if r.custody = .loaded ∨ r.custody = .issued then false else r.owed } ∧
          s.OthersPassedBy t (fieldAt body 0 2) ∧ s.ToolsOnly t ∧ t.svp = s.svpAnswered 0x0C tag body rs (.plain .ok) ∧
          tget t.isc.assigned (fieldAt body 0 2) = none ∧ (∀ e ∈ t.isc.latePicks, e.2.tool ≠ fieldAt body 0 2))) ∧
  (∀ (s : State) (tag : Byte) (body : List Byte) (r : InstRec), s.takesNow 0x0D tag body = true →
      toolNo (fieldAt body 0 2) = true → s.tool (fieldAt body 0 2) = some r →
      (¬ (r.custody = .retired ∨ r.custody = .missing ∨ (r.custody = .unmeasured ∧ r.loc = .bench)) →
        exec (.delete tag body) s = .next (s.answered 0x0D tag body (.plain .state))) ∧
      ((r.custody = .retired ∨ r.custody = .missing ∨ (r.custody = .unmeasured ∧ r.loc = .bench)) →
        ∃ t rs, exec (.delete tag body) s = .next t ∧ t.tool (fieldAt body 0 2) = none ∧
          s.OthersPassedBy t (fieldAt body 0 2) ∧ s.ToolsOnly t ∧ t.isc.queue = s.isc.queue ∧
          t.svp = s.svpAnswered 0x0D tag body
            (.custodyChange (fieldAt body 0 2) r.type (some r.custody) r.loc none .nowhere .delete none :: rs) (.plain .ok) ∧
          tget t.isc.assigned (fieldAt body 0 2) = none ∧ (∀ e ∈ t.isc.latePicks, e.2.tool ≠ fieldAt body 0 2))) ∧
  (∀ (s : State) (tag : Byte) (body : List Byte),
    let n := fieldAt body 0 2
    (s.takesNow 0x0C tag body = true →
      (¬ (1 ≤ n ∧ n ≤ 2048) → exec (.retire tag body) s = .next (s.answered 0x0C tag body (.plain .range))) ∧
      (1 ≤ n → n ≤ 2048 → s.tool n = none → exec (.retire tag body) s = .next (s.answered 0x0C tag body (.plain .noSuch)))) ∧
    (s.takesNow 0x0D tag body = true →
      (¬ (1 ≤ n ∧ n ≤ 2048) → exec (.delete tag body) s = .next (s.answered 0x0D tag body (.plain .range))) ∧
      (1 ≤ n → n ≤ 2048 → s.tool n = none → exec (.delete tag body) s = .next (s.answered 0x0D tag body (.plain .noSuch)))))


/-! ### Chapter 2: crib pockets and presence scanning -/

/-- R30, R34: SET_CABINET out of one of R30's ranges is refused with RANGE and changes nothing; accepted settings take effect at once on
an idle channel, every baseline scaled by a change of window and every bound computed anew, and are held until the end of a running
pass otherwise. Settings under which automatic passes begin to run, or run at another interval, restart the boundaries. The model's
choices: the codes of enabled, 0 no and 1 yes (log entry 69), settings that already wait are replaced (log entry 59), and a restart
counts its moment as a boundary (log entry 19). -/
def Obligations.SetCabinetTakesEffectWhenIdle : Prop :=
  ∀ (s : State) (tag : Byte) (body : List Byte), s.takesNow 0x10 tag body = true →
    let c := fieldAt body 0 1
    let k := s.cab c
    let inRange := (1 ≤ c ∧ c ≤ 12) ∧ (64 ≤ fieldAt body 1 2 ∧ fieldAt body 1 2 ≤ 4096) ∧
      (1 ≤ fieldAt body 3 2 ∧ fieldAt body 3 2 ≤ 900) ∧ (1 ≤ fieldAt body 5 2 ∧ fieldAt body 5 2 ≤ 900) ∧
      fieldAt body 5 2 < fieldAt body 3 2 ∧
      (fieldAt body 7 2 = 50 ∨ fieldAt body 7 2 = 100 ∨ fieldAt body 7 2 = 200 ∨ fieldAt body 7 2 = 400) ∧
      (1 ≤ fieldAt body 9 1 ∧ fieldAt body 9 1 ≤ 8) ∧ fieldAt body 10 1 ≤ 1 ∧ fieldAt body 11 1 ≤ 1
    let new : CabSettings :=
      { window := fieldAt body 1 2, presentDev := fieldAt body 3 2, absentDev := fieldAt body 5 2, interval := fieldAt body 7 2
        debounce := fieldAt body 9 1, mode := if fieldAt body 10 1 = 0 then .auto else .single
        enabled := decide (fieldAt body 11 1 = 1) }
    let runs := fun (x : CabSettings) => s.svp.mode = .running ∧ x.enabled = true ∧ x.mode = .auto
    let restart := runs new ∧ (¬ runs k.settings ∨ k.settings.interval ≠ new.interval)
    (¬ inRange → exec (.setCabinet tag body) s = .next (s.answered 0x10 tag body (.plain .range))) ∧
    (∀ x, inRange → k.pass = some x →
      ∃ t, exec (.setCabinet tag body) s = .next t ∧ t.cab c = { k with pendingSettings := some new } ∧
        (∀ d, d ≠ c → t.cab d = s.cab d) ∧ t.psc.pockets = s.psc.pockets ∧
        t = { s with psc := t.psc, svp := s.svpAnswered 0x10 tag body [] (.plain .ok), lines := Lines.quiet }) ∧
    (inRange → k.pass = none →
      ∃ t, exec (.setCabinet tag body) s = .next t ∧
        t.cab c = { k with settings := new, pendingSettings := none, pass := (t.cab c).pass, boundary := (t.cab c).boundary } ∧
        (restart → (t.cab c).boundary = some (s.tick + new.interval) ∧
          (∀ f, 1 ≤ f → f ≤ 64 → (s.pocket c f).enabled = true → (∀ p, 1 ≤ p → p < f → (s.pocket c p).enabled = false) →
            (t.cab c).pass = some (.auto f)) ∧
          ((∀ p, 1 ≤ p → p ≤ 64 → (s.pocket c p).enabled = false) → (t.cab c).pass = none)) ∧
        (¬ restart → (t.cab c).pass = none ∧ (runs new → (t.cab c).boundary = k.boundary) ∧
          (¬ runs new → (t.cab c).boundary = none)) ∧
        (∀ d, d ≠ c → t.cab d = s.cab d) ∧ (∀ d p, 1 ≤ p → p ≤ 64 → d ≠ c → t.pocket d p = s.pocket d p) ∧
        (∀ p, 1 ≤ p → p ≤ 64 →
          let scaled := if k.settings.window = new.window then (s.pocket c p).baseline
            else (s.pocket c p).baseline.map (fun b => max 1 (min 16383 (b * new.window / k.settings.window)))
          t.pocket c p = { s.pocket c p with
            baseline := scaled
            presentBound := scaled.map (fun b => b * (1000 - new.presentDev) / 1000)
            absentBound := scaled.map (fun b => b * (1000 - new.absentDev) / 1000) }) ∧
        t = { s with psc := t.psc, svp := s.svpAnswered 0x10 tag body [] (.plain .ok), lines := Lines.quiet })

/-- R31: SET_POCKETS out of range is refused with RANGE and a disabling of a pocket in use with STATE; accepted, every named pocket
takes the enabled flag and the zone as the table gives, and ISC may assign a pocket that is then EMPTY. -/
def Obligations.SetPocketsConfiguresEach : Prop :=
  ∀ (s : State) (tag : Byte) (body : List Byte), s.takesNow 0x11 tag body = true → tableSorted s.psc.pockets = true →
    let c := fieldAt body 0 1
    let on := fieldAt body 1 1
    let zone := fieldAt body 2 1
    let named := listAt body 3
    let inRange := 1 ≤ c ∧ c ≤ 12 ∧ on ≤ 2 ∧ zone ≤ 2 ∧ named ≠ [] ∧ ∀ p ∈ named, 1 ≤ p ∧ p ≤ 64
    let inUse := fun (p : Nat) => (s.pocket c p).tool ≠ none ∨ (s.pocket c p).mark ≠ none ∨
      (s.pocket c p).state = .expectTake ∨ (s.pocket c p).state = .expectPlace
    (¬ inRange → exec (.setPockets tag body) s = .next (s.answered 0x11 tag body (.plain .range))) ∧
    (inRange → on = 0 → (∃ p ∈ named, inUse p) →
      exec (.setPockets tag body) s = .next (s.answered 0x11 tag body (.plain .state))) ∧
    (inRange → ¬ (on = 0 ∧ ∃ p ∈ named, inUse p) →
      ∃ t, exec (.setPockets tag body) s = .next t ∧
        t = { s with psc := t.psc, isc := t.isc, svp := s.svpAnswered 0x11 tag body [] (.plain .ok), lines := Lines.quiet } ∧
        t.psc.cabinets = s.psc.cabinets ∧ t.isc.queue = s.isc.queue ∧
        (∀ p ∈ named,
          let r := s.pocket c p
          let z := if zone = 0 then Zone.stock else if zone = 1 then Zone.hold else r.zone
          Pocket.PassedBy
            (if on = 1 ∧ r.enabled = false then
              { r with
                zone := z, enabled := true, state := if r.tool = none then .empty else .occupied
                sensed := if r.baseline = none then .undecided else if r.tool = none then .absent else .present }
             else if on = 0 ∧ r.enabled = true then
              { r with zone := z, enabled := false, state := .disabled, sensed := .undecided, run := 0 }
             else { r with zone := z })
            (t.pocket c p)) ∧
        (∀ d p, 1 ≤ p → p ≤ 64 → ¬ (d = c ∧ p ∈ named) → (s.pocket d p).PassedBy (t.pocket d p)))

/-- R34, R35: SCAN_ONCE and LEARN_EMPTY answer by the first row that applies. The pass of an accepted SCAN_ONCE starts at once; an
accepted LEARN_EMPTY starts its pass on an idle channel, at the lowest named pocket, and is held while another pass runs. The handle
counter moves on. The model's choice: a SCAN_ONCE of a cabinet without an enabled pocket ends at once, with SCAN_DONE ahead of its
reply (log entry 40). -/
def Obligations.PassCommandsStartPasses : Prop :=
  ∀ (s : State) (tag : Byte) (body : List Byte),
    let c := fieldAt body 0 1
    (s.takesNow 0x13 tag body = true →
      (¬ (1 ≤ c ∧ c ≤ 12) → exec (.scanOnce tag body) s = .next (s.answered 0x13 tag body (.plain .range))) ∧
      (1 ≤ c ∧ c ≤ 12 → s.svp.mode = .loading →
        exec (.scanOnce tag body) s = .next (s.answered 0x13 tag body (.plain .notInMode))) ∧
      (1 ≤ c ∧ c ≤ 12 → s.svp.mode = .running → (s.cab c).settings.enabled = false →
        exec (.scanOnce tag body) s = .next (s.answered 0x13 tag body (.plain .state))) ∧
      (1 ≤ c ∧ c ≤ 12 → s.svp.mode = .running → (s.cab c).settings.enabled = true →
        ((s.cab c).pass ≠ none ∨ (s.cab c).heldLearn ≠ none) →
        exec (.scanOnce tag body) s = .next (s.answered 0x13 tag body (.plain .busy))) ∧
      (∀ p, 1 ≤ c ∧ c ≤ 12 → s.svp.mode = .running → (s.cab c).settings.enabled = true → (s.cab c).pass = none →
        (s.cab c).heldLearn = none → 1 ≤ p → p ≤ 64 → (s.pocket c p).enabled = true →
        (∀ q, 1 ≤ q → q < p → (s.pocket c q).enabled = false) →
        ∃ t, exec (.scanOnce tag body) s = .next t ∧ t.cab c = { s.cab c with pass := some (.single s.svp.handle p 0) } ∧
          (∀ d, d ≠ c → t.cab d = s.cab d) ∧ t.psc.pockets = s.psc.pockets ∧
          t = { s with
            psc := t.psc, lines := Lines.quiet
            svp := { s.svpAnswered 0x13 tag body [] { code := .accepted, data := .handle s.svp.handle } with
              handle := if s.svp.handle ≥ 65535 then 1 else s.svp.handle + 1 } })) ∧
    (s.takesNow 0x13 tag body = true → 1 ≤ c ∧ c ≤ 12 → s.svp.mode = .running → (s.cab c).settings.enabled = true →
      (s.cab c).pass = none → (s.cab c).heldLearn = none → (∀ p, 1 ≤ p → p ≤ 64 → (s.pocket c p).enabled = false) →
      let faults := (((List.range 64).map (· + 1)).filter (fun p => decide ((s.pocket c p).state = .fault))).length
      exec (.scanOnce tag body) s = .next
        { s with
          lines := Lines.quiet
          svp := { s.svpAnswered 0x13 tag body [.scanDone c s.svp.handle 0 faults]
              { code := .accepted, data := .handle s.svp.handle } with
            handle := if s.svp.handle ≥ 65535 then 1 else s.svp.handle + 1 } }) ∧
    (s.takesNow 0x12 tag body = true →
      let inRange := 1 ≤ c ∧ c ≤ 12 ∧ listAt body 1 ≠ [] ∧ ∀ p ∈ listAt body 1, 1 ≤ p ∧ p ≤ 64
      let learning := (s.cab c).heldLearn ≠ none ∨
        ∃ h p rest learned refused failed, (s.cab c).pass = some (.learn h p rest learned refused failed)
      (¬ inRange → exec (.learnEmpty tag body) s = .next (s.answered 0x12 tag body (.plain .range))) ∧
      (inRange → learning → exec (.learnEmpty tag body) s = .next (s.answered 0x12 tag body (.plain .busy))) ∧
      (inRange → ¬ learning →
        (∃ p ∈ listAt body 1, (s.pocket c p).tool ≠ none ∨ (s.pocket c p).mark ≠ none ∨ (s.pocket c p).state = .expectTake ∨
          (s.pocket c p).state = .expectPlace ∨ (s.pocket c p).sensed = .present) →
        exec (.learnEmpty tag body) s = .next (s.answered 0x12 tag body (.plain .state)))) ∧
    (s.takesNow 0x12 tag body = true → 1 ≤ c ∧ c ≤ 12 → listAt body 1 ≠ [] →
      (∀ p ∈ listAt body 1, 1 ≤ p ∧ p ≤ 64 ∧ (s.pocket c p).learnable = true) → (s.cab c).learning = false →
      ∃ t, exec (.learnEmpty tag body) s = .next t ∧ (∀ d, d ≠ c → t.cab d = s.cab d) ∧ t.psc.pockets = s.psc.pockets ∧
        t = { s with
          psc := t.psc, lines := Lines.quiet
          svp := { s.svpAnswered 0x12 tag body [] { code := .accepted, data := .handle s.svp.handle } with
            handle := if s.svp.handle ≥ 65535 then 1 else s.svp.handle + 1 } } ∧
        ((s.cab c).pass = none →
          ∃ p rest, asSet (listAt body 1) = p :: rest ∧ (∀ q ∈ listAt body 1, p ≤ q) ∧
            t.cab c = { s.cab c with pass := some (.learn s.svp.handle p rest [] [] []) }) ∧
        (∀ x, (s.cab c).pass = some x →
          t.cab c = { s.cab c with heldLearn := some { handle := s.svp.handle, pockets := asSet (listAt body 1) } }))

/-- R44, R69, R19: an IDENTIFY of an UNKNOWN pocket for an instance it admits records the instance there and gives it the custody of
placement, an ISSUED one as RETURNING and a MISSING one as QUARANTINE; in LOADING, for a number out of range, an absent instance, and
another pocket or custody, it is refused and changes nothing. The model's choice: a pocket that another record names answers STATE
(log entry 50). -/
def Obligations.IdentifyRecordsPlacement : Prop :=
  ∀ (s : State) (tag : Byte) (body : List Byte), s.takesNow 0x14 tag body = true → s.trg.Lawful →
    tableSorted s.psc.pockets = true →
    let n := fieldAt body 0 2
    let c := fieldAt body 2 1
    let p := fieldAt body 3 1
    (s.svp.mode = .loading → exec (.identify tag body) s = .next (s.answered 0x14 tag body (.plain .notInMode))) ∧
    (s.svp.mode = .running → ¬ ((1 ≤ n ∧ n ≤ 2048) ∧ (1 ≤ c ∧ c ≤ 12) ∧ 1 ≤ p ∧ p ≤ 64) →
      exec (.identify tag body) s = .next (s.answered 0x14 tag body (.plain .range))) ∧
    (s.svp.mode = .running → 1 ≤ n ∧ n ≤ 2048 → 1 ≤ c ∧ c ≤ 12 → 1 ≤ p ∧ p ≤ 64 → s.tool n = none →
      exec (.identify tag body) s = .next (s.answered 0x14 tag body (.plain .noSuch))) ∧
    (∀ r, s.svp.mode = .running → 1 ≤ n ∧ n ≤ 2048 → 1 ≤ c ∧ c ≤ 12 → 1 ≤ p ∧ p ≤ 64 → s.tool n = some r →
      let admitted := r.custody = .missing ∨ r.custody = .returning ∨ r.custody = .staged ∨
        (r.custody = .issued ∧ r.loc = .toBench) ∨ (r.custody = .unmeasured ∧ r.loc = .bench)
      let held := ∃ ty, s.type r.type = some ty ∧ ty.held = true
      let kept := (∃ ty, s.type r.type = some ty ∧ ty.keepOnReturn = true) ∧ r.meas ≠ none ∧ 0 < r.life
      let back := r.custody = .returning ∨ (r.custody = .issued ∧ r.loc = .toBench)
      let lands := fun (placed : Custody) (cause : Option QCause) =>
        ∃ t rs j, exec (.identify tag body) s = .next t ∧ t.tool n = some j ∧ (t.pocket c p).tool = some n ∧
          ((t.pocket c p).state = .occupied ∨ (t.pocket c p).state = .expectTake) ∧
          InstRec.PassedBy { r with custody := placed, loc := .pocket c p, link := none, qcause := cause } j ∧
          s.OthersPassedBy t n ∧ s.ToolsOnly t ∧ tget t.isc.assigned n = none ∧
          t.svp = s.svpAnswered 0x14 tag body
            (.custodyChange n r.type (some r.custody) r.loc (some placed) (.pocket c p) .identify none :: rs) (.plain .ok)
      ((s.pocket c p).state ≠ .unknown ∨ ¬ admitted ∨ s.vacant n (.pocket c p) = false →
        exec (.identify tag body) s = .next (s.answered 0x14 tag body (.plain .state))) ∧
      ((s.pocket c p).state = .unknown → admitted → s.vacant n (.pocket c p) = true →
        (r.custody = .missing → lands .quarantine (some .discrepancy)) ∧
        (r.custody = .staged → held → lands .quarantine (some .typeHold)) ∧
        (r.custody = .staged → ¬ held → lands (if r.life = 0 then .regrindDue else .ready) none) ∧
        (r.custody = .unmeasured → lands (if r.life = 0 then .regrindDue else .unmeasured) none) ∧
        (back → n ∈ s.isc.damaged → lands .quarantine (some .damaged)) ∧
        (back → n ∉ s.isc.damaged → kept → held → lands .quarantine (some .typeHold)) ∧
        (back → n ∉ s.isc.damaged → kept → ¬ held → lands .ready none) ∧
        (back → n ∉ s.isc.damaged → ¬ kept → lands (if r.life = 0 then .regrindDue else .unmeasured) none)))

/-- R34, R35, R30: a boundary that has come starts an automatic pass at the lowest enabled pocket of an idle channel, is skipped
while a pass runs, and the next boundary follows by the interval; a learned count becomes the baseline with its bounds, and an
enabled pocket that was EMPTY or FAULT is then EMPTY with ABSENT sensed, unless ISC assigns it to an instance that waits. A single
pass goes on to the next enabled pocket and counts those measured. At the end of a pass SCAN_DONE or LEARN_DONE is reported,
settings that waited take effect, and a held learning pass starts. The model's choices: this order, and that a restart of the
boundaries counts its moment as a boundary (log entry 19); what SCAN_DONE counts (log entry 40); a pocket that no longer meets the
conditions is refused (log entry 17); the next pocket of a pass is chosen when the count before it is complete, so that one enabled
meanwhile is measured (log entry 94). -/
def Obligations.BoundaryStartsPassAndLearningSetsBaseline : Prop :=
  (∀ (s : State) (c p b : Nat), 1 ≤ c → c ≤ 12 → (s.cab c).boundary = some b → b ≤ s.tick → 1 ≤ p → p ≤ 64 →
    (s.pocket c p).enabled = true → (∀ q, 1 ≤ q → q < p → (s.pocket c q).enabled = false) →
    ∃ t, exec (.scanInterval c) s = .next t ∧
      t.cab c = { s.cab c with
        boundary := some (b + (s.cab c).settings.interval)
        pass := match (s.cab c).pass with
          | none => some (.auto p)
          | some x => some x } ∧
      (∀ d, d ≠ c → t.cab d = s.cab d) ∧ t.psc.pockets = s.psc.pockets ∧
      t = { s with psc := t.psc, svp := s.svpReported [], lines := Lines.quiet }) ∧
  (∀ (s : State) (c p handle cycles : Nat) (rest learned refused failed : List Nat), 1 ≤ c → c ≤ 12 → 1 ≤ p → p ≤ 64 →
    tableSorted s.psc.pockets = true →
    (s.cab c).pass = some (.learn handle p rest learned refused failed) → rest ≠ [] →
    (∀ q ∈ rest, 1 ≤ q ∧ q ≤ 64 ∧ q ≠ p ∧ (s.pocket c q).learnable = true) → (s.pocket c p).learnable = true →
    let goesOn := fun (t : State) (learned failed : List Nat) => ∃ q more, rest = q :: more ∧
      t.cab c = { s.cab c with pass := some (.learn handle q more learned refused failed) }
    let taken : Pocket := { s.pocket c p with
      lastCount := some cycles, baseline := some cycles, run := 0
      presentBound := some (cycles * (1000 - (s.cab c).settings.presentDev) / 1000)
      absentBound := some (cycles * (1000 - (s.cab c).settings.absentDev) / 1000) }
    let othersStand := fun (t : State) => (∀ d, d ≠ c → t.cab d = s.cab d) ∧
      ∀ d q, 1 ≤ q → q ≤ 64 → ¬ (d = c ∧ q = p) → t.pocket d q = s.pocket d q
    ((cycles = 0 ∨ 16383 ≤ cycles) →
      ∃ t, exec (.learnMeasurement c cycles) s = .next t ∧
        t.pocket c p = { s.pocket c p with lastCount := some (min cycles 16383) } ∧
        goesOn t learned (failed ++ [p]) ∧ othersStand t ∧
        t = { s with psc := t.psc, svp := s.svpReported [], lines := Lines.quiet }) ∧
    (0 < cycles → cycles < 16383 → (s.pocket c p).enabled = false →
      ∃ t, exec (.learnMeasurement c cycles) s = .next t ∧ t.pocket c p = taken ∧
        goesOn t (learned ++ [p]) failed ∧ othersStand t ∧
        t = { s with psc := t.psc, svp := s.svpReported [], lines := Lines.quiet }) ∧
    (0 < cycles → cycles < 16383 → (s.pocket c p).enabled = true →
      (s.pocket c p).state = .empty ∨ (s.pocket c p).state = .fault →
      (s.isc.waiting = [] →
        ∃ t, exec (.learnMeasurement c cycles) s = .next t ∧ t.pocket c p = { taken with sensed := .absent, state := .empty } ∧
          goesOn t (learned ++ [p]) failed ∧ othersStand t ∧
          t = { s with psc := t.psc, svp := s.svpReported [], lines := Lines.quiet }) ∧
      ((∀ q ∈ rest, (s.pocket c q).enabled = false) →
        ∃ t, exec (.learnMeasurement c cycles) s = .next t ∧ goesOn t (learned ++ [p]) failed ∧
          (t.pocket c p = { taken with sensed := .absent, state := .empty } ∨
            (t.pocket c p = { taken with sensed := .absent, state := .expectPlace } ∧
              ∃ n a, tget t.isc.assigned n = some a ∧ a.cabinet = c ∧ a.pocket = p)) ∧
          (∀ d q, 1 ≤ q → q ≤ 64 → ¬ (d = c ∧ q = p) → (s.pocket d q).PassedBy (t.pocket d q)) ∧
          t = { s with psc := t.psc, isc := t.isc, svp := s.svpReported [], lines := Lines.quiet }))) ∧
  (∀ (s : State) (c p q handle measured cycles : Nat), 1 ≤ c → c ≤ 12 → 1 ≤ p → p < q → q ≤ 64 →
    (s.cab c).pass = some (.single handle p measured) → (s.pocket c p).enabled = true → (s.pocket c q).enabled = true →
    (∀ k, p < k → k < q → (s.pocket c k).enabled = false) →
    ∃ t, exec (.pocketCount c cycles) s = .next t ∧ (t.pocket c p).lastCount = some (min cycles 16383) ∧
      t.cab c = { s.cab c with pass := some (.single handle q (measured + 1)) } ∧ (∀ d, d ≠ c → t.cab d = s.cab d)) ∧
  (∀ (s : State) (c p f cycles : Nat) (told : List Report), 1 ≤ c → c ≤ 12 → 1 ≤ p → p ≤ 64 → (s.pocket c p).enabled = true →
    (∀ k, p < k → k ≤ 64 → (s.pocket c k).enabled = false) → 1 ≤ f → f ≤ 64 → (s.pocket c f).enabled = true →
    (∀ k, 1 ≤ k → k < f → (s.pocket c k).enabled = false) → (s.pocket c p).baseline = none →
    let faults := (((List.range 64).map (· + 1)).filter (fun k => decide ((s.pocket c k).state = .fault))).length
    ((s.cab c).pass = some (.auto p) ∧ told = []) ∨
      (∃ handle measured, (s.cab c).pass = some (.single handle p measured) ∧ told = [.scanDone c handle (measured + 1) faults]) →
    let k := s.cab c
    let new := k.pendingSettings.getD k.settings
    let runs := fun (x : CabSettings) => decide (s.svp.mode = .running ∧ x.enabled = true ∧ x.mode = .auto)
    let restart := k.pendingSettings.isSome && runs new &&
      (!runs k.settings || decide (k.settings.interval ≠ new.interval) || decide (k.settings.mode ≠ new.mode))
    let lists := (k.heldLearn.map (·.pockets)).getD []
    let skipped := lists.takeWhile (fun x => !(s.pocket c x).learnable)
    let next : Option Pass := match k.heldLearn, lists.dropWhile (fun x => !(s.pocket c x).learnable) with
      | some l, q :: rest => some (.learn l.handle q rest [] skipped [])
      | _, _ => if restart then some (.auto f) else none
    let unlearned : List Report := match k.heldLearn, lists.dropWhile (fun x => !(s.pocket c x).learnable) with
      | some l, [] => [.learnDone c l.handle [] skipped []]
      | _, _ => []
    ∃ t, exec (.pocketCount c cycles) s = .next t ∧
      t.cab c =
        { settings := new, pendingSettings := none, heldLearn := none, pass := next
          boundary := if restart then some (s.tick + new.interval)
            else if k.pendingSettings.isSome && !runs new then none else k.boundary } ∧
      (∀ d, d ≠ c → t.cab d = s.cab d) ∧
      (∀ x, 1 ≤ x → x ≤ 64 →
        let was := if x = p then { s.pocket c p with lastCount := some (min cycles 16383) } else s.pocket c x
        let scaled := if k.settings.window = new.window then was.baseline
          else was.baseline.map (fun b => max 1 (min 16383 (b * new.window / k.settings.window)))
        t.pocket c x = if k.pendingSettings = none then was
          else { was with
            baseline := scaled, presentBound := scaled.map (fun b => b * (1000 - new.presentDev) / 1000)
            absentBound := scaled.map (fun b => b * (1000 - new.absentDev) / 1000) }) ∧
      t = { s with psc := t.psc, svp := s.svpReported (told ++ unlearned), lines := Lines.quiet }) ∧
  (∀ (s : State) (c p handle cycles : Nat) (rest learned refused failed : List Nat), 1 ≤ c → c ≤ 12 → 1 ≤ p → p ≤ 64 →
    (s.cab c).pass = some (.learn handle p rest learned refused failed) → (s.cab c).pendingSettings = none →
    (s.cab c).heldLearn = none → (∀ q ∈ rest, 1 ≤ q ∧ q ≤ 64 ∧ q ≠ p ∧ (s.pocket c q).learnable = false) →
    (s.pocket c p).learnable = true →
    ((s.pocket c p).enabled = false ∨
      (((s.pocket c p).state = .empty ∨ (s.pocket c p).state = .fault) ∧ s.isc.waiting = [])) →
    let taken := decide (0 < cycles ∧ cycles < 16383)
    ∃ t, exec (.learnMeasurement c cycles) s = .next t ∧ t.cab c = { s.cab c with pass := none } ∧
      (∀ d, d ≠ c → t.cab d = s.cab d) ∧
      t.pocket c p = (if taken = true then
          { s.pocket c p with
            lastCount := some cycles, baseline := some cycles, run := 0
            presentBound := some (cycles * (1000 - (s.cab c).settings.presentDev) / 1000)
            absentBound := some (cycles * (1000 - (s.cab c).settings.absentDev) / 1000)
            sensed := if (s.pocket c p).enabled = true then .absent else (s.pocket c p).sensed
            state := if (s.pocket c p).enabled = true then .empty else (s.pocket c p).state }
        else { s.pocket c p with lastCount := some (min cycles 16383) }) ∧
      (∀ d q, 1 ≤ q → q ≤ 64 → ¬ (d = c ∧ q = p) → t.pocket d q = s.pocket d q) ∧
      t = { s with
        psc := t.psc, lines := Lines.quiet
        svp := s.svpReported [.learnDone c handle (if taken = true then learned ++ [p] else learned) (refused ++ rest)
          (if taken = true then failed else failed ++ [p])] })

/-- R32, R33, R36: a count is recorded, at most 16,383, and the channel moves on; a pocket without a baseline is left at that; a
classification of no change, or equal to the sensed presence, sets the debounce run to 0; a differing one short of M adds 1. -/
def Obligations.CountFeedsDebounce : Prop :=
  ∀ (s : State) (c p q cycles : Nat), s.measures c p q →
    (∃ t, exec (.pocketCount c cycles) s = .next t ∧ (t.pocket c p).lastCount = some (min cycles 16383) ∧
      t.cab c = { s.cab c with pass := some (.auto q) } ∧ (∀ d, d ≠ c → t.cab d = s.cab d) ∧ s.ToolsOnly t) ∧
    ((s.pocket c p).baseline = none →
      ∃ t, exec (.pocketCount c cycles) s = .next t ∧
        t.pocket c p = { s.pocket c p with lastCount := some (min cycles 16383) } ∧
        t = { s with psc := t.psc, svp := s.svpReported [], lines := Lines.quiet }) ∧
    (∀ b, (s.pocket c p).baseline = some b → (s.pocket c p).state ≠ .fault → (s.pocket c p).sensed ≠ .undecided →
      0 < min cycles 16383 → min cycles 16383 < 16383 → b / 8 ≤ min cycles 16383 →
      let seen : Option Presence :=
        if min cycles 16383 ≤ (s.pocket c p).presentBound.getD 0 then some .present
        else if (s.pocket c p).absentBound.getD 0 ≤ min cycles 16383 then some .absent else none
      ((seen = none ∨ seen = some (s.pocket c p).sensed) →
        ∃ t, exec (.pocketCount c cycles) s = .next t ∧
          t.pocket c p = { s.pocket c p with lastCount := some (min cycles 16383), run := 0 } ∧
          t = { s with psc := t.psc, svp := s.svpReported [], lines := Lines.quiet }) ∧
      (seen ≠ none → seen ≠ some (s.pocket c p).sensed → (s.pocket c p).run + 1 < (s.cab c).settings.debounce →
        ∃ t, exec (.pocketCount c cycles) s = .next t ∧
          t.pocket c p = { s.pocket c p with lastCount := some (min cycles 16383), run := (s.pocket c p).run + 1 } ∧
          t = { s with psc := t.psc, svp := s.svpReported [], lines := Lines.quiet }))

/-- R37, R38, R63: a REMOVED event, POCKET_EVENT first, by the pocket's state: a pick, a late pick of the READY instance that the
pocket's memory names for a request still without one, any other removal of a recorded instance, which is unsanctioned, an expected
departure, or an unrecorded tool that has gone. The pocket's memory is cleared whichever it is. -/
def Obligations.RemovedEventByPocketState : Prop :=
  ∀ (s : State) (c p q cycles : Nat), s.completes c p q cycles .absent → tableSorted s.psc.pockets = true →
    let k := s.pocket c p
    let gone := { k with lastCount := some (countOf cycles), sensed := .absent, run := 0, tool := none, state := .empty }
    let told : Report := .pocketEvent .removed c p k.state k.tool k.mark none
    (k.state = .unknown → k.tool = none →
      ∃ t, exec (.pocketCount c cycles) s = .next t ∧ gone.PassedBy (t.pocket c p) ∧ t.trg = s.trg ∧ s.ToolsOnly t ∧
        tget t.isc.latePicks (pocketKey c p) = none ∧ t.svp = s.svpReported [told]) ∧
    (k.state = .occupied → k.tool = none →
      ∃ t, exec (.pocketCount c cycles) s = .next t ∧ Pocket.PassedBy { gone with mark := none } (t.pocket c p) ∧
        t.trg = s.trg ∧ s.ToolsOnly t ∧ tget t.isc.latePicks (pocketKey c p) = none ∧ t.svp = s.svpReported [told]) ∧
    (∀ n i, k.state = .occupied → k.tool = some n → s.tool n = some i →
      ¬ (∃ m r, tget s.isc.latePicks (pocketKey c p) = some m ∧ m.tool = n ∧ i.custody = .ready ∧ s.request m.request = some r ∧
        (r.state = .queued ∨ r.state = .waitingStock)) →
      ∃ t, exec (.pocketCount c cycles) s = .next t ∧ gone.PassedBy (t.pocket c p) ∧ s.ToolsOnly t ∧ s.OthersStand t n ∧
        t.tool n = some { i with
          custody := .missing, loc := .nowhere, qcause := none, link := none
          owed := if i.custody = .issued then false else i.owed } ∧
        tget t.isc.latePicks (pocketKey c p) = none ∧
        t.svp = s.svpReported
          [told, .discrepancy .unsanctionedRemoval c p (some n) (some i.custody),
           .custodyChange n i.type (some i.custody) i.loc (some .missing) .nowhere .discrepancy none]) ∧
    (∀ n i m r, k.state = .occupied → k.tool = some n → s.tool n = some i → tget s.isc.latePicks (pocketKey c p) = some m →
      m.tool = n → i.custody = .ready → s.request m.request = some r → r.state = .queued ∨ r.state = .waitingStock →
      let taken := { r with state := .issued, tool := some n, reserveTick := none }
      ∃ t rs j, exec (.pocketCount c cycles) s = .next t ∧ gone.PassedBy (t.pocket c p) ∧ s.ToolsOnly t ∧ s.OthersStand t n ∧
        t.tool n = some j ∧
        j = { i with custody := .issued, qcause := none, owed := j.owed, loc := r.dest.transit, link := some r.number } ∧
        (r.dest = .bench → t.request r.number = none) ∧
        (∀ st place, r.dest = .station st place → t.request r.number = some taken) ∧
        tget t.isc.latePicks (pocketKey c p) = none ∧
        t.svp = s.svpReported
          (told :: .custodyChange n i.type (some .ready) i.loc (some .issued) r.dest.transit .latePick (some r.number) ::
            .requestState taken .latePick :: rs)) ∧
    (∀ n i r, k.state = .expectTake → k.tool = some n → s.tool n = some i → i.custody = .reserved →
      i.link.bind s.request = some r →
      ∃ t rs j, exec (.pocketCount c cycles) s = .next t ∧ gone.PassedBy (t.pocket c p) ∧ s.ToolsOnly t ∧ s.OthersStand t n ∧
        t.tool n = some j ∧
        j = { i with custody := .issued, qcause := none, owed := j.owed, loc := r.dest.transit } ∧
        tget t.isc.latePicks (pocketKey c p) = none ∧
        t.svp = s.svpReported
          (told :: .custodyChange n i.type (some .reserved) i.loc (some .issued) j.loc .pick i.link ::
            .requestState { r with state := .issued, reserveTick := none } .pick :: rs))

/-- R37, R39, R69, R19: a PLACED event, POCKET_EVENT first, by the pocket's state: the placement of the assigned instance, whose custody
is that of R69's seven rows, a to-state UNMEASURED or READY being REGRIND_DUE without life; a placement that TRG refuses, or an
unrecorded arrival, which leaves the pocket UNKNOWN and changes no custody. -/
def Obligations.PlacedEventByPocketState : Prop :=
  ∀ (s : State) (c p q cycles : Nat), s.completes c p q cycles .present → tableSorted s.psc.pockets = true →
    tableSorted s.trg.insts = true →
    let k := s.pocket c p
    let seated := { k with lastCount := some (countOf cycles), sensed := .present, run := 0 }
    let told : Report := .pocketEvent .placed c p k.state k.tool k.mark none
    (k.state = .empty →
      ∃ t, exec (.pocketCount c cycles) s = .next t ∧ t.pocket c p = { seated with state := .unknown } ∧
        t = { s with
          psc := t.psc, lines := Lines.quiet
          svp := s.svpReported [told, .discrepancy .unknownPlacement c p none none] }) ∧
    (∀ n i, k.state = .expectPlace → s.assigneeOf c p = some n → s.tool n = some i → i.wantsPutaway = true →
      s.vacant n (.pocket c p) = true →
      let held := ∃ ty, s.type i.type = some ty ∧ ty.held = true
      let kept := (∃ ty, s.type i.type = some ty ∧ ty.keepOnReturn = true) ∧ i.meas ≠ none ∧ 0 < i.life
      let lands := fun (placed : Custody) (cause : Option QCause) =>
        ∃ t rs j, exec (.pocketCount c cycles) s = .next t ∧ s.ToolsOnly t ∧ s.OthersPassedBy t n ∧ t.tool n = some j ∧
          InstRec.PassedBy { i with custody := placed, loc := .pocket c p, link := none, qcause := cause } j ∧
          (t.pocket c p).tool = some n ∧ ((t.pocket c p).state = .occupied ∨ (t.pocket c p).state = .expectTake) ∧
          tget t.isc.assigned n = none ∧ n ∉ t.isc.damaged ∧
          t.svp = s.svpReported
            (told :: .custodyChange n i.type (some i.custody) i.loc (some placed) (.pocket c p) .place none :: rs)
      (i.custody = .staged → held → lands .quarantine (some .typeHold)) ∧
      (i.custody = .staged → ¬ held → lands (if i.life = 0 then .regrindDue else .ready) none) ∧
      (i.custody = .unmeasured → lands (if i.life = 0 then .regrindDue else .unmeasured) none) ∧
      (i.custody = .quarantine → lands .quarantine i.qcause) ∧ (i.custody = .regrindDue → lands .regrindDue none) ∧
      (i.custody = .returning → n ∈ s.isc.damaged → lands .quarantine (some .damaged)) ∧
      (i.custody = .returning → n ∉ s.isc.damaged → kept → held → lands .quarantine (some .typeHold)) ∧
      (i.custody = .returning → n ∉ s.isc.damaged → kept → ¬ held → lands .ready none) ∧
      (i.custody = .returning → n ∉ s.isc.damaged → ¬ kept → lands (if i.life = 0 then .regrindDue else .unmeasured) none)) ∧
    (∀ n i, k.state = .expectPlace → s.assigneeOf c p = some n → s.tool n = some i →
      i.wantsPutaway = false ∨ s.vacant n (.pocket c p) = false →
      ∃ t rs, exec (.pocketCount c cycles) s = .next t ∧ t.pocket c p = { seated with state := .unknown } ∧ t.trg = s.trg ∧
        s.ToolsOnly t ∧ t.isc.queue = s.isc.queue ∧
        (∀ a, tget t.isc.assigned n = some a → ¬ (a.cabinet = c ∧ a.pocket = p)) ∧
        t.svp = s.svpReported (told :: .discrepancy .unknownPlacement c p (some n) (some i.custody) :: rs))

/-- R40, R41: a fault-level count puts a pocket that is not DISABLED into FAULT, its instance, mark and sensed presence kept; in
FAULT a further one sets the run to 0, an in-range count adds 1, and the eighth in a row clears the fault. The model's choice: the
state before that the report of a reserved pocket's FAULT shows is EXPECT_TAKE (log entry 95). -/
def Obligations.FaultEntryAndRecovery : Prop :=
  ∀ (s : State) (c p q cycles b : Nat), s.measures c p q → (s.pocket c p).baseline = some b →
    tableSorted s.psc.pockets = true → tableSorted s.trg.insts = true →
    let n := min cycles 16383
    let k := s.pocket c p
    ((n = 0 ∨ n = 16383 ∨ n < b / 8) → k.state ≠ .disabled → k.state ≠ .fault →
      ∃ t rs, exec (.pocketCount c cycles) s = .next t ∧
        t.pocket c p = { k with lastCount := some n, state := .fault, run := 0 } ∧ s.ToolsOnly t ∧ t.svp = s.svpReported rs ∧
        .pocketEvent .fault c p k.state k.tool k.mark (some n) ∈ rs) ∧
    ((n = 0 ∨ n = 16383 ∨ n < b / 8) → k.state = .fault →
      ∃ t, exec (.pocketCount c cycles) s = .next t ∧ t.pocket c p = { k with lastCount := some n, run := 0 } ∧
        t = { s with psc := t.psc, svp := s.svpReported [], lines := Lines.quiet }) ∧
    (¬ (n = 0 ∨ n = 16383 ∨ n < b / 8) → k.state = .fault → k.run < 7 →
      ∃ t, exec (.pocketCount c cycles) s = .next t ∧ t.pocket c p = { k with lastCount := some n, run := k.run + 1 } ∧
        t = { s with psc := t.psc, svp := s.svpReported [], lines := Lines.quiet }) ∧
    (¬ (n = 0 ∨ n = 16383 ∨ n < b / 8) → k.state = .fault → 7 ≤ k.run →
      ∃ t rs, exec (.pocketCount c cycles) s = .next t ∧ s.ToolsOnly t ∧ (t.pocket c p).run = 0 ∧
        (t.pocket c p).tool = k.tool ∧ (t.pocket c p).sensed = k.sensed ∧
        t.svp = s.svpReported (.pocketEvent .faultCleared c p .fault k.tool k.mark none :: rs) ∧
        (k.tool.isSome = true → (t.pocket c p).state = .occupied ∨ (t.pocket c p).state = .expectTake) ∧
        (k.tool = none → k.sensed = .present →
          (t.pocket c p).state = if k.mark = none then .unknown else .occupied) ∧
        (k.tool = none → k.sensed ≠ .present →
          (t.pocket c p).mark = none ∧ ((t.pocket c p).state = .empty ∨ (t.pocket c p).state = .expectPlace)))

/-! ### Chapter 3: issue requests and allocation -/

/-- R50, R51, R53, R54, R66: ISSUE is NOT_IN_MODE in LOADING, RANGE for a type outside 1 to 512, a station outside 1 to 32, a place
outside the station's count, a priority that is no code of 11.3 or a minimum life outside 1 to 4,000,000, NO_SUCH for an absent type,
merges into a live request for the same station, place and type, and otherwise enters under a free number, reported ENTERED first.
Where 64 requests are live or no number is free, an URGENT one evicts the PREFETCH request that R54 names, its reservation released
first (R61), and enters under a number that is free then, with the request gone and the released instance's link cleared (R48);
otherwise it is FULL. A station's CALL and CALL_CANCEL answer by the first row that applies, with the same effects; an automatic
request merges or enters in the same way, and one that cannot enter is dropped with REQUEST_DROPPED. The model's choices: the reason
is QUEUE_FULL where both fail (log entry 60), station 0 names the bench, which
has no place (log entry 46), and one pass follows an eviction, after the entry (log entry 71). -/
def Obligations.IssueEntersOrMerges : Prop :=
  (∀ (s : State) (tag : Byte) (body : List Byte), s.takesNow 0x18 tag body = true → tableSorted s.trg.insts = true →
    let type := fieldAt body 0 2
    let st := fieldAt body 2 1
    let place := fieldAt body 3 1
    let inRange := (1 ≤ type ∧ type ≤ 512) ∧
      (st = 0 ∨ ((1 ≤ st ∧ st ≤ 32) ∧ 1 ≤ place ∧ place ≤ (s.station st).places)) ∧
      (1 ≤ fieldAt body 4 1 ∧ fieldAt body 4 1 ≤ 3) ∧
      (flagAt body 5 1 = true → 1 ≤ fieldAt body 10 3 ∧ fieldAt body 10 3 ≤ 4000000)
    let q : NewRequest :=
      { origin := .supervisor, type := type
        dest := if st = 0 then .bench else .station st place
        prio := if fieldAt body 4 1 = 1 then .urgent else if fieldAt body 4 1 = 2 then .normal else .prefetch
        neededBy := if flagAt body 5 0 then some (fieldAt body 6 4) else none
        minLife := if flagAt body 5 1 then some (fieldAt body 10 3) else none }
    let serves := fun (r : Request) => st ≠ 0 ∧ s.requestFor st place type = some r
    let newNeed := st = 0 ∨ s.requestFor st place type = none
    (s.svp.mode = .loading → exec (.issue tag body) s = .next (s.answered 0x18 tag body (.plain .notInMode))) ∧
    (s.svp.mode = .running → ¬ inRange → exec (.issue tag body) s = .next (s.answered 0x18 tag body (.plain .range))) ∧
    (s.svp.mode = .running → inRange →
      (s.type type = none → exec (.issue tag body) s = .next (s.answered 0x18 tag body (.plain .noSuch))) ∧
      (∀ ty r, s.type type = some ty → serves r →
        ∃ t rs, exec (.issue tag body) s = .next t ∧ s.OthersPassedBy t (r.tool.getD 0) ∧ s.ToolsOnly t ∧ t.hoe = s.hoe ∧
          t.svp = s.svpAnswered 0x18 tag body
            (.requestState { r with
                prio := if r.prio.rank ≤ q.prio.rank then r.prio else q.prio
                neededBy := match r.neededBy, q.neededBy with
                  | some x, some y => some (min x y)
                  | some x, none => some x
                  | none, y => y
                minLife := match r.minLife, q.minLife with
                  | some x, some y => some (max x y)
                  | some x, none => some x
                  | none, y => y } .merged :: rs)
            { code := .accepted, data := .requestHandle r.number true }) ∧
      (∀ ty, s.type type = some ty → newNeed →
        64 ≤ s.isc.queue.length ∨ s.freeNumber 255 s.isc.nextNumber = none →
        (q.prio ≠ .urgent ∨ ∀ r ∈ s.isc.queue, r.prio = .prefetch → r.state ≠ .queued ∧ r.state ≠ .waitingStock ∧ r.state ≠ .reserved) →
        exec (.issue tag body) s = .next (s.answered 0x18 tag body (.plain .full))) ∧
      (∀ ty k, s.type type = some ty → newNeed → s.isc.queue.length < 64 →
        s.freeNumber 255 s.isc.nextNumber = some k →
        ∃ t rs r, exec (.issue tag body) s = .next t ∧ s.AllPassedBy t ∧ s.ToolsOnly t ∧ t.hoe = s.hoe ∧
          r ∈ t.isc.queue ∧ r.number = k ∧ r.origin = .supervisor ∧ r.type = q.type ∧ r.dest = q.dest ∧ r.prio = q.prio ∧
          r.neededBy = q.neededBy ∧ r.minLife = q.minLife ∧ r.misses = 0 ∧ r.enqTick = s.tick ∧
          (r.state = .waitingStock ∨ r.state = .reserved) ∧ t.isc.nextNumber = (if k ≥ 255 then 1 else k + 1) ∧
          t.svp = s.svpAnswered 0x18 tag body
            (.requestState
              { number := k, origin := .supervisor, type := q.type, dest := q.dest, prio := q.prio, neededBy := q.neededBy,
                minLife := q.minLife, state := .queued, tool := none, misses := 0, enqTick := s.tick, reserveTick := none,
                entry := s.isc.entries } .entered :: rs)
            { code := .accepted, data := .requestHandle k false }) ∧
      (∀ ty v n rel, s.type type = some ty → newNeed → q.prio = .urgent →
        s.isc.queue.length = 64 ∨ (s.isc.queue.length < 64 ∧ s.freeNumber 255 s.isc.nextNumber = none) →
        (s.isc.queue.map (·.number)).Nodup → s.Evicts v → s.Releases v n rel →
        let evicted : Report := .requestState { v with state := .cancelled, tool := none, reserveTick := none } .evicted
        (∀ k, (s.without v).freeNumber 255 s.isc.nextNumber = some k →
          ∃ t rs, exec (.issue tag body) s = .next t ∧ s.OthersPassedBy t n ∧ s.ToolsOnly t ∧ t.hoe = s.hoe ∧
            (∃ r ∈ t.isc.queue, r.number = k ∧ r.type = q.type ∧ r.dest = q.dest ∧ r.origin = .supervisor) ∧
            (k ≠ v.number → t.request v.number = none) ∧
            t.svp = s.svpAnswered 0x18 tag body (rel ++ evicted :: .requestState (s.entrant q k) .entered :: rs)
              { code := .accepted, data := .requestHandle k false }) ∧
        ((s.without v).freeNumber 255 s.isc.nextNumber = none →
          ∃ t rs, exec (.issue tag body) s = .next t ∧ s.OthersPassedBy t n ∧ s.ToolsOnly t ∧ t.hoe = s.hoe ∧
            t.request v.number = none ∧ t.svp = s.svpAnswered 0x18 tag body (rel ++ evicted :: rs) (.plain .full))))) ∧
  (∀ (s : State) (n place type : Nat) (prio : Priority) (offset minLife : Option Nat),
    let m : StationMsg := .call type place prio offset minLife
    let q : NewRequest :=
      { origin := .station n, type := type, dest := .station n place, prio := prio
        neededBy := offset.map (fun o => min (s.hck.hall.sec + o) 4294967295), minLife := minLife }
    let placed := 1 ≤ place ∧ place ≤ (s.station n).places
    (s.svp.mode = .loading → s.stationEffect n m = (s, .notRunning, none)) ∧
    (s.svp.mode = .running → ¬ placed → s.stationEffect n m = (s, .placeRange, none)) ∧
    (s.svp.mode = .running → placed → s.type type = none → s.stationEffect n m = (s, .badType, none)) ∧
    (∀ ty, s.type type = some ty → s.svp.mode = .running → placed → tableSorted s.trg.insts = true →
      (∀ r, s.requestFor n place type = some r →
        ∃ t rs, s.stationEffect n m = (t, .merged, some r.number) ∧ s.OthersPassedBy t (r.tool.getD 0) ∧
          s.Raises t (.requestState (r.folded q) .merged :: rs) ∧ t.hoe = s.hoe) ∧
      (s.requestFor n place type = none →
        (s.isc.queue.length < 64 → ∀ k, s.freeNumber 255 s.isc.nextNumber = some k →
          ∃ t rs, s.stationEffect n m = (t, .ok, some k) ∧ s.AllPassedBy t ∧ t.hoe = s.hoe ∧
            (∃ r ∈ t.isc.queue, r.number = k ∧ r.type = type ∧ r.dest = .station n place) ∧
            s.Raises t (.requestState (s.entrant q k) .entered :: rs)) ∧
        (64 ≤ s.isc.queue.length ∨ s.freeNumber 255 s.isc.nextNumber = none →
          (prio ≠ .urgent ∨ ∀ r ∈ s.isc.queue, r.prio = .prefetch → r.state = .issued ∨ r.state = .delivered ∨
            r.state = .cancelled ∨ r.state = .expired) →
          s.stationEffect n m = (s, .queueFull, none)) ∧
        (∀ v k rel, prio = .urgent →
          s.isc.queue.length = 64 ∨ (s.isc.queue.length < 64 ∧ s.freeNumber 255 s.isc.nextNumber = none) →
          (s.isc.queue.map (·.number)).Nodup → s.Evicts v → s.Releases v k rel →
          let evicted : Report := .requestState { v with state := .cancelled, tool := none, reserveTick := none } .evicted
          (∀ j, (s.without v).freeNumber 255 s.isc.nextNumber = some j →
            ∃ t rs, s.stationEffect n m = (t, .ok, some j) ∧ s.OthersPassedBy t k ∧ t.hoe = s.hoe ∧
              (j ≠ v.number → t.request v.number = none) ∧
              s.Raises t (rel ++ evicted :: .requestState (s.entrant q j) .entered :: rs)) ∧
          ((s.without v).freeNumber 255 s.isc.nextNumber = none →
            ∃ t rs, s.stationEffect n m = (t, .queueFull, none) ∧ s.OthersPassedBy t k ∧ t.hoe = s.hoe ∧
              t.request v.number = none ∧ s.Raises t (rel ++ evicted :: rs)))))) ∧
  (∀ (s : State) (n place type : Nat),
    let m : StationMsg := .callCancel place type
    let placed := 1 ≤ place ∧ place ≤ (s.station n).places
    (s.svp.mode = .loading → s.stationEffect n m = (s, .notRunning, none)) ∧
    (s.svp.mode = .running → ¬ placed → s.stationEffect n m = (s, .placeRange, none)) ∧
    (s.svp.mode = .running → placed →
      (s.requestFor n place type = none → s.stationEffect n m = (s, .stale, none)) ∧
      (∀ r, s.requestFor n place type = some r →
        (r.state = .issued → s.stationEffect n m = (s, .stale, none)) ∧
        (∀ k rel, s.Releases r k rel → tableSorted s.trg.insts = true →
          ∃ t rs, s.stationEffect n m = (t, .ok, none) ∧ t.request r.number = none ∧ s.OthersPassedBy t k ∧ t.hoe = s.hoe ∧
            s.Raises t (rel ++ .requestState
              { r with
                state := .cancelled, tool := if rel = [] then r.tool else none
                reserveTick := if rel = [] then r.reserveTick else none } .cancelledStation :: rs) ∧
            (rel = [] → rs = [] ∧ t.trg = s.trg))))) ∧
  (∀ (s : State) (st place type : Nat) (prio : Priority), tableSorted s.trg.insts = true →
    let q : NewRequest :=
      { origin := .auto, type := type, dest := .station st place, prio := prio, neededBy := none, minLife := none }
    (∀ r, s.requestFor st place type = some r →
      ∃ t rs, s.autoRequest st place type prio = t ∧ s.OthersPassedBy t (r.tool.getD 0) ∧ t.hoe = s.hoe ∧
        s.Raises t (.requestState (r.folded q) .merged :: rs)) ∧
    (∀ k, s.requestFor st place type = none → s.isc.queue.length < 64 → s.freeNumber 255 s.isc.nextNumber = some k →
      ∃ t rs, s.autoRequest st place type prio = t ∧ s.AllPassedBy t ∧ t.hoe = s.hoe ∧
        (∃ r ∈ t.isc.queue, r.number = k ∧ r.type = type ∧ r.dest = .station st place) ∧
        s.Raises t (.requestState (s.entrant q k) .entered :: rs)) ∧
    (∀ v k rel, s.requestFor st place type = none → prio = .urgent →
      s.isc.queue.length = 64 ∨ (s.isc.queue.length < 64 ∧ s.freeNumber 255 s.isc.nextNumber = none) →
      (s.isc.queue.map (·.number)).Nodup → s.Evicts v → s.Releases v k rel →
      let evicted : Report := .requestState { v with state := .cancelled, tool := none, reserveTick := none } .evicted
      ∃ t rs, s.autoRequest st place type prio = t ∧ s.OthersPassedBy t k ∧ t.hoe = s.hoe ∧
        (∀ j, (s.without v).freeNumber 255 s.isc.nextNumber = some j →
          (j ≠ v.number → t.request v.number = none) ∧
          s.Raises t (rel ++ evicted :: .requestState (s.entrant q j) .entered :: rs)) ∧
        ((s.without v).freeNumber 255 s.isc.nextNumber = none →
          t.request v.number = none ∧
          s.Raises t (rel ++ evicted :: rs ++ [.requestDropped st place type prio .noNumber])))) ∧
  (∀ (s : State) (st place type : Nat) (prio : Priority), s.requestFor st place type = none →
    64 ≤ s.isc.queue.length ∨ s.freeNumber 255 s.isc.nextNumber = none →
    (prio ≠ .urgent ∨ ∀ r ∈ s.isc.queue, r.prio ≠ .prefetch) →
    let dropped : Report := .requestDropped st place type prio (if 64 ≤ s.isc.queue.length then .queueFull else .noNumber)
    s.autoRequest st place type prio = { s with svp := s.svp.handed s.now [dropped] })

/-- R66: CANCEL of a live request that is not ISSUED ends it, reported CANCELLED with CANCELLED_HOST, a reservation released first;
an ISSUED one, a number naming none, and any in LOADING are refused and change nothing. -/
def Obligations.CancelEndsRequest : Prop :=
  ∀ (s : State) (tag : Byte) (body : List Byte), s.takesNow 0x19 tag body = true → tableSorted s.trg.insts = true →
    let k := fieldAt body 0 1
    (s.svp.mode = .loading → exec (.cancel tag body) s = .next (s.answered 0x19 tag body (.plain .notInMode))) ∧
    (s.svp.mode = .running → k = 0 → exec (.cancel tag body) s = .next (s.answered 0x19 tag body (.plain .range))) ∧
    (s.svp.mode = .running → k ≠ 0 → s.request k = none → exec (.cancel tag body) s = .next (s.answered 0x19 tag body (.plain .noSuch))) ∧
    (∀ r, s.svp.mode = .running → k ≠ 0 → s.request k = some r →
      (r.state = .issued → exec (.cancel tag body) s = .next (s.answered 0x19 tag body (.plain .state))) ∧
      (r.state = .queued ∨ r.state = .waitingStock →
        exec (.cancel tag body) s = .next
          { s with
            isc := { s.isc with queue := s.isc.queue.filter (fun x => x.number ≠ k) }
            svp := s.svpAnswered 0x19 tag body [.requestState { r with state := .cancelled } .cancelledHost] (.plain .ok)
            lines := Lines.quiet }) ∧
      (∀ n i, r.state = .reserved → r.tool = some n → s.tool n = some i → i.custody = .reserved →
        (i.loc = .bench ∨ ∃ c p, i.loc = .pocket c p) →
        ∃ t rs j, exec (.cancel tag body) s = .next t ∧ t.request k = none ∧ t.tool n = some j ∧
          InstRec.PassedBy
            { i with
              custody := if i.life = 0 then .regrindDue else if i.loc = .bench then .staged else .ready
              link := none, qcause := none } j ∧
          s.OthersPassedBy t n ∧ s.ToolsOnly t ∧ t.hoe = s.hoe ∧
          t.svp = s.svpAnswered 0x19 tag body
            (.custodyChange n i.type (some .reserved) i.loc
                (some (if i.life = 0 then .regrindDue else if i.loc = .bench then .staged else .ready)) i.loc .release none ::
              .requestState { r with state := .cancelled, tool := none, reserveTick := none } .cancelledHost :: rs)
            (.plain .ok)))

/-- R60, R72, R74: HAND_OUT takes a bench reservation as picked; BENCH_RETURN brings an instance ISSUED to the bench back; each is
refused in LOADING, for a number out of range, for a request that is not live or an absent instance, and in every other state with
STATE. SET_ISSUE with a value out of range is refused with RANGE; otherwise each value given is set, and where no reservation or
assignment is past its new value nothing else changes. -/
def Obligations.BenchMovesAndIssueSettings : Prop :=
  (∀ (s : State) (tag : Byte) (body : List Byte), s.svp.mode = .loading →
      (s.takesNow 0x1A tag body = true → exec (.handOut tag body) s = .next (s.answered 0x1A tag body (.plain .notInMode))) ∧
      (s.takesNow 0x1B tag body = true →
        exec (.benchReturn tag body) s = .next (s.answered 0x1B tag body (.plain .notInMode)))) ∧
  (∀ (s : State) (tag : Byte) (body : List Byte), s.svp.mode = .running →
      (s.takesNow 0x1A tag body = true → fieldAt body 0 1 = 0 →
        exec (.handOut tag body) s = .next (s.answered 0x1A tag body (.plain .range))) ∧
      (s.takesNow 0x1A tag body = true → fieldAt body 0 1 ≠ 0 → s.request (fieldAt body 0 1) = none →
        exec (.handOut tag body) s = .next (s.answered 0x1A tag body (.plain .noSuch))) ∧
      (s.takesNow 0x1B tag body = true → ¬ (1 ≤ fieldAt body 0 2 ∧ fieldAt body 0 2 ≤ 2048) →
        exec (.benchReturn tag body) s = .next (s.answered 0x1B tag body (.plain .range))) ∧
      (s.takesNow 0x1B tag body = true → 1 ≤ fieldAt body 0 2 → fieldAt body 0 2 ≤ 2048 → s.tool (fieldAt body 0 2) = none →
        exec (.benchReturn tag body) s = .next (s.answered 0x1B tag body (.plain .noSuch))) ∧
      (∀ r, s.takesNow 0x1A tag body = true → fieldAt body 0 1 ≠ 0 → s.request (fieldAt body 0 1) = some r →
        (r.state ≠ .reserved → exec (.handOut tag body) s = .next (s.answered 0x1A tag body (.plain .state))) ∧
        (∀ n i, r.state = .reserved → r.tool = some n → s.tool n = some i →
          (i.loc ≠ .bench → exec (.handOut tag body) s = .next (s.answered 0x1A tag body (.plain .state))) ∧
          (i.loc = .bench → i.custody = .reserved →
            ∃ t rs j, exec (.handOut tag body) s = .next t ∧ t.tool n = some j ∧
              j = { i with custody := .issued, loc := r.dest.transit, qcause := none, owed := j.owed } ∧
              s.OthersStand t n ∧ s.ToolsOnly t ∧ t.psc = s.psc ∧
              t.svp = s.svpAnswered 0x1A tag body
                (.custodyChange n i.type (some .reserved) .bench (some .issued) r.dest.transit .handOut i.link ::
                  .requestState { r with state := .issued, reserveTick := none } .handOut :: rs) (.plain .ok)))) ∧
      (∀ i, s.takesNow 0x1B tag body = true → toolNo (fieldAt body 0 2) = true → s.tool (fieldAt body 0 2) = some i →
        (¬ (i.custody = .issued ∧ i.loc = .toBench) →
          exec (.benchReturn tag body) s = .next (s.answered 0x1B tag body (.plain .state))) ∧
        (i.custody = .issued → i.loc = .toBench →
          ∃ t rs, exec (.benchReturn tag body) s = .next t ∧
            t.tool (fieldAt body 0 2) =
              some { i with custody := .returning, loc := .backBench, link := none, qcause := none, owed := false } ∧
            s.OthersPassedBy t (fieldAt body 0 2) ∧ s.ToolsOnly t ∧
            t.svp = s.svpAnswered 0x1B tag body
              (.custodyChange (fieldAt body 0 2) i.type (some .issued) .toBench (some .returning) .backBench .benchReturn none :: rs)
              (.plain .ok)))) ∧
  (∀ (s : State) (tag : Byte) (body : List Byte), s.takesNow 0x1C tag body = true →
      let pick : Option Nat := if flagAt body 0 0 then some (fieldAt body 1 2) else none
      let grace : Option Nat := if flagAt body 0 1 then some (fieldAt body 3 2) else none
      let putaway : Option Nat := if flagAt body 0 2 then some (fieldAt body 5 2) else none
      let inRange := (∀ v ∈ pick, 10 ≤ v ∧ v ≤ 600) ∧ (∀ v ∈ grace, v ≤ 3600) ∧ (∀ v ∈ putaway, 60 ≤ v ∧ v ≤ 1800)
      let isc := { s.isc with
        pickTimeout := pick.getD s.isc.pickTimeout, expiryGrace := grace.getD s.isc.expiryGrace
        putawayTimeout := putaway.getD s.isc.putawayTimeout }
      (¬ inRange → exec (.setIssue tag body) s = .next (s.answered 0x1C tag body (.plain .range))) ∧
      (inRange →
        ∃ t rs, exec (.setIssue tag body) s = .next t ∧ t.isc.pickTimeout = isc.pickTimeout ∧
          t.isc.expiryGrace = isc.expiryGrace ∧ t.isc.putawayTimeout = isc.putawayTimeout ∧ s.ToolsOnly t ∧
          t.svp = s.svpAnswered 0x1C tag body rs (.plain .ok) ∧
          ((∀ r ∈ s.isc.queue, ∀ b ∈ r.reserveTick, r.state = .reserved → s.tick < b + isc.pickTimeout * 1000) →
            (∀ e ∈ s.isc.assigned, s.tick < e.2.tick + isc.putawayTimeout * 1000) →
            t = { s with isc := isc, svp := s.svpAnswered 0x1C tag body [] (.plain .ok), lines := Lines.quiet })))

/-- R62, R19: the pick timeout of a reservation releases it and counts a miss: a pocket's late-pick memory is set for 15 s of ticks
while the misses stay below 3, and the instance is not offered meanwhile; the third miss ends the request. An instance without life
becomes REGRIND_DUE, one reserved at the bench STAGED. The model's choice: before its time the row changes nothing (log entry 3). -/
def Obligations.PickTimeoutReleasesReservation : Prop :=
  (∀ (s : State) (k n c p b : Nat) (r : Request) (i : InstRec), tableSorted s.trg.insts = true → s.request k = some r →
    r.state = .reserved → r.tool = some n → r.reserveTick = some b → s.tool n = some i → i.custody = .reserved →
    i.loc = .pocket c p →
    (b + s.isc.pickTimeout * 1000 ≤ s.tick →
      ∃ t rs j, exec (.pickTimeout k) s = .next t ∧ s.ToolsOnly t ∧ t.hoe = s.hoe ∧ s.OthersPassedBy t n ∧ t.tool n = some j ∧
        (r.misses < 2 →
          j = { i with custody := if i.life = 0 then .regrindDue else .ready, link := none, qcause := none } ∧
          tget t.isc.latePicks (pocketKey c p) = some { request := k, tool := n, endTick := s.tick + 15000 } ∧
          (∃ r', t.request k = some r' ∧ r'.misses = r.misses + 1) ∧
          t.svp = s.svpReported
            (.custodyChange n i.type (some .reserved) i.loc (some (if i.life = 0 then .regrindDue else .ready)) i.loc .release none ::
              .requestState { r with state := .queued, tool := none, reserveTick := none, misses := r.misses + 1 } .pickTimeout ::
              rs)) ∧
        (2 ≤ r.misses →
          t.request k = none ∧ t.isc.latePicks = s.isc.latePicks ∧
          InstRec.PassedBy
            { i with custody := if i.life = 0 then .regrindDue else .ready, link := none, qcause := none } j ∧
          t.svp = s.svpReported
            (.custodyChange n i.type (some .reserved) i.loc (some (if i.life = 0 then .regrindDue else .ready)) i.loc .release none ::
              .requestState { r with state := .cancelled, tool := none, reserveTick := none, misses := r.misses + 1 } .pickMissed ::
              rs))) ∧
    (s.tick < b + s.isc.pickTimeout * 1000 →
      exec (.pickTimeout k) s = .next s.idled)) ∧
  (∀ (s : State) (k n b : Nat) (r : Request) (i : InstRec), tableSorted s.trg.insts = true → s.request k = some r →
    r.state = .reserved → r.tool = some n → r.reserveTick = some b → s.tool n = some i → i.custody = .reserved → i.loc = .bench →
    let after : Custody := if i.life = 0 then .regrindDue else .staged
    let free := { r with tool := none, reserveTick := none, misses := r.misses + 1 }
    (b + s.isc.pickTimeout * 1000 ≤ s.tick →
      ∃ t rs j, exec (.pickTimeout k) s = .next t ∧ s.ToolsOnly t ∧ t.hoe = s.hoe ∧ s.OthersPassedBy t n ∧ t.tool n = some j ∧
        InstRec.PassedBy { i with custody := after, link := none, qcause := none } j ∧ t.isc.latePicks = s.isc.latePicks ∧
        (r.misses < 2 → ∃ r', t.request k = some r' ∧ r'.misses = r.misses + 1) ∧ (2 ≤ r.misses → t.request k = none) ∧
        t.svp = s.svpReported
          (.custodyChange n i.type (some .reserved) i.loc (some after) i.loc .release none ::
            .requestState { free with state := if r.misses < 2 then .queued else .cancelled }
              (if r.misses < 2 then .pickTimeout else .pickMissed) :: rs)) ∧
    (s.tick < b + s.isc.pickTimeout * 1000 → exec (.pickTimeout k) s = .next s.idled))

/-- R63, R65, R70: a late-pick memory ends at its end tick; at a new hall second every expired NORMAL or PREFETCH request leaves the
queue; an assignment past the put-away timeout makes its instance MISSING. The model's choices: before its time a row changes nothing
(log entry 3), and requests that expire at one test are reported in service order (log entry 82). -/
def Obligations.IssueTimersExpire : Prop :=
  (∀ (s : State) (c p : Nat) (m : LatePick), 1 ≤ c → c ≤ 12 → 1 ≤ p → p ≤ 64 → tableSorted s.trg.insts = true →
    tget s.isc.latePicks (pocketKey c p) = some m →
    (m.endTick ≤ s.tick →
      ∃ t rs, exec (.latePickEnd c p) s = .next t ∧ tget t.isc.latePicks (pocketKey c p) = none ∧ s.AllPassedBy t ∧
        s.ToolsOnly t ∧ t.hoe = s.hoe ∧ t.svp = s.svpReported rs) ∧
    (s.tick < m.endTick → exec (.latePickEnd c p) s = .next s.idled)) ∧
  (∀ (s : State), (s.isc.queue.map (·.number)).Nodup →
    let late := fun (r : Request) => decide (r.state = .queued ∨ r.state = .waitingStock) && decide (r.prio ≠ .urgent) &&
      (r.neededBy.any (fun b => decide (b + s.isc.expiryGrace < s.hck.hall.sec)))
    exec .hallSecond s = .next
      { s with
        isc := { s.isc with queue := s.isc.queue.filter (fun r => !late r) }
        svp := s.svpReported ((s.isc.queue.filter late).map (fun r => .requestState { r with state := .expired } .expired))
        lines := Lines.quiet }) ∧
  (∀ (s : State) (n : Nat) (a : Assignment) (i : InstRec), tget s.isc.assigned n = some a → s.tool n = some i →
    (a.tick + s.isc.putawayTimeout * 1000 ≤ s.tick →
      ∃ t, exec (.putawayTimeout n) s = .next t ∧
        t.tool n = some { i with
          custody := .missing, loc := .nowhere, qcause := none, link := none
          owed := if i.custody = .issued then false else i.owed } ∧
        s.OthersStand t n ∧ s.ToolsOnly t ∧ t.hoe = s.hoe ∧ t.isc.queue = s.isc.queue ∧ tget t.isc.assigned n = none ∧
        t.svp = s.svpReported
          [.custodyChange n i.type (some i.custody) i.loc (some .missing) .nowhere .putawayTimeout none,
           .discrepancy .putawayTimeout a.cabinet a.pocket (some n) (some i.custody)]) ∧
    (s.tick < a.tick + s.isc.putawayTimeout * 1000 →
      exec (.putawayTimeout n) s = .next s.idled))

/-- R48, R49: a new request takes the next request number, or the first after it, cyclically, that is not in use, and none only
where all 255 are; it takes its place in the service order, which the queue keeps, behind the requests equal to it. -/
def Obligations.RequestNumberAndPlace : Prop :=
  (∀ (s : State) (next : Nat), 1 ≤ next → next ≤ 255 →
      let inUse := fun (k : Nat) => (∃ r ∈ s.isc.queue, r.number = k) ∨ (∃ e ∈ s.trg.insts, e.2.link = some k)
      let nth := fun (d : Nat) => (next - 1 + d) % 255 + 1
      (∀ k, s.freeNumber 255 next = some k ↔ ∃ d, d < 255 ∧ k = nth d ∧ ¬ inUse k ∧ ∀ e, e < d → inUse (nth e)) ∧
      (s.freeNumber 255 next = none ↔ ∀ k, 1 ≤ k → k ≤ 255 → inUse k)) ∧
  (∀ (q : List Request) (r : Request),
      (placeRequest q r).Perm (r :: q) ∧
      (q.Pairwise (fun a b => b.before a = false) → (placeRequest q r).Pairwise (fun a b => b.before a = false)) ∧
      (∃ front back, placeRequest q r = front ++ r :: back ∧ q = front ++ back ∧ ∀ x ∈ front, r.before x = false))

/-- R56, R68: the instance chosen for a request is a candidate, and no candidate has less life, or as much and an older measurement,
or both alike and a lower number; none is chosen only where no candidate exists. A put-away takes the first suitable pocket, those
of the home cabinet before the others, each from the lowest cabinet and pocket; none is found only where no pocket is suitable. -/
def Obligations.AllocationAndPutAwayChoices : Prop :=
  (∀ (s : State) (r : Request),
      let candidate := fun (i : InstRec) => i.type = r.type ∧ ∃ t, s.type r.type = some t ∧ t.held = false ∧
        (match r.minLife with
          | some m => min m t.budget
          | none => 1) ≤ i.life ∧
        ((i.custody = .ready ∧ ∃ c p, i.loc = .pocket c p ∧ (s.pocket c p).enabled = true ∧ (s.pocket c p).baseline ≠ none ∧
            (s.pocket c p).state ≠ .fault ∧ tget s.isc.latePicks (pocketKey c p) = none) ∨
          (i.custody = .staged ∧ i.loc = .bench ∧ r.prio = .urgent))
      (s.chooseCandidate r = none ↔ ∀ e ∈ s.trg.insts, ¬ candidate e.2) ∧
      (∀ n i, s.chooseCandidate r = some (n, i) →
        (n, i) ∈ s.trg.insts ∧ candidate i ∧
        ∀ m j, (m, j) ∈ s.trg.insts → candidate j →
          i.life < j.life ∨ (i.life = j.life ∧ (i.measuredAt < j.measuredAt ∨ (i.measuredAt = j.measuredAt ∧ n ≤ m))))) ∧
  (∀ (s : State) (z : Zone) (home : Option Nat), tableSorted s.psc.pockets = true →
      let suits := fun (c p : Nat) => (s.pocket c p).state = .empty ∧ (s.pocket c p).enabled = true ∧
        (s.pocket c p).baseline ≠ none ∧ (s.pocket c p).zone = z
      (s.suitablePocket z home = none ↔ ∀ c p, 1 ≤ p → p ≤ 64 → ¬ suits c p) ∧
      (∀ key, s.suitablePocket z home = some key →
        suits (keyCabinet key) (keyPocket key) ∧
        (∀ c p, 1 ≤ p → p ≤ 64 → suits c p → some c = home →
          some (keyCabinet key) = home ∧ key ≤ pocketKey c p) ∧
        ((∀ c p, 1 ≤ p → p ≤ 64 → suits c p → some c ≠ home) → ∀ c p, 1 ≤ p → p ≤ 64 → suits c p → key ≤ pocketKey c p)))


/-! ### Chapter 4: presetting sessions -/

/-- R99, R94: SET_CURVE answers RANGE, BUSY, BAD_LENGTH and RANGE in that order; accepted, it stores the table and removes the
head's zero, reported REMOVED whatever its validity was (the model's choice, log entry 42: an absent zero has no report), and the
head's availability is reported where it changes. -/
def Obligations.SetCurveLoadsTable : Prop :=
  ∀ (s : State) (tag : Byte) (body : List Byte), s.takesNow 0x28 tag body = true →
    let values := signedPairs (body.drop 3)
    let axis := fieldAt body 1 1
    (headOf (fieldAt body 0 1) = none ∨ 1 < axis →
      exec (.setCurve tag body) s = .next (s.answered 0x28 tag body (.plain .range))) ∧
    (∀ h, headOf (fieldAt body 0 1) = some h → axis ≤ 1 →
      ((s.head h).session ≠ none → exec (.setCurve tag body) s = .next (s.answered 0x28 tag body (.plain .busy))) ∧
      ((s.head h).session = none → values.length ≠ (if axis = 0 then 17 else 9) →
        exec (.setCurve tag body) s = .next (s.answered 0x28 tag body (.plain .badLength))) ∧
      ((s.head h).session = none → values.length = (if axis = 0 then 17 else 9) → (∃ v ∈ values, v < -2000 ∨ 2000 < v) →
        exec (.setCurve tag body) s = .next (s.answered 0x28 tag body (.plain .range))) ∧
      ((s.head h).session = none → values.length = (if axis = 0 then 17 else 9) → (∀ v ∈ values, -2000 ≤ v ∧ v ≤ 2000) →
        ∃ t, exec (.setCurve tag body) s = .next t ∧ s.HeadOnly t h ∧ t.lines = Lines.quiet ∧
          t.head h = { s.head h with
            zCurve := if axis = 0 then some values else (s.head h).zCurve
            xCurve := if axis = 0 then (s.head h).xCurve else some values
            zero := none, zeroOk := false } ∧
          t.svp = s.svpAnswered 0x28 tag body
            ((if (s.head h).zero = none then [] else [.zeroState h false .removed]) ++
             (if (t.head h).available = (s.head h).available then [] else [.headState h true none])) (.plain .ok)))

/-- R100, R94: SET_HEAD answers RANGE, BUSY and RANGE in that order; accepted, each value given is set, every other stands, and a
change of the zero's validity is reported. -/
def Obligations.SetHeadSetsValuesGiven : Prop :=
  ∀ (s : State) (tag : Byte) (body : List Byte), s.takesNow 0x29 tag body = true →
    (headOf (fieldAt body 0 1) = none → exec (.setHead tag body) s = .next (s.answered 0x29 tag body (.plain .range))) ∧
    (∀ h, headOf (fieldAt body 0 1) = some h →
      let old := (s.head h).settings
      let new : HeadSettings :=
        { masterLength := if flagAt body 1 0 then fieldAt body 4 3 else old.masterLength
          masterRadius := if flagAt body 1 1 then fieldAt body 7 3 else old.masterRadius
          scaleCoeff := if flagAt body 1 2 then fieldAt body 10 2 else old.scaleCoeff
          offsets := (List.range 16).map (fun c =>
            if (fieldAt body 2 2).testBit c then signedAt body (12 + 3 * c) 3 else old.offsets.getD c 0)
          k := if flagAt body 1 3 then fieldAt body 60 1 else old.k
          n := if flagAt body 1 4 then fieldAt body 61 1 else old.n
          band := if flagAt body 1 5 then fieldAt body 62 2 else old.band
          zeroLife := if flagAt body 1 6 then fieldAt body 64 1 else old.zeroLife
          drift := if flagAt body 1 7 then fieldAt body 65 2 else old.drift }
      ((s.head h).session ≠ none → exec (.setHead tag body) s = .next (s.answered 0x29 tag body (.plain .busy))) ∧
      ((s.head h).session = none → new.inRange = false →
        exec (.setHead tag body) s = .next (s.answered 0x29 tag body (.plain .range))) ∧
      ((s.head h).session = none → new.inRange = true →
        ∃ t zs, exec (.setHead tag body) s = .next t ∧ s.HeadOnly t h ∧ t.lines = Lines.quiet ∧
          t.head h = { s.head h with settings := new, zeroOk := (t.head h).zeroValid s.tick } ∧
          (∀ x ∈ zs, x.isZeroState h) ∧ (zs = [] ↔ (t.head h).zeroOk = (s.head h).zeroOk) ∧
          t.svp = s.svpAnswered 0x29 tag body zs (.plain .ok)))

/-- R81, R87, R88: ZERO_HEAD and MEASURE_BEGIN answer by the first row that applies; accepted, a session opens under the next handle
and the head is told, and the instance is AT_PRESETTER at the head. A head other than A or B is a RANGE, as is an instance number
out of range, and an absent instance a NO_SUCH. -/
def Obligations.SessionsOpen : Prop :=
  (∀ (s : State) (tag : Byte) (body : List Byte) (h : HeadId), headOf (fieldAt body 0 1) = some h →
    let next := if s.svp.handle ≥ 65535 then 1 else s.svp.handle + 1
    let accepted : Reply := { code := .accepted, data := .handle s.svp.handle }
    (s.takesNow 0x2A tag body = true →
      (s.svp.mode = .loading → exec (.zeroHead tag body) s = .next (s.answered 0x2A tag body (.plain .notInMode))) ∧
      (s.svp.mode = .running → (s.head h).session ≠ none →
        exec (.zeroHead tag body) s = .next (s.answered 0x2A tag body (.plain .busy))) ∧
      (s.svp.mode = .running → (s.head h).session = none → (s.head h).available = false →
        exec (.zeroHead tag body) s = .next (s.answered 0x2A tag body (.plain .state))) ∧
      (s.svp.mode = .running → (s.head h).session = none → (s.head h).available = true →
        ∃ t, exec (.zeroHead tag body) s = .next t ∧ s.HeadOnly t h ∧ t.lines = Lines.toHead h [t.sessionFrame h] ∧
          t.head h = { s.head h with session := some (Session.opened .zero s.svp.handle) } ∧
          t.svp = { s.svpAnswered 0x2A tag body [] accepted with handle := next })) ∧
    (∀ r, s.takesNow 0x2B tag body = true → toolNo (fieldAt body 1 2) = true → s.tool (fieldAt body 1 2) = some r →
      let n := fieldAt body 1 2
      let fit := (r.custody = .unmeasured ∧ (r.loc = .bench ∨ ∃ c p, r.loc = .pocket c p)) ∨ r.custody = .ready ∨
        r.custody = .quarantine ∨ r.custody = .regrindDue ∨ r.custody = .missing
      (s.svp.mode = .loading → exec (.measureBegin tag body) s = .next (s.answered 0x2B tag body (.plain .notInMode))) ∧
      (s.svp.mode = .running → (s.head h).session ≠ none →
        exec (.measureBegin tag body) s = .next (s.answered 0x2B tag body (.plain .busy))) ∧
      (s.svp.mode = .running → (s.head h).session = none →
        ((s.head h).available = false →
          exec (.measureBegin tag body) s = .next (s.answered 0x2B tag body (.plain .state))) ∧
        ((s.head h).available = true → (s.head h).zeroValid s.tick = false →
          exec (.measureBegin tag body) s = .next (s.answered 0x2B tag body (.plain .zeroStale))) ∧
        ((s.head h).available = true → (s.head h).zeroValid s.tick = true → ¬ fit →
          exec (.measureBegin tag body) s = .next (s.answered 0x2B tag body (.plain .state))) ∧
        ((s.head h).available = true → (s.head h).zeroValid s.tick = true → fit → s.vacant n (.head h) = true →
          ∃ t, exec (.measureBegin tag body) s = .next t ∧ s.HeadAndTools t h ∧ t.hoe = s.hoe ∧ t.isc.queue = s.isc.queue ∧
            t.lines = Lines.toHead h [t.sessionFrame h] ∧ s.OthersStand t n ∧
            t.tool n = some { r with custody := .atPresetter, loc := .head h, link := none, qcause := none } ∧
            t.head h = { s.head h with session := some (Session.opened (.measure n r.custody r.qcause) s.svp.handle) } ∧
            tget t.isc.assigned n = none ∧ (∀ e ∈ t.isc.latePicks, e.2.tool ≠ n) ∧
            t.svp = { s.svpAnswered 0x2B tag body
              [.custodyChange n r.type (some r.custody) r.loc (some .atPresetter) (.head h) .measureBegin none] accepted with
                handle := next })))) ∧
  (∀ (s : State) (tag : Byte) (body : List Byte), ¬ (1 ≤ fieldAt body 0 1 ∧ fieldAt body 0 1 ≤ 2) →
    (s.takesNow 0x2A tag body = true →
      exec (.zeroHead tag body) s =
        .next (s.answered 0x2A tag body (.plain (if s.svp.mode = .loading then .notInMode else .range)))) ∧
    (s.takesNow 0x2B tag body = true →
      exec (.measureBegin tag body) s =
        .next (s.answered 0x2B tag body (.plain (if s.svp.mode = .loading then .notInMode else .range))))) ∧
  (∀ (s : State) (tag : Byte) (body : List Byte), 1 ≤ fieldAt body 0 1 → fieldAt body 0 1 ≤ 2 → s.takesNow 0x2B tag body = true →
    let n := fieldAt body 1 2
    (s.svp.mode = .loading → exec (.measureBegin tag body) s = .next (s.answered 0x2B tag body (.plain .notInMode))) ∧
    (s.svp.mode = .running → ¬ (1 ≤ n ∧ n ≤ 2048) →
      exec (.measureBegin tag body) s = .next (s.answered 0x2B tag body (.plain .range))) ∧
    (s.svp.mode = .running → 1 ≤ n ∧ n ≤ 2048 → s.tool n = none →
      exec (.measureBegin tag body) s = .next (s.answered 0x2B tag body (.plain .noSuch))))

/-- R89 to R93: MEASURE_END settles the instance by the verdict held: PASS stores the measurement and raises the generation, REJECT
removes it, anything else leaves both; MEASURE_ABORT acts on none. Each closing clears the session and tells the head. In LOADING
both are NOT_IN_MODE, for a head other than A or B RANGE; an IDLE session answers STATE, as MEASURE_END does for a ZERO session,
which MEASURE_ABORT closes with outcome ABORT, the zero kept. The model's choice: a SESSION_STATE that shows IDLE gives window start
0 (log entry 73). -/
def Obligations.SessionsCloseByVerdict : Prop :=
  (∀ (s : State) (tag : Byte) (body : List Byte) (h : HeadId) (x : Session) (n : Nat) (entry : Custody)
    (entryCause : Option QCause) (i : InstRec), headOf (fieldAt body 0 1) = some h → s.svp.mode = .running →
    (s.head h).session = some x → x.kind = .measure n entry entryCause → s.tool n = some i → i.custody = .atPresetter →
    tableSorted s.trg.insts = true →
    let unfinished := unfinishedCustody entry entryCause i.meas.isSome (s.typeHeld i.type) i.life
    let closes := fun (t : State) (kind : Byte) (cause : CloseCause) (acted : Option Verdict) (left : InstRec) (r : Reply) =>
      s.HeadAndTools t h ∧ s.OthersPassedBy t n ∧ (∃ j, t.tool n = some j ∧ left.PassedBy j) ∧
      t.head h = { s.head h with session := none } ∧ t.lines = Lines.toHead h [t.sessionFrame h] ∧
      ∃ rs, t.svp = s.svpAnswered kind tag body
        (.custodyChange n i.type (some .atPresetter) i.loc (some left.custody) .bench .measureEnd none ::
          .closed x.handle h n cause acted left.custody .bench :: rs) r
    (s.takesNow 0x2C tag body = true →
      ((x.result = none ∨ ∃ v, x.held = some v ∧ v ≠ .pass ∧ v ≠ .reject) →
        ∃ t, exec (.measureEnd tag body) s = .next t ∧
          closes t 0x2C .ended x.held { i with custody := unfinished, loc := .bench, qcause := none, link := none }
            { code := .ok, data := .sessionEnd x.held unfinished }) ∧
      (x.held = some .reject →
        ∃ t, exec (.measureEnd tag body) s = .next t ∧
          closes t 0x2C .ended (some .reject)
            { i with custody := .quarantine, loc := .bench, qcause := some .reject, link := none, meas := none }
            { code := .ok, data := .sessionEnd (some .reject) .quarantine }) ∧
      (∀ time v, x.result = some ⟨.pass, time, some v⟩ →
        let after : Custody :=
          if s.typeHeld i.type = true then .quarantine else if i.life = 0 then .regrindDue else .staged
        ∃ t, exec (.measureEnd tag body) s = .next t ∧
          closes t 0x2C .ended (some .pass)
            { i with
              custody := after, loc := .bench, link := none
              qcause := if s.typeHeld i.type = true then some .typeHold else none
              meas := some { length := v.length, radius := v.radius, runout := v.runout, time := time, head := h,
                             thermalLimited := v.thermalLimited }
              generation := min (i.generation + 1) 65535 }
            { code := .ok, data := .sessionEnd (some .pass) after })) ∧
    (s.takesNow 0x2D tag body = true →
      ∃ t, exec (.measureAbort tag body) s = .next t ∧
        closes t 0x2D .abort none { i with custody := unfinished, loc := .bench, qcause := none, link := none } (.plain .ok))) ∧
  (∀ (s : State) (tag : Byte) (body : List Byte),
    let ends := fun (r : ReplyCode) => s.takesNow 0x2C tag body = true →
      exec (.measureEnd tag body) s = .next (s.answered 0x2C tag body (.plain r))
    let aborts := fun (r : ReplyCode) => s.takesNow 0x2D tag body = true →
      exec (.measureAbort tag body) s = .next (s.answered 0x2D tag body (.plain r))
    (s.svp.mode = .loading → ends .notInMode ∧ aborts .notInMode) ∧
    (s.svp.mode = .running → headOf (fieldAt body 0 1) = none → ends .range ∧ aborts .range) ∧
    (∀ h, s.svp.mode = .running → headOf (fieldAt body 0 1) = some h →
      ((s.head h).session = none → ends .state ∧ aborts .state) ∧
      (∀ x, (s.head h).session = some x → x.kind = .zero →
        ends .state ∧
        (s.takesNow 0x2D tag body = true →
          ∃ t, exec (.measureAbort tag body) s = .next t ∧ s.HeadOnly t h ∧ t.lines = Lines.toHead h [t.sessionFrame h] ∧
            t.head h = { s.head h with session := none } ∧
            t.svp = s.svpAnswered 0x2D tag body [.closedZero x.handle h .abort] (.plain .ok)))))

/-- R78, R79, R80, R207: a HEAD_STATUS sets the head's line state and, when READY, its last scale temperature, and a change of
availability is reported first; ZERO_STATE is reported exactly where the validity of the zero changes; a head that is lost closes
its session, MEASURE or ZERO. A status of another code fails to frame, and hunting resumes at the byte after its start byte. The
model's choices: a completed frame leaves nothing in reception (log entry 30), and HEAD_STATE stands ahead of the closing's reports
(log entry 51) and of ZERO_STATE (log entry 63); a SESSION_STATE that shows IDLE gives window start 0 (log entry 73), and that of a
line become READY shows the zero's validity at the new temperature (log entry 87). A zero lapses with AGE where its life has passed,
else with TEMPERATURE (log entry 15). -/
def Obligations.HeadStatusSetsLineState : Prop :=
  ∀ (s : State) (h : HeadId) (status : Byte) (temp : BitVec 16),
    (status = 0 →
      ∃ t, exec (.headStatus h status temp) s = .next t ∧ s.HeadOnly t h ∧
        t.head h = { s.head h with
          line := .ready, lastFrame := some s.tick, scaleTemp := some temp.toInt, rx := [], zeroOk := (t.head h).zeroOk } ∧
        (t.head h).zeroOk = (t.head h).zeroValid s.tick ∧
        t.lines = Lines.toHead h (if (s.head h).line = .ready then [] else [t.sessionFrame h]) ∧
        t.svp = s.svpReported
          ((if (t.head h).available = (s.head h).available then [] else [.headState h true none]) ++
            (s.head h).zeroChange (t.head h) h s.tick)) ∧
    (status = 1 → (s.head h).session = none ∨ (s.head h).available = false →
      ∃ t, exec (.headStatus h status temp) s = .next t ∧ s.HeadOnly t h ∧
        t.head h = { s.head h with line := .fault, lastFrame := some s.tick, rx := [] } ∧ t.lines = Lines.quiet ∧
        t.svp = s.svpReported (if (s.head h).available = true then [.headState h false (some .fault)] else [])) ∧
    (∀ x n entry cause i, status = 1 → (s.head h).available = true → (s.head h).session = some x →
      x.kind = .measure n entry cause → s.tool n = some i → i.custody = .atPresetter → tableSorted s.trg.insts = true →
      ∃ t rs j, exec (.headStatus h status temp) s = .next t ∧ s.HeadAndTools t h ∧ s.OthersPassedBy t n ∧
        t.head h = { s.head h with line := .fault, lastFrame := some s.tick, rx := [], session := none } ∧
        t.lines = Lines.toHead h [t.sessionFrame h] ∧ t.tool n = some j ∧
        InstRec.PassedBy
          { i with
            custody := unfinishedCustody entry cause i.meas.isSome (s.typeHeld i.type) i.life
            loc := .bench, qcause := none, link := none } j ∧
        t.svp = s.svpReported
          (.headState h false (some .fault) ::
            .custodyChange n i.type (some .atPresetter) i.loc
              (some (unfinishedCustody entry cause i.meas.isSome (s.typeHeld i.type) i.life)) .bench .measureEnd none ::
            .closed x.handle h n .headLoss none
              (unfinishedCustody entry cause i.meas.isSome (s.typeHeld i.type) i.life) .bench :: rs)) ∧
    (∀ x, status = 1 → (s.head h).available = true → (s.head h).session = some x → x.kind = .zero →
      ∃ t, exec (.headStatus h status temp) s = .next t ∧ s.HeadOnly t h ∧
        t.head h = { s.head h with line := .fault, lastFrame := some s.tick, rx := [], session := none } ∧
        t.lines = Lines.toHead h [t.sessionFrame h] ∧
        t.svp = s.svpReported [.headState h false (some .fault), .closedZero x.handle h .headLoss]) ∧
    (status ≠ 0 → status ≠ 1 →
      let frame := headFrame 0x02 ([status] ++ bytesOf 2 temp.toNat)
      ∃ t, exec (.headStatus h status temp) s = .next t ∧ s.HeadOnly t h ∧
        t.head h = { s.head h with rx := (t.head h).rx, rxTick := s.tick } ∧ (t.head h).rx <:+ frame.drop 1 ∧
        ((∀ b ∈ frame.drop 1, b ≠ 0xA5) → (t.head h).rx = []) ∧ t.lines = Lines.quiet ∧ t.svp = s.svpReported [])

/-- R77, R80, R84 to R86, R207: a CAPTURE is taken from a READY head only, and ZERO_STATE is reported exactly where its temperature
changes the validity of the zero: with no session, or an evaluated one, it is answered with SESSION_STATE alone; otherwise it is
stored with its corrected readings and answered, and an agreement of a MEASURE session is evaluated by chapter 5, with RESULT and
SESSION_STATE. A 33rd capture makes a MEASURE session UNSTABLE and closes a ZERO session. A spindle index above 359 fails to frame.
The model's choices: a completed frame leaves nothing in reception (log entry 30), the zero of a session without one reads as 0 (log
entry 31), and ZERO_STATE stands ahead of VERDICT and CLOSED (log entry 64). The order of the frames sent is the model's as well
(log entry 51; RESULT before the IDLE of a ZERO session's 33rd capture, log entry 88), as are the validity that a SESSION_STATE
shows, at the capture's temperature (log entry 87), and the reason of a lapse, AGE before TEMPERATURE (log entry 15). -/
def Obligations.CaptureStoredAndEvaluated : Prop :=
  ∀ (s : State) (h : HeadId) (z x : BitVec 24) (spindle scaleTemp toolTemp : BitVec 16) (flags : Byte),
    let command : Instr := .capture h z x spindle scaleTemp toolTemp flags
    let taken := (s.head h).takeCapture z x spindle scaleTemp toolTemp flags
    let seen := fun (t : State) => { s.head h with
      lastFrame := some s.tick, scaleTemp := some scaleTemp.toInt, rx := [], zeroOk := (t.head h).zeroValid s.tick }
    let frame := headFrame 0x01 (bytesOf 3 z.toNat ++ bytesOf 3 x.toNat ++ bytesOf 2 spindle.toNat ++ bytesOf 2 scaleTemp.toNat ++
      bytesOf 2 toolTemp.toNat ++ [flags])
    let told := fun (t : State) => (s.head h).zeroChange (t.head h) h s.tick
    let stored := fun (q : Session) =>
      (s.setHead h { s.head h with
        scaleTemp := some scaleTemp.toInt, session := some { q with captures := q.captures ++ [taken] } }).sessionFrame h
    (359 < spindle.toNat → (∀ b ∈ frame.drop 1, b ≠ 0xA5) →
      ∃ t, exec command s = .next t ∧ s.HeadOnly t h ∧ t.head h = { s.head h with rx := [], rxTick := s.tick } ∧
        t.lines = Lines.quiet ∧ t.svp = s.svpReported []) ∧
    (spindle.toNat ≤ 359 → (s.head h).line ≠ .ready →
      ∃ t, exec command s = .next t ∧ s.HeadOnly t h ∧ t.head h = { s.head h with lastFrame := some s.tick, rx := [] } ∧
        t.lines = Lines.quiet ∧ t.svp = s.svpReported []) ∧
    (spindle.toNat ≤ 359 → (s.head h).line = .ready →
      ((∀ q, (s.head h).session = some q → q.state = .evaluated) →
        ∃ t, exec command s = .next t ∧ s.HeadOnly t h ∧ t.head h = seen t ∧
          t.lines = Lines.toHead h [t.sessionFrame h] ∧ t.svp = s.svpReported (told t)) ∧
      (∀ q, (s.head h).session = some q → q.state ≠ .evaluated → q.captures.length < 32 →
        Session.agreement { q with captures := q.captures ++ [taken] } (s.head h).settings = none →
        ∃ t, exec command s = .next t ∧ s.HeadOnly t h ∧
          t.head h = { seen t with session := some { q with captures := q.captures ++ [taken] } } ∧
          t.lines = Lines.toHead h [t.sessionFrame h] ∧ t.svp = s.svpReported (told t)) ∧
      (∀ q n entry cause i ty cs, (s.head h).session = some q → q.state ≠ .evaluated → q.captures.length < 32 →
        q.kind = .measure n entry cause → s.tool n = some i → s.type i.type = some ty →
        Session.agreement { q with captures := q.captures ++ [taken] } (s.head h).settings = some cs →
        let v := evaluate (s.head h).settings (((s.head h).zero.map (·.z)).getD 0) (((s.head h).zero.map (·.x)).getD 0) ty
          i.marks cs
        ∃ t, exec command s = .next t ∧ s.HeadOnly t h ∧
          (let verdict := verdictOf ((t.head h).zeroValid s.tick) ty v
           let judged : Session := { q with
             captures := q.captures ++ [taken], result := some { verdict := verdict, time := s.now, values := some v }
             state := if verdict = .adjust then .awaitAdjust else .evaluated
             windowStart := if verdict = .adjust then q.captures.length + 2 else q.windowStart }
           t.head h = { seen t with session := some judged } ∧
           t.lines = Lines.toHead h
             [stored q,
              headFrame 0x12 (resultBody h verdict.code v.length v.radius v.runout v.dL v.dR v.spindle cs.length v.thermalLimited),
              t.sessionFrame h] ∧
           t.svp = s.svpReported
             (told t ++ [.verdict q.handle h n i.type { verdict := verdict, time := s.now, values := some v }]))) ∧
      (∀ q n entry cause, (s.head h).session = some q → q.state ≠ .evaluated → 32 ≤ q.captures.length →
        q.kind = .measure n entry cause →
        ∃ t, exec command s = .next t ∧ s.HeadOnly t h ∧
          t.head h = { seen t with session := some { q with state := .evaluated, result := some { verdict := .unstable, time := s.now, values := none } } } ∧
          t.lines = Lines.toHead h [headFrame 0x12 (resultBody h 4 0 0 0 0 0 0 0 false), t.sessionFrame h] ∧
          t.svp = s.svpReported
            (told t ++ [.verdict q.handle h n (((s.tool n).map (·.type)).getD 0)
              { verdict := .unstable, time := s.now, values := none }])) ∧
      (∀ q, (s.head h).session = some q → q.state ≠ .evaluated → 32 ≤ q.captures.length → q.kind = .zero →
        ∃ t, exec command s = .next t ∧ s.HeadOnly t h ∧
          t.head h = { seen t with session := none } ∧
          t.lines = Lines.toHead h [headFrame 0x12 (resultBody h 4 0 0 0 0 0 0 0 false), t.sessionFrame h] ∧
          t.svp = s.svpReported (told t ++ [.closedZero q.handle h .unstable])))

/-- R80, R82, R105: a ZERO session whose new capture reaches agreement sets the head's zero to the mean corrected readings, with the
hall time, the tick count and the capture's scale temperature, sends the head its RESULT, and closes with ZERO_SET and the zero's
values. The new zero is valid at once. ZERO_STATE is reported exactly where validity changes: at the capture's temperature for the
zero held before, and with reason SET after CLOSED where the zero was not valid then. The model's choice: a completed frame leaves
nothing in reception (log entry 30). So are the order of the frames sent (log entry 51), ZERO_STATE for the zero before ahead of
CLOSED (log entry 64), with AGE where its life has passed (log entry 15), and the validity that the SESSION_STATE of the stored
capture shows, at the capture's temperature (log entry 87). -/
def Obligations.ZeroSessionSetsZero : Prop :=
  ∀ (s : State) (h : HeadId) (z x : BitVec 24) (spindle scaleTemp toolTemp : BitVec 16) (flags : Byte) (q : Session)
    (cs : List (Nat × Capture)), spindle.toNat ≤ 359 → (s.head h).line = .ready → (s.head h).session = some q →
    q.kind = .zero → q.state ≠ .evaluated → q.captures.length < 32 → cs ≠ [] →
    Session.agreement
      { q with captures := q.captures ++ [(s.head h).takeCapture z x spindle scaleTemp toolTemp flags] } (s.head h).settings =
      some cs →
    let mz := roundDiv (cs.map (fun e => e.2.z)).sum cs.length
    let mx := roundDiv (cs.map (fun e => e.2.x)).sum cs.length
    let zero : Zero := { z := mz, x := mx, time := s.now, tick := s.tick, temp := scaleTemp.toInt }
    let stored := (s.setHead h { s.head h with
      scaleTemp := some scaleTemp.toInt
      session := some { q with
        captures := q.captures ++ [(s.head h).takeCapture z x spindle scaleTemp toolTemp flags] } }).sessionFrame h
    let drifted : Head := { s.head h with scaleTemp := some scaleTemp.toInt }
    let tested := { drifted with zeroOk := drifted.zeroValid s.tick }
    ∃ t, exec (.capture h z x spindle scaleTemp toolTemp flags) s = .next t ∧ s.HeadOnly t h ∧
      t.head h = { s.head h with
        lastFrame := some s.tick, scaleTemp := some scaleTemp.toInt, rx := [], session := none
        zero := some zero, zeroOk := true } ∧
      t.lines = Lines.toHead h
        [stored, headFrame 0x12 (resultBody h 7 mz mx 0 0 0 0 cs.length false), t.sessionFrame h] ∧
      t.svp = s.svpReported
        ((s.head h).zeroChange tested h s.tick ++
          .closedZero q.handle h (.zeroSet zero) :: (if tested.zeroOk = true then [] else [.zeroState h true .set]))

/-- R78, R79, R80, R92, R93, R207: 2 s without a framed message make a head SILENT, and an available head loses its session so, a
MEASURE session sending its instance to BENCH under the no-verdict outcome; a zero whose life has passed lapses with AGE; a head
frame whose bytes stop, whose length, kind or a field is not allowed, or whose check fails, is discarded, and bytes that start no
frame are dropped. The model's choices: before its time none of them changes anything (log entry 3), and HEAD_FRAME_DISCARDED
carries bytes that are hunted through (log entry 30). HEAD_STATE stands ahead of the closing's reports (log entry 51), and a frame
of a length that does not fit its kind is discarded when whole (log entry 67). -/
def Obligations.HeadTimersExpire : Prop :=
  ∀ (s : State) (h : HeadId),
    (∀ b, (s.head h).line ≠ .silent → (s.head h).lastFrame = some b → b + 2000 ≤ s.tick →
      ((s.head h).session = none ∨ (s.head h).available = false →
        ∃ t, exec (.headSilence h) s = .next t ∧ s.HeadOnly t h ∧ t.head h = { s.head h with line := .silent } ∧
          t.lines = Lines.quiet ∧
          t.svp = s.svpReported (if (s.head h).available = true then [.headState h false (some .silent)] else [])) ∧
      (∀ x n entry cause i, (s.head h).available = true → (s.head h).session = some x → x.kind = .measure n entry cause →
        s.tool n = some i → i.custody = .atPresetter → tableSorted s.trg.insts = true →
        let left := { i with
          custody := unfinishedCustody entry cause i.meas.isSome (s.typeHeld i.type) i.life
          loc := .bench, qcause := none, link := none }
        ∃ t rs j, exec (.headSilence h) s = .next t ∧ s.HeadAndTools t h ∧ s.OthersPassedBy t n ∧
          t.head h = { s.head h with line := .silent, session := none } ∧ t.lines = Lines.toHead h [t.sessionFrame h] ∧
          t.tool n = some j ∧ InstRec.PassedBy left j ∧
          t.svp = s.svpReported
            (.headState h false (some .silent) ::
              .custodyChange n i.type (some .atPresetter) i.loc (some left.custody) .bench .measureEnd none ::
              .closed x.handle h n .headLoss none left.custody .bench :: rs)) ∧
      (∀ x, (s.head h).available = true → (s.head h).session = some x → x.kind = .zero →
        ∃ t, exec (.headSilence h) s = .next t ∧ s.HeadOnly t h ∧
          t.head h = { s.head h with line := .silent, session := none } ∧ t.lines = Lines.toHead h [t.sessionFrame h] ∧
          t.svp = s.svpReported [.headState h false (some .silent), .closedZero x.handle h .headLoss])) ∧
    ((s.head h).line = .silent ∨ (∀ b, (s.head h).lastFrame = some b → s.tick < b + 2000) →
      exec (.headSilence h) s = .next s.idled) ∧
    (∀ z, (s.head h).zero = some z → (s.head h).zeroOk = true → z.tick + (s.head h).settings.zeroLife * 3600000 < s.tick →
      ∃ t, exec (.zeroAgeLapse h) s = .next t ∧ s.HeadOnly t h ∧ t.head h = { s.head h with zeroOk := false } ∧
        t.lines = Lines.quiet ∧ t.svp = s.svpReported [.zeroState h false .age]) ∧
    (∀ z, (s.head h).zero = some z →
      (s.head h).zeroOk = false ∨ s.tick ≤ z.tick + (s.head h).settings.zeroLife * 3600000 →
      exec (.zeroAgeLapse h) s = .next s.idled) ∧
    ((s.head h).rx ≠ [] → (s.head h).rxTick + 10 < s.tick →
      ∃ t, exec (.headFrameByteTimeout h) s = .next t ∧ s.HeadOnly t h ∧ t.head h = { s.head h with rx := [] } ∧
        t.lines = Lines.quiet ∧ t.svp = s.svpReported []) ∧
    ((s.head h).rx = [] ∨ s.tick ≤ (s.head h).rxTick + 10 → exec (.headFrameByteTimeout h) s = .next s.idled) ∧
    (let dropped := fun (bytes : List Byte) =>
      ∃ t, exec (.headFrameDiscarded h bytes) s = .next t ∧ s.HeadOnly t h ∧
        t.head h = { s.head h with rxTick := s.tick } ∧ t.lines = Lines.quiet ∧ t.svp = s.svpReported []
     (s.head h).rx = [] →
      (∀ bytes, bytes ≠ [] → (∀ b ∈ bytes, b ≠ 0xA5) → dropped bytes) ∧
      (∀ x y : Byte, x ≠ 0xA5 → y ≠ 0xA5 → (numberOf [x, y] < 2 ∨ 252 < numberOf [x, y]) → dropped [0xA5, x, y]) ∧
      (∀ (kind x y : Byte) (body : List Byte), body.length ≤ 251 →
        let inner := bytesOf 2 (body.length + 1) ++ [kind] ++ body
        let allowed := (kind = 0x01 ∧ body.length = 13 ∧ fieldAt body 6 2 ≤ 359) ∨
          (kind = 0x02 ∧ body.length = 3 ∧ fieldAt body 0 1 ≤ 1)
        (∀ b ∈ inner ++ [x, y], b ≠ 0xA5) → ([x, y] ≠ checkBytes inner ∨ ¬ allowed) → dropped ([0xA5] ++ inner ++ [x, y])))

/-! ### Chapter 5: measurement arithmetic -/

/-- R77, R97, R101 to R104, R106 to R112, R114: a quotient is rounded to the nearest integer, an exact half away from zero; a
reading takes the correction of the breakpoint below it and the rounded share of the step to the next; the view is the last N
captures from the window start; agreement is every eligible capture in view within the band of the lower median, exactly where these
are at least K; an evaluation has the mean z', the high point, the runout, the raw and thermally corrected dimensions and the
deviations from the effective nominals; the verdict follows from the zero, the range limit, the class, the bands and the runout
limit; a station is sent micrometres. -/
def Obligations.MeasurementArithmetic : Prop :=
  ((∀ (a : Int) (b : Nat), 0 < b →
        2 * (roundDiv a b * b - a).natAbs ≤ b ∧
        (2 * (roundDiv a b * b - a).natAbs = b → a.natAbs < (roundDiv a b * b).natAbs)) ∧
    (∀ (points : List Nat) (table : List Int) (r : Nat), (points = zPoints ∨ points = xPoints) → table.length = points.length →
        (∀ k p p' c c', points[k]? = some p → points[k + 1]? = some p' → table[k]? = some c → table[k + 1]? = some c' →
          p ≤ r → r < p' → corrected points table r = r + (c + roundDiv ((c' - c) * (r - p)) (p' - p))) ∧
        (∀ p c, points.getLast? = some p → table.getLast? = some c → p ≤ r → corrected points table r = r + c)) ∧
    (∀ (h : Head) (z x : BitVec 24) (spindle scaleTemp toolTemp : BitVec 16) (flags : Byte) (zt xt : List Int),
        h.zCurve = some zt → h.xCurve = some xt →
        let c := h.takeCapture z x spindle scaleTemp toolTemp flags
        c.zCount = min z.toNat 4000000 ∧ c.xCount = min x.toNat 1500000 ∧ c.spindle = spindle.toNat ∧
        c.scaleTemp = scaleTemp.toInt ∧ c.toolTemp = toolTemp.toInt ∧ c.z = corrected zPoints zt c.zCount ∧
        c.x = corrected xPoints xt c.xCount ∧
        (c.zFlag = true ↔ flags.getLsbD 0 = true ∨ 4000000 < z.toNat) ∧
        (c.xFlag = true ↔ flags.getLsbD 1 = true ∨ 1500000 < x.toNat) ∧
        (c.rangeMark = true ↔ c.zFlag = true ∨ c.xFlag = true)) ∧
    (∀ v : Nat, microns v = (v + 5) / 10)) ∧
  ((∀ vs : List Int, vs ≠ [] → medianOf vs ∈ vs ∧
      2 * vs.countP (fun v => decide (v < medianOf vs)) < vs.length ∧
      vs.length ≤ 2 * vs.countP (fun v => decide (v ≤ medianOf vs))) ∧
    (∀ (x : Session) (n : Nat), (x.inView n).Pairwise (fun a b => a.1 < b.1) ∧
      ∀ e : Nat × Capture, e ∈ x.inView n ↔
        1 ≤ e.1 ∧ x.windowStart ≤ e.1 ∧ x.captures[e.1 - 1]? = some e.2 ∧ x.captures.length < e.1 + n) ∧
    (∀ (x : Session) (h : HeadSettings) (cs : List (Nat × Capture)),
      let eligible := (x.inView h.n).filter (fun e => !e.2.rangeMark)
      let median := medianOf (eligible.map (fun e => e.2.z))
      x.agreement h = some cs ↔
        h.k ≤ cs.length ∧ cs = eligible.filter (fun e => decide ((e.2.z - median).natAbs ≤ h.band)))) ∧
  (∀ (h : HeadSettings) (zeroZ zeroX : Int) (t : TypeRec) (marks : Nat) (cs : List (Nat × Capture)), cs ≠ [] →
      let v := evaluate h zeroZ zeroX t marks cs
      let held := fun (top value : Int) => max 0 (min top value)
      let warm := fun (value : Int) => max (-1500) (min 1500 value)
      let dTs := roundDiv (cs.map (fun e => e.2.scaleTemp)).sum cs.length - 2000
      let dTt := roundDiv (cs.map (fun e => e.2.toolTemp)).sum cs.length - 2000
      let cL := held 4000000 v.rawLength
      let cR := held 1500000 v.rawRadius
      let hotL := cL + roundDiv (cL * v.factor) 10000000000
      let hotR := cR + roundDiv (cR * v.factor) 10000000000
      v.acceptedZ = roundDiv (cs.map (fun e => e.2.z)).sum cs.length ∧
      (∃ front e back, cs = front ++ e :: back ∧ v.highX = e.2.x ∧ v.spindle = e.2.spindle ∧
        (∀ f ∈ front, f.2.x < e.2.x) ∧ (∀ f ∈ back, f.2.x ≤ e.2.x)) ∧
      (∃ e ∈ cs, (∀ f ∈ cs, e.2.x ≤ f.2.x) ∧ (v.runout : Int) = min 1500000 (v.highX - e.2.x)) ∧
      v.rawLength = v.acceptedZ - zeroZ + h.masterLength + h.offsets.getD t.adapter 0 ∧
      v.rawRadius = v.highX - zeroX + h.masterRadius ∧
      v.scaleDiff = warm dTs ∧ v.toolDiff = warm dTt ∧ (v.thermalLimited = true ↔ warm dTs ≠ dTs ∨ warm dTt ≠ dTt) ∧
      v.factor = h.scaleCoeff * v.scaleDiff - t.expansion * v.toolDiff ∧
      (v.length : Int) = held 4000000 hotL ∧ (v.radius : Int) = held 1500000 hotR ∧
      (v.rangeLimited = true ↔
        cL ≠ v.rawLength ∨ cR ≠ v.rawRadius ∨ (v.length : Int) ≠ hotL ∨ (v.radius : Int) ≠ hotR) ∧
      v.nominalLength =
        (if t.governed = .length then t.nominalLength - marks * t.regrindStep else t.nominalLength) ∧
      v.nominalRadius =
        (if t.governed = .radius then t.nominalRadius - marks * t.regrindStep else t.nominalRadius) ∧
      v.dL = (v.length : Int) - v.nominalLength ∧ v.dR = (v.radius : Int) - v.nominalRadius ∧
      v.agreeing = cs.map (fun e => e.1)) ∧
  (∀ (t : TypeRec) (v : Values),
      let lengthOk := t.lengthBand.lower ≤ v.dL ∧ v.dL ≤ t.lengthBand.upper
      let radiusOk := t.radiusBand.lower ≤ v.dR ∧ v.dR ≤ t.radiusBand.upper
      let runoutOk := t.runoutLimit = 0 ∨ v.runout ≤ t.runoutLimit
      let adjustOk := ∃ a, t.adjustBand = some a ∧ a.lower ≤ v.dR ∧ v.dR ≤ a.upper
      verdictOf false t v = .drift ∧
      (v.rangeLimited = true → verdictOf true t v = .range) ∧
      (v.rangeLimited = false →
        (verdictOf true t v = .pass ↔ lengthOk ∧ runoutOk ∧ (t.cls = .lengthOnly ∨ radiusOk)) ∧
        (verdictOf true t v = .adjust ↔
          t.cls = .lengthRadius ∧ t.adjustable = true ∧ lengthOk ∧ runoutOk ∧ ¬ radiusOk ∧ adjustOk) ∧
        (verdictOf true t v = .pass ∨ verdictOf true t v = .adjust ∨ verdictOf true t v = .reject)))


/-! ### Chapter 6: tool life and regrinding -/

/-- R116 to R127: a discarded USAGE changes nothing and is answered by the first check that applies; one applied lowers the life by
its units, to no less than 0. At or below the warning level it warns once, with LIFE_WARNING and a PREFETCH request where R121 calls
for one. At life 0 it acts by custody: at a machine, after the warning and its request, the spent flag, the blocked LIFE_UPDATE
entered behind the first class and ahead of the second, or the handoff owed where 16 are queued, LIFE_SPENT and the URGENT request of
R124; READY, STAGED, UNMEASURED and RESERVED become REGRIND_DUE, a reservation released before; RETURNING at its limit becomes
RETIRED; any other custody stands. A verified instance raises the request of R125. The model's choices: the release of a RESERVED
instance shows READY or STAGED before LIFE_ZERO shows REGRIND_DUE (log entry 12), with the pass between them (log entry 13) and
put-away after both (log entry 76). -/
def Obligations.UsageLowersLife : Prop :=
  ∀ (s : State) (st n place units : Nat),
    (s.svp.mode = .loading → s.usage st n place units = (s, .notRunning)) ∧
    (s.svp.mode = .running → ¬ (1 ≤ place ∧ place ≤ (s.station st).places) → s.usage st n place units = (s, .placeRange)) ∧
    (s.svp.mode = .running → 1 ≤ place ∧ place ≤ (s.station st).places →
      (s.tool n = none → s.usage st n place units = (s, .unknownInstance)) ∧
      (∀ r, s.tool n = some r →
        (s.holds st n r ≠ some place → r.takesLate st = false →
          s.usage st n place units = (s, if (s.holds st n r).isSome then .wrongPlace else .stale)) ∧
        (s.holds st n r = some place ∨ r.takesLate st = true → units < r.life →
          (r.warned = true ∨ (∃ t, s.type r.type = some t ∧ (t.warnLevel = 0 ∨ t.warnLevel * t.budget / 1000 < r.life - units))) →
          s.usage st n place units = (s.setTool n { r with life := r.life - units }, .ok)) ∧
        (∀ t, s.holds st n r = some place → s.type r.type = some t → t.autoPrefetch = false → t.autoReplace = false →
          r.custody = .loaded → r.spent = false → r.life ≤ units →
          (s.usage st n place units).2 = .ok ∧
          ∃ j, (s.usage st n place units).1.tool n = some j ∧
            j = { r with life := 0, spent := true, warned := j.warned, owed := j.owed } ∧
            (r.warned = false → t.warnLevel ≠ 0 → j.warned = true)))) ∧
    (∀ r t, s.svp.mode = .running → 1 ≤ place → place ≤ (s.station st).places → s.tool n = some r → s.type r.type = some t →
      s.holds st n r = some place ∨ r.takesLate st = true →
      let left := r.life - units
      let level := t.warnLevel * t.budget / 1000
      let late := decide (s.holds st n r ≠ some place)
      let warns := decide (r.warned = false ∧ t.warnLevel ≠ 0 ∧ left ≤ level)
      let low : InstRec := { r with life := left, warned := r.warned || warns }
      let told : List Report := if warns = true then [.lifeWarning n r.type left level r.custody r.heldPlace] else []
      let onto := fun (v : State) (j : InstRec) (rs : List Report) =>
        ({ v.setTool n j with svp := v.svp.handed v.now rs } : State)
      let after := fun (j : InstRec) (rs : List Report) => onto s j (told ++ rs)
      let asks := warns = true ∧ t.autoPrefetch = true ∧ ∃ a b, r.heldPlace = some (a, b) ∧ s.requestFor a b r.type = none
      let atMachine := r.custody = .loaded ∨ r.custody = .issued
      let stands := 0 < left ∨ (atMachine ∧ r.spent = true) ∨ (r.custody = .returning ∧ r.marks < t.regrindLimit) ∨
        r.custody = .atPresetter ∨ r.custody = .quarantine ∨ r.custody = .regrindDue ∨ r.custody = .missing
      let changed := fun (a b : Custody) (x y : Location) (cause : Cause) =>
        Report.custodyChange n r.type (some a) x (some b) y cause none
      (stands → ¬ asks → s.usage st n place units = (after low [], .ok)) ∧
      (∀ a b, stands → asks → r.heldPlace = some (a, b) →
        s.usage st n place units = ((after low []).autoRequest a b r.type .prefetch, .ok)) ∧
      (atMachine → r.spent = false → left = 0 →
        (r.heldPlace = none →
          s.usage st n place units =
            (after { low with spent := true } [.lifeSpent n r.type r.custody none r.marks t.regrindLimit units late], .ok)) ∧
        (∀ a b, r.heldPlace = some (a, b) →
          (s.link a).state.running = false ∨ s.inFlight a ≠ none ∨ (s.station a).queue = [] →
          let spent : Report := .lifeSpent n r.type r.custody (some (a, b)) r.marks t.regrindLimit units late
          let starts := decide ((s.link a).state.running = true ∧ s.inFlight a = none)
          let x : Txn :=
            { id := s.hoe.entries, number := s.hoe.nextTxn, kind := .lifeUpdate n b true
              state := if starts = true then .inFlight else .pending, busyRetries := 0, holdOff := none, firstSent := none
              delivered := false, broadcast := none
              body := if starts = true then lifeUpdateBody n b 0 true else [], handed := false, slot := s.hoe.entries }
          let q := (s.station a).queue
          let first := fun (y : Txn) => y.kind.firstClass
          let queued := fun (v : State) => ((onto v { low with spent := true } [spent]).setHoe { s.hoe with
            nextTxn := if s.hoe.nextTxn ≥ 65535 then 1 else s.hoe.nextTxn + 1, entries := s.hoe.entries + 1 }).setStation a
              { s.station a with queue := q.filter first ++ [x] ++ q.filter (fun y => !first y) }
          let ends := fun (v : State) =>
            let u := if 16 ≤ q.length then onto v { low with spent := true, owed := true } [spent] else queued v
            let own := ∃ k, v.requestFor a b r.type = some k ∧ r.link = some k.number
            (t.autoReplace = false ∨ own → s.usage st n place units = (u, .ok)) ∧
            (t.autoReplace = true → ¬ own → s.usage st n place units = (u.autoRequest a b r.type .urgent, .ok))
          (¬ asks → ends (after low [])) ∧
          (asks → tableSorted s.trg.insts = true → (∀ k ∈ s.isc.queue, k.state = .reserved → k.tool ≠ some n) →
            ends ((after low []).autoRequest a b r.type .prefetch)))) ∧
      (left = 0 → r.custody = .ready →
        s.usage st n place units =
          (after { low with custody := .regrindDue, qcause := none, link := none }
            [changed .ready .regrindDue r.loc r.loc .lifeZero], .ok)) ∧
      (left = 0 → r.custody = .staged ∨ r.custody = .unmeasured →
        ∃ u rs, s.usage st n place units = (u, .ok) ∧
          u.tool n = some { low with custody := .regrindDue, qcause := none, link := none } ∧
          s.Raises u (told ++ changed r.custody .regrindDue r.loc r.loc .lifeZero :: rs) ∧ u.hoe = s.hoe) ∧
      (∀ k q, left = 0 → r.custody = .reserved → r.link = some k → s.request k = some q →
        (r.loc = .bench ∨ ∃ c p, r.loc = .pocket c p) → 1 ≤ t.budget → (∀ v ∈ s.isc.queue, v.minLife ≠ some 0) →
        tableSorted s.trg.insts = true →
        let free : Custody := if r.loc = .bench then .staged else .ready
        ∃ u rs more, s.usage st n place units = (u, .ok) ∧
          u.tool n = some { low with custody := .regrindDue, qcause := none, link := none } ∧
          s.Raises u (told ++ changed .reserved free r.loc r.loc .release ::
            .requestState { q with state := .queued, tool := none, reserveTick := none } .released ::
            (rs ++ changed free .regrindDue r.loc r.loc .lifeZero :: more)) ∧ u.hoe = s.hoe) ∧
      (left = 0 → r.custody = .returning → t.regrindLimit ≤ r.marks → tableSorted s.trg.insts = true →
        ∃ u rs, s.usage st n place units = (u, .ok) ∧
          u.tool n = some { low with custody := .retired, loc := .nowhere, qcause := none, link := none } ∧
          tget u.isc.assigned n = none ∧
          s.Raises u (told ++ changed .returning .retired r.loc .nowhere .spentAtLimit :: rs))) ∧
    (∀ r t a b, s.tool n = some r → s.type r.type = some t → r.heldPlace = some (a, b) → r.link = none →
      (r.spent = true → t.autoReplace = true → s.verifiedLife n = s.autoRequest a b r.type .urgent) ∧
      (r.spent = false ∨ t.autoReplace = false →
        (r.warned = true → t.autoPrefetch = true → s.requestFor a b r.type = none →
          s.verifiedLife n = s.autoRequest a b r.type .prefetch) ∧
        (r.warned = false ∨ t.autoPrefetch = false ∨ s.requestFor a b r.type ≠ none → s.verifiedLife n = s)))

/-- R128, R129, R131: REGRIND_OUT sends a REGRIND_DUE instance below its limit OFFSITE with its record otherwise unchanged; REGRIND_BACK
brings it back UNMEASURED at BENCH with a mark more, the budget, both flags cleared and no measurement. Each is refused in LOADING,
for an instance number out of range, for an absent instance, in another custody and at the limit, in that order. -/
def Obligations.RegrindCycle : Prop :=
  (∀ (s : State) (tag : Byte) (body : List Byte),
    let n := fieldAt body 0 2
    (s.takesNow 0x30 tag body = true →
      (s.svp.mode = .loading → exec (.regrindOut tag body) s = .next (s.answered 0x30 tag body (.plain .notInMode))) ∧
      (s.svp.mode = .running → ¬ (1 ≤ n ∧ n ≤ 2048) →
        exec (.regrindOut tag body) s = .next (s.answered 0x30 tag body (.plain .range))) ∧
      (s.svp.mode = .running → 1 ≤ n → n ≤ 2048 → s.tool n = none →
        exec (.regrindOut tag body) s = .next (s.answered 0x30 tag body (.plain .noSuch)))) ∧
    (s.takesNow 0x31 tag body = true →
      (s.svp.mode = .loading → exec (.regrindBack tag body) s = .next (s.answered 0x31 tag body (.plain .notInMode))) ∧
      (s.svp.mode = .running → ¬ (1 ≤ n ∧ n ≤ 2048) →
        exec (.regrindBack tag body) s = .next (s.answered 0x31 tag body (.plain .range))) ∧
      (s.svp.mode = .running → 1 ≤ n → n ≤ 2048 → s.tool n = none →
        exec (.regrindBack tag body) s = .next (s.answered 0x31 tag body (.plain .noSuch))))) ∧
  (∀ (s : State) (tag : Byte) (body : List Byte) (r : InstRec) (t : TypeRec), toolNo (fieldAt body 0 2) = true →
    s.tool (fieldAt body 0 2) = some r → s.type r.type = some t → tableSorted s.psc.pockets = true →
    let n := fieldAt body 0 2
    (s.takesNow 0x30 tag body = true →
      (s.svp.mode = .running → r.custody ≠ .regrindDue →
        exec (.regrindOut tag body) s = .next (s.answered 0x30 tag body (.plain .state))) ∧
      (s.svp.mode = .running → r.custody = .regrindDue → t.regrindLimit ≤ r.marks →
        exec (.regrindOut tag body) s = .next (s.answered 0x30 tag body (.plain .limit))) ∧
      (s.svp.mode = .running → r.custody = .regrindDue → r.marks < t.regrindLimit →
        ∃ u, exec (.regrindOut tag body) s = .next u ∧
          u.tool n = some { r with custody := .atRegrind, loc := .offsite, link := none, qcause := none } ∧
          s.OthersStand u n ∧ s.ToolsOnly u ∧ u.hoe = s.hoe ∧ u.isc.queue = s.isc.queue ∧ tget u.isc.assigned n = none ∧
          (∀ c p, r.loc = .pocket c p → (s.pocket c p).tool = some n → (s.pocket c p).sensed = .present →
            (s.pocket c p).state ≠ .fault →
            u.pocket c p = { s.pocket c p with tool := none, mark := some ⟨n, .regrind⟩, state := .occupied }) ∧
          u.svp = s.svpAnswered 0x30 tag body
            [.custodyChange n r.type (some .regrindDue) r.loc (some .atRegrind) .offsite .regrindOut none] (.plain .ok))) ∧
    (s.takesNow 0x31 tag body = true →
      (s.svp.mode = .running → r.custody ≠ .atRegrind →
        exec (.regrindBack tag body) s = .next (s.answered 0x31 tag body (.plain .state))) ∧
      (s.svp.mode = .running → r.custody = .atRegrind → t.regrindLimit ≤ r.marks →
        exec (.regrindBack tag body) s = .next (s.answered 0x31 tag body (.plain .limit))) ∧
      (s.svp.mode = .running → r.custody = .atRegrind → r.marks < t.regrindLimit → 1 ≤ t.budget →
        ∃ u rs, exec (.regrindBack tag body) s = .next u ∧
          u.tool n = some { r with
            custody := .unmeasured, loc := .bench, link := none, qcause := none, marks := r.marks + 1, life := t.budget
            warned := false, spent := false, meas := none } ∧
          s.OthersStand u n ∧ s.ToolsOnly u ∧ u.hoe = s.hoe ∧ u.isc.queue = s.isc.queue ∧
          u.svp = s.svpAnswered 0x31 tag body
            (.custodyChange n r.type (some .atRegrind) r.loc (some .unmeasured) .bench .regrindBack none :: rs) (.plain .ok))))

/-! ### Chapter 7: station links -/

/-- R139, R151: SET_LINK sets the check policy, and under ECHO_ONLY takes an ACQUIRING link to ECHO at once; LINK_RESTART is refused
with STATE for a DOWN link and starts the search anew for any other, dropping what a running link holds. The model's choices:
the acquisition run and count stand on the way to ECHO (log entry 65), and a report counts the BAD of the window before the change
empties it (log entry 77). -/
def Obligations.LinkCommandsApply : Prop :=
  ∀ (s : State) (tag : Byte) (body : List Byte),
    let n := fieldAt body 0 1
    let l := s.link n
    (s.takesNow 0x38 tag body = true →
      (¬ (1 ≤ n ∧ n ≤ 32) ∨ policyOf (fieldAt body 1 1) = none →
        exec (.setLink tag body) s = .next (s.answered 0x38 tag body (.plain .range))) ∧
      (∀ p, 1 ≤ n → n ≤ 32 → policyOf (fieldAt body 1 1) = some p →
        (¬ (p = .echoOnly ∧ l.state = .acquiring) →
          ∃ t, exec (.setLink tag body) s = .next t ∧ t.link n = { l with policy := p } ∧ s.LinkOnly t n ∧
            t.svp = s.svpAnswered 0x38 tag body [] (.plain .ok)) ∧
        (p = .echoOnly → l.state = .acquiring →
          ∃ t, exec (.setLink tag body) s = .next t ∧ s.LinkAndHandoff t n ∧ t.trg = s.trg ∧
            t.link n = { l with policy := .echoOnly, state := .echo, held := none, returns := [], density := [] } ∧
            t.svp = s.svpAnswered 0x38 tag body [.linkState n .acquiring .echo .policy l.bad] (.plain .ok)))) ∧
    (s.takesNow 0x39 tag body = true →
      (¬ (1 ≤ n ∧ n ≤ 32) → exec (.linkRestart tag body) s = .next (s.answered 0x39 tag body (.plain .range))) ∧
      (1 ≤ n → n ≤ 32 →
        (l.state = .down → exec (.linkRestart tag body) s = .next (s.answered 0x39 tag body (.plain .state))) ∧
        (l.state = .searching →
          ∃ t, exec (.linkRestart tag body) s = .next t ∧ t.link n = { l with rx := [] } ∧ s.LinkOnly t n ∧
            t.svp = s.svpAnswered 0x39 tag body [] (.plain .ok)) ∧
        (l.state = .acquiring →
          ∃ t, exec (.linkRestart tag body) s = .next t ∧ s.LinkOnly t n ∧
            t.link n = { l with
              state := .searching, expected := none, misses := 0, held := none, acqRun := 0, acqCount := 0, rx := [] } ∧
            t.svp = s.svpAnswered 0x39 tag body [.linkState n .acquiring .searching .restart l.bad] (.plain .ok)) ∧
        (l.state.running = true →
          ∃ t rs, exec (.linkRestart tag body) s = .next t ∧ s.LinkAndHandoff t n ∧
            t.link n = { l with
              state := .searching, expected := none, misses := 0, held := none, acqRun := 0, acqCount := 0, rx := []
              returns := [], outstanding := [] } ∧
            t.svp = s.svpAnswered 0x39 tag body (.linkState n l.state .searching .restart l.bad :: rs) (.plain .ok))))

/-- R135, R139, R150: 100 ms of silence make a link DOWN and clear what it holds; an acquisition count of 200 with a run below 8
starts the acquisition anew under CHECK_ONLY and takes the link to ECHO otherwise, its run and count standing (log entry 65). The
model's choices: before its time neither row changes anything (log entries 3 and 25), and a report counts the BAD of the window before
the change empties it (log entry 77). -/
def Obligations.LinkTimersExpire : Prop :=
  ∀ (s : State) (n : Nat), 1 ≤ n → n ≤ 32 →
    let l := s.link n
    (∀ b, l.state ≠ .down → l.lastByte = some b → b + 100 ≤ s.tick →
      ∃ t rs, exec (.linkSilence n) s = .next t ∧ s.LinkAndHandoff t n ∧
        t.link n = { l with
          state := .down, expected := none, misses := 0, held := none, acqRun := 0, acqCount := 0, returns := [], density := []
          applied := [], rx := [], outstanding := if l.state.running = true then [] else l.outstanding } ∧
        t.svp = s.svpReported (.linkState n l.state .down .silence l.bad :: rs)) ∧
    (∀ b, l.lastByte = some b → s.tick < b + 100 → exec (.linkSilence n) s = .next s.idled) ∧
    (l.state = .acquiring → 200 ≤ l.acqCount → l.acqRun < 8 →
      (l.policy = .checkOnly →
        ∃ t, exec (.acquireTimeout n) s = .next t ∧ s.LinkOnly t n ∧ t.link n = { l with acqRun := 0, acqCount := 0 } ∧
          t.svp = s.svpReported [.linkState n .acquiring .acquiring .acquireTimeout l.bad]) ∧
      (l.policy ≠ .checkOnly →
        ∃ t, exec (.acquireTimeout n) s = .next t ∧ s.LinkAndHandoff t n ∧
          t.link n = { l with state := .echo, held := none, returns := [], density := [] } ∧
          t.svp = s.svpReported [.linkState n .acquiring .echo .acquireTimeout l.bad])) ∧
    (l.state ≠ .acquiring ∨ l.acqCount < 200 ∨ 8 ≤ l.acqRun → exec (.acquireTimeout n) s = .next s.idled)

/-- R132, R133, R143 to R148: a block period that the train has reached sends the next block, with the oldest verdict and the check
of the block before, by the first row of R144: in ECHO the echo of the held block; the oldest entry awaiting resend, under its own
number; where the outstanding list has room, HOE's oldest reply, else the block of the IN_FLIGHT transaction, whose first-sending
tick it sets, as a new DATA block under the next number; else a FILL, as with a message ready but no room. Eight periods without a verdict fail an outstanding entry, to
be sent again at most three times, and discard an echoed block. The model's choices: the train reaches period k at tick 4 k, and
eight periods are counted in blocks sent (log entry 26); before its time no row changes anything (log entry 3). -/
def Obligations.LinkSendsAndResends : Prop :=
  ∀ (s : State) (n : Nat), 1 ≤ n → n ≤ 32 →
    let l := s.link n
    let sent := fun (kind : BlockKind) (message : Nat) (body : List Byte) =>
      blockBytes n (l.period % 8) kind l.returns.head? message body l.lastCheck
    (s.tick < (l.period + 1) * 4 →
      exec (.blockPeriod n) s = .next s.idled ∧ exec (.outstandingTimeout n) s = .next s.idled ∧
        exec (.echoHeldTimeout n) s = .next s.idled) ∧
    ((l.period + 1) * 4 ≤ s.tick → l.state = .down ∨ l.state = .searching ∨ l.state = .acquiring → l.outstanding = [] →
      ∃ t, exec (.blockPeriod n) s = .next t ∧ s.LinkOnly t n ∧
        t.link n = { l with
          returns := l.returns.drop 1, period := l.period + 1, lastSent := sent .fill 0 (List.replicate 24 0)
          lastCheck := crc16 (sent .fill 0 (List.replicate 24 0)) } ∧
        t.svp = s.svpReported []) ∧
    (∀ r rest, (l.period + 1) * 4 ≤ s.tick → l.state = .checked → l.outstanding.length < 4 →
      (∀ e ∈ l.outstanding, e.resend = false ∧ l.period < e.sent + 8) → (s.station n).replies = r :: rest →
      ∃ t, exec (.blockPeriod n) s = .next t ∧ (∀ m, m ≠ n → t.link m = s.link m ∧ t.station m = s.station m) ∧
        t.station n = { s.station n with replies := rest } ∧
        t.link n = { l with
          outstanding := l.outstanding ++
            [{ message := l.outNumber, body := stationReplyBody r, sent := l.period, failures := 0, resend := false,
               origin := .reply }]
          outNumber := if l.outNumber ≥ 255 then 1 else l.outNumber + 1
          returns := l.returns.drop 1, period := l.period + 1, lastSent := sent .data l.outNumber (stationReplyBody r)
          lastCheck := crc16 (sent .data l.outNumber (stationReplyBody r)) } ∧
        t = { s with slc := t.slc, hoe := t.hoe, svp := s.svpReported [], lines := Lines.quiet }) ∧
    (∀ e, (l.period + 1) * 4 ≤ s.tick → l.outstanding = [e] → e.resend = false → e.sent + 8 ≤ l.period →
      (e.failures < 3 →
        ∃ t, exec (.outstandingTimeout n) s = .next t ∧ s.LinkOnly t n ∧
          t.link n = { l with outstanding := [{ e with failures := e.failures + 1, resend := true }] } ∧
          t.svp = s.svpReported []) ∧
      (∀ k x, 3 ≤ e.failures → e.origin = .transaction k → s.flying n k = some x →
        ∃ t rs, exec (.outstandingTimeout n) s = .next t ∧ s.LinkAndHandoff t n ∧ t.link n = { l with outstanding := [] } ∧
          t.svp = s.svpReported (.handoffResult n { x with state := .failed } .checkFailed :: rs)) ∧
      (3 ≤ e.failures → e.origin = .reply →
        ∃ t, exec (.outstandingTimeout n) s = .next t ∧ s.LinkOnly t n ∧ t.link n = { l with outstanding := [] } ∧
          t.svp = s.svpReported [])) ∧
    (∀ b p, (l.period + 1) * 4 ≤ s.tick → l.state = .echo → l.held = some { bytes := b, echoed := some p } →
      p + 8 ≤ l.period →
      ∃ t, exec (.echoHeldTimeout n) s = .next t ∧ s.LinkOnly t n ∧ t.link n = { l with held := none } ∧
        t.svp = s.svpReported []) ∧
    (let send := fun (new : Link) (kind : BlockKind) (message : Nat) (body : List Byte) (t : State) =>
      t.link n = { new with
        returns := l.returns.drop 1, period := l.period + 1, lastSent := sent kind message body
        lastCheck := crc16 (sent kind message body) } ∧
      (∀ m, m ≠ n → t.link m = s.link m ∧ t.station m = s.station m)
    let standing := ∀ e ∈ l.outstanding, e.resend = true ∨ l.period < e.sent + 8
    let next := if l.outNumber ≥ 255 then 1 else l.outNumber + 1
    let entry := fun (body : List Byte) (origin : BlockOrigin) =>
      ({ message := l.outNumber, body := body, sent := l.period, failures := 0, resend := false, origin := origin } : Outstanding)
    let idle := (s.station n).replies = [] ∧ (s.inFlight n = none ∨ ∃ x, s.inFlight n = some x ∧ x.handed = true)
    let sole := fun (t : State) => t = { s with slc := t.slc, svp := s.svpReported [], lines := Lines.quiet }
    (l.period + 1) * 4 ≤ s.tick → standing →
      (∀ front x back, l.state = .checked ∨ (l.state = .echo ∧ ∀ h, l.held = some h → ∃ p, h.echoed = some p ∧ l.period < p + 8) →
        l.outstanding = front ++ x :: back → x.resend = true → (∀ y ∈ front, y.resend = false) → x ∉ back →
        ∃ t, exec (.blockPeriod n) s = .next t ∧ sole t ∧
          send { l with outstanding := front ++ { x with resend := false, sent := l.period } :: back } .data x.message x.body t) ∧
      (∀ x, l.state = .checked → l.outstanding.length < 4 → (∀ y ∈ l.outstanding, y.resend = false) →
        (s.station n).replies = [] → s.inFlight n = some x → x.handed = false →
        ∃ t, exec (.blockPeriod n) s = .next t ∧
          send { l with outstanding := l.outstanding ++ [entry x.body (.transaction x.id)], outNumber := next } .data l.outNumber
            x.body t ∧
          t.station n = { s.station n with
            queue := (s.station n).queue.map (fun y =>
              if y.id = x.id then { x with handed := true, firstSent := some s.tick } else y) } ∧
          t = { s with slc := t.slc, hoe := t.hoe, svp := s.svpReported [], lines := Lines.quiet }) ∧
      (∀ h, l.state = .echo → l.held = some h → h.echoed = none →
        ∃ t, exec (.blockPeriod n) s = .next t ∧ sole t ∧
          send { l with held := some { h with echoed := some l.period } } .echo (fieldAt h.bytes 5 1) (blockBody h.bytes) t) ∧
      (l.state = .echo → l.held = none → l.outstanding = [] →
        (∀ r rest, (s.station n).replies = r :: rest →
          ∃ t, exec (.blockPeriod n) s = .next t ∧
            send { l with outstanding := [entry (stationReplyBody r) .reply], outNumber := next } .data l.outNumber
              (stationReplyBody r) t ∧
            t.station n = { s.station n with replies := rest } ∧
            t = { s with slc := t.slc, hoe := t.hoe, svp := s.svpReported [], lines := Lines.quiet }) ∧
        (∀ x, (s.station n).replies = [] → s.inFlight n = some x → x.handed = false →
          ∃ t, exec (.blockPeriod n) s = .next t ∧
            send { l with outstanding := [entry x.body (.transaction x.id)], outNumber := next } .data l.outNumber x.body t ∧
            t.station n = { s.station n with
              queue := (s.station n).queue.map (fun y =>
                if y.id = x.id then { x with handed := true, firstSent := some s.tick } else y) })) ∧
      ((l.state = .checked ∧ (idle ∨ 4 ≤ l.outstanding.length)) ∨
          (l.state = .echo ∧ (∀ h, l.held = some h → ∃ p, h.echoed = some p ∧ l.period < p + 8) ∧ (idle ∨ l.outstanding ≠ [])) →
        (∀ y ∈ l.outstanding, y.resend = false) →
        ∃ t, exec (.blockPeriod n) s = .next t ∧ sole t ∧ send l .fill 0 (List.replicate 24 0) t))

/-- R134 to R138, R141 to R143, R145 to R149, R154, R155: bytes on a DOWN link make it SEARCHING; three blocks in train align it, to
ACQUIRING, or to ECHO under ECHO_ONLY, and a candidate with another station's number is passed by. A whole block in CHECKED or
ACQUIRING is held, and judges the one held before, which in ACQUIRING raises the run or returns it to 0; the eighth good in a row in
ACQUIRING makes the link CHECKED. A block taken in CHECKED settles the entry its verdict names, and its DATA, unless a repeat, is a
station message: its effect, then its reply, at most 8 kept; a body that does not decode does nothing. In ECHO a DATA block is held
for its echo, a verdict on that echo takes or discards it, and a station's ECHO confirms or fails the entry. A block not
well-formed, by its opener, its station number or its position, is a miss and BAD, and makes the block held before it BAD; the third
in a row loses framing, and more than 200 BAD of the last 256 make a running link SEARCHING. The model's choices: the held block is
judged before the broken one, whose verdict keeps the kind bits it shows (log entry 22), and a link that searches keeps no expected
position (log entry 24). Further choices: a link aligns when the third block is whole (log entry 23), a verdict settles the entry
last sent at its position (log entry 54), and the report of a change (R140) counts the BAD of the window, with the judgement that
brings it about, before the change empties it (log entry 77). -/
def Obligations.StationBlocksAreJudged : Prop :=
  ∀ (s : State) (n : Nat), 1 ≤ n → n ≤ 32 → (s.link n).rx = [] →
    let l := s.link n
    (∀ x : Byte, l.state = .down →
      ∃ t, exec (.stationBlock n [x]) s = .next t ∧ s.LinkOnly t n ∧
        t.link n = { l with state := .searching, lastByte := some s.tick, rx := if x = 0xC3 then [x] else [] } ∧
        t.svp = s.svpReported [.linkState n .down .searching .activity l.bad]) ∧
    (∀ (b : List Byte) (pos : Nat), b.length = 32 → l.expected = some pos → wellFormedBlock n (some pos) b = true →
      let seen := { l with lastByte := some s.tick, expected := some ((pos + 1) % 8), misses := 0, lastSeen := some n }
      let fresh : HeldBlock := { bytes := b, echoed := none }
      (l.state = .checked ∨ l.state = .acquiring → l.held = none → (l.state = .acquiring → l.acqCount < 200) →
        ∃ t, exec (.stationBlock n b) s = .next t ∧ s.LinkOnly t n ∧ t.link n = { seen with held := some fresh } ∧
          t.svp = s.svpReported []) ∧
      (∀ h, l.state = .checked → l.held = some h → blockKindOf h.bytes = .fill → blockVerdict h.bytes = none →
        l.returns.length < 4 →
        let good := decide (fieldAt b 30 2 = (crc16 h.bytes).toNat)
        (l.addDensity good).bad ≤ 200 →
        ∃ t, exec (.stationBlock n b) s = .next t ∧ s.LinkOnly t n ∧
          t.link n = { seen with
            held := some fresh, density := (l.addDensity good).density
            returns := l.returns ++ [{ position := blockPosition h.bytes, good := good, kind := .fill }] } ∧
          t.svp = s.svpReported []) ∧
      (∀ h, l.state = .acquiring → l.held = some h → l.acqCount < 200 → l.acqRun = 7 → l.returns.length < 4 →
        fieldAt b 30 2 = (crc16 h.bytes).toNat →
        ∃ t, exec (.stationBlock n b) s = .next t ∧ s.LinkAndHandoff t n ∧
          t.link n = { seen with
            state := .checked, held := some fresh, density := [], acqRun := 8, acqCount := l.acqCount + 1
            returns := l.returns ++
              [{ position := blockPosition h.bytes, good := blockKindOf h.bytes == .fill, kind := blockKindOf h.bytes }] } ∧
          t.svp = s.svpReported [.linkState n .acquiring .checked .acquired l.bad])) ∧
    (let lost := fun (was : LinkState) (cause : LinkCause) (bytes : List Byte) (counted : Link) =>
      ∃ t rs, exec (.stationBlock n bytes) s = .next t ∧ s.LinkAndHandoff t n ∧ (t.link n).state = .searching ∧
        (t.link n).expected = none ∧ (t.link n).held = none ∧ (t.link n).outstanding = [] ∧ (t.link n).returns = [] ∧
        (t.link n).applied = l.applied ∧ t.svp = s.svpReported (.linkState n was .searching cause counted.bad :: rs)
    let alone := fun (bytes : List Byte) (new : Link) =>
      ∃ t, exec (.stationBlock n bytes) s = .next t ∧ s.LinkOnly t n ∧ t.link n = new ∧ t.svp = s.svpReported []
    let reframed := fun (bytes : List Byte) (new : Link) =>
      ∃ t, exec (.stationBlock n bytes) s = .next t ∧ s.LinkOnly t n ∧
        t.link n = { new with
          state := .searching, expected := none, misses := 0, held := none, acqRun := 0, acqCount := 0 } ∧
        t.svp = s.svpReported [.linkState n .acquiring .searching .framingLost l.bad]
    let taken := fun (bytes : List Byte) (new : Link) (message : Nat) (body : List Byte) =>
      (l.applied.contains message = true → alone bytes new) ∧
      (l.applied.contains message = false →
        let applied := l.applied ++ [message]
        let kept := { new with applied := applied.drop (applied.length - 8) }
        (stationMsgOf body = none → alone bytes kept) ∧
        (∀ m, stationMsgOf body = some m →
          ∃ mid : State, mid.link n = kept ∧ (∀ k, k ≠ n → mid.link k = s.link k) ∧ mid = { s with slc := mid.slc } ∧
            let out := mid.stationEffect n m
            let replies := (out.1.station n).replies
            let u := out.1.setStation n { out.1.station n with
              replies := (if 8 ≤ replies.length then replies.drop 1 else replies) ++
                [{ message := message, code := out.2.1, request := out.2.2 }] }
            exec (.stationBlock n bytes) s = .next { u with svp := u.svp.startTx, lines := Lines.quiet }))
    let settles := fun (bytes : List Byte) (new : Link) (p : Nat) (good : Bool) =>
      (∀ front e back, l.outstanding = front ++ e :: back → e.resend = false → e.sent % 8 = p → e ∉ front → e ∉ back →
        (∀ x ∈ front, x.resend = true ∨ x.sent % 8 ≠ p) →
        (good = true → e.origin = .reply → alone bytes { new with outstanding := front ++ back }) ∧
        (good = false → e.failures < 3 →
          alone bytes { new with outstanding := front ++ { e with failures := e.failures + 1, resend := true } :: back }) ∧
        (∀ k y, good = true → e.origin = .transaction k → s.flying n k = some y →
          ((∃ tool place g, y.kind = .toolData tool place g) ∨ (∃ kind type, y.kind = .notice kind type) →
            ∃ t, exec (.stationBlock n bytes) s = .next t ∧ t.link n = { new with outstanding := front ++ back } ∧
              t.station n = { s.station n with
                queue := (s.station n).queue.map (fun z => if z.id = y.id then { y with delivered := true } else z) } ∧
              (∀ m, m ≠ n → t.link m = s.link m ∧ t.station m = s.station m) ∧
              t = { s with slc := t.slc, hoe := t.hoe, svp := s.svpReported [], lines := Lines.quiet }) ∧
          (∀ tool place blocked, y.kind = .lifeUpdate tool place blocked →
            ∃ t rs, exec (.stationBlock n bytes) s = .next t ∧ t.link n = { new with outstanding := front ++ back } ∧
              s.LinkAndHandoff t n ∧
              t.svp = s.svpReported (.handoffResult n { y with state := .confirmed } .ok :: rs) ∧
              (∀ m, blocked = true → tget (s.station n).magazine place = some m → m.tool = tool →
                tget (t.station n).magazine place = some { m with spentNotice := true })))) ∧
      ((∀ x ∈ l.outstanding, x.resend = true ∨ x.sent % 8 ≠ p) → alone bytes new)
    (∀ (b : List Byte) (pos : Nat), b.length = 32 → l.expected = some pos → wellFormedBlock n (some pos) b = true →
      let seen := { l with lastByte := some s.tick, expected := some ((pos + 1) % 8), misses := 0, lastSeen := some n }
      let fresh : HeldBlock := { bytes := b, echoed := none }
      (∀ h, l.state = .checked → l.held = some h → l.returns.length < 4 →
        let good := decide (fieldAt b 30 2 = (crc16 h.bytes).toNat)
        let judged := { seen with
          held := some fresh, density := (l.addDensity good).density
          returns := l.returns ++ [{ position := blockPosition h.bytes, good := good, kind := blockKindOf h.bytes }] }
        (good = false → 200 < (l.addDensity good).bad → lost .checked .errorDensity b (l.addDensity good)) ∧
        (good = false → (l.addDensity good).bad ≤ 200 → alone b judged) ∧
        (good = true → (l.addDensity good).bad ≤ 200 →
          (blockVerdict h.bytes = none →
            (blockKindOf h.bytes = .data → taken b judged (fieldAt h.bytes 5 1) (blockBody h.bytes)) ∧
            (blockKindOf h.bytes ≠ .data → alone b judged)) ∧
          (∀ p g, blockVerdict h.bytes = some (p, g) → blockKindOf h.bytes ≠ .data → settles b judged p g))) ∧
      (l.state = .echo → l.returns.length < 4 → (l.addDensity true).bad ≤ 200 →
        let named := blockVerdict b ≠ none ∧
          ∃ h, l.held = some h ∧ ∃ p, h.echoed = some p ∧ (blockVerdict b).map (fun v => v.1) = some (p % 8)
        let sound := (l.addDensity true).density
        (¬ named → blockKindOf b = .fill → alone b { seen with density := sound }) ∧
        (¬ named → blockKindOf b = .data → alone b { seen with held := some fresh, density := sound }) ∧
        (named → blockKindOf b = .fill → (blockVerdict b).map (fun v => v.2) = some false →
          alone b { seen with held := none, density := sound }) ∧
        (∀ h, named → blockKindOf b = .fill → l.held = some h → (blockVerdict b).map (fun v => v.2) = some true →
          l.applied.contains (fieldAt h.bytes 5 1) = true ∨ stationMsgOf (blockBody h.bytes) = none →
          alone b { seen with
            held := none, density := sound
            applied := if l.applied.contains (fieldAt h.bytes 5 1) = true then l.applied
              else (l.applied ++ [fieldAt h.bytes 5 1]).drop (l.applied.length - 7) }) ∧
        (∀ h m, named → blockKindOf b = .fill → l.held = some h → (blockVerdict b).map (fun v => v.2) = some true →
          l.applied.contains (fieldAt h.bytes 5 1) = false → stationMsgOf (blockBody h.bytes) = some m → s.svp.mode = .loading →
          ∃ t, exec (.stationBlock n b) s = .next t ∧
            t.link n = { seen with
              held := none, density := sound, applied := (l.applied ++ [fieldAt h.bytes 5 1]).drop (l.applied.length - 7) } ∧
            (t.station n).replies.getLast? = some { message := fieldAt h.bytes 5 1, code := .notRunning, request := none } ∧
            t = { s with slc := t.slc, hoe := t.hoe, svp := s.svpReported [], lines := Lines.quiet })) ∧
      (l.state = .echo → l.returns.length < 4 → blockKindOf b = .echo → blockVerdict b = none →
        let verdict := fun (good : Bool) => { seen with
          density := (l.addDensity good).density
          returns := l.returns ++ [{ position := blockPosition b, good := good, kind := .echo }] }
        (∀ e, l.outstanding = [e] → e.message = fieldAt b 5 1 → e.body = blockBody b → e.origin = .reply →
          (l.addDensity true).bad ≤ 200 → alone b { verdict true with outstanding := [] }) ∧
        (∀ e, l.outstanding = [e] → e.message = fieldAt b 5 1 → e.body ≠ blockBody b → e.failures < 3 →
          (l.addDensity false).bad ≤ 200 →
          alone b { verdict false with outstanding := [{ e with failures := e.failures + 1, resend := true }] }) ∧
        ((∀ e ∈ l.outstanding, e.message ≠ fieldAt b 5 1) →
          ((l.addDensity false).bad ≤ 200 → alone b (verdict false)) ∧
          (200 < (l.addDensity false).bad → lost .echo .errorDensity b (l.addDensity false))))) ∧
    (∀ (b : List Byte) (pos : Nat), b.length = 32 → l.expected = some pos → l.state = .acquiring → l.acqCount < 200 →
      l.returns.length < 4 → ∀ h, l.held = some h → wellFormedBlock n (some pos) b = true →
      let judged := fun (good : Bool) => ({ l with
        lastByte := some s.tick, expected := some ((pos + 1) % 8), misses := 0, lastSeen := some n
        held := some { bytes := b, echoed := none }, acqCount := l.acqCount + 1
        returns := l.returns ++ [{ position := blockPosition h.bytes, good := good, kind := blockKindOf h.bytes }] } : Link)
      (fieldAt b 30 2 = (crc16 h.bytes).toNat → l.acqRun < 7 →
        alone b { judged (blockKindOf h.bytes == .fill) with acqRun := l.acqRun + 1 }) ∧
      (fieldAt b 30 2 ≠ (crc16 h.bytes).toNat → alone b { judged false with acqRun := 0 })) ∧
    (∀ (b : List Byte) (pos : Nat), b.length = 32 → l.expected = some pos →
      openerAt b = false ∨ fieldAt b 2 1 ≠ n ∨ blockPosition b ≠ pos →
      let passed := { l with
        lastByte := some s.tick, expected := some ((pos + 1) % 8), misses := l.misses + 1
        lastSeen := if openerAt b = true ∧ 1 ≤ fieldAt b 2 1 ∧ fieldAt b 2 1 ≤ 32 then some (fieldAt b 2 1) else l.lastSeen }
      let bad : ReturnVerdict := { position := pos, good := false, kind := blockKindOf b }
      let heldBad := fun (h : HeldBlock) =>
        ({ position := blockPosition h.bytes, good := false, kind := blockKindOf h.bytes } : ReturnVerdict)
      (l.state = .checked → l.held = none →
        (l.misses < 2 → l.returns.length < 4 → (l.addDensity false).bad ≤ 200 →
          alone b { passed with density := (l.addDensity false).density, returns := l.returns ++ [bad] }) ∧
        (l.misses < 2 → 200 < (l.addDensity false).bad → lost .checked .errorDensity b (l.addDensity false)) ∧
        (2 ≤ l.misses → lost .checked .framingLost b (l.addDensity false))) ∧
      (∀ h, l.state = .checked → l.held = some h →
        let both := (l.addDensity false).addDensity false
        (200 < (l.addDensity false).bad → lost .checked .errorDensity b (l.addDensity false)) ∧
        ((l.addDensity false).bad ≤ 200 →
          (l.misses < 2 → l.returns.length < 3 → both.bad ≤ 200 →
            alone b { passed with held := none, density := both.density, returns := l.returns ++ [heldBad h, bad] }) ∧
          (l.misses < 2 → 200 < both.bad → lost .checked .errorDensity b both) ∧
          (2 ≤ l.misses → lost .checked .framingLost b both))) ∧
      (l.state = .echo →
        (l.misses < 2 → (l.addDensity false).bad ≤ 200 → alone b { passed with density := (l.addDensity false).density }) ∧
        (l.misses < 2 → 200 < (l.addDensity false).bad → lost .echo .errorDensity b (l.addDensity false)) ∧
        (2 ≤ l.misses → lost .echo .framingLost b (l.addDensity false))) ∧
      (l.state = .acquiring → l.acqCount < 200 → l.held = none → l.returns.length < 4 →
        let judged := { passed with acqRun := 0, acqCount := l.acqCount + 1, returns := l.returns ++ [bad] }
        (l.misses < 2 → alone b judged) ∧ (2 ≤ l.misses → reframed b judged)) ∧
      (∀ h, l.state = .acquiring → l.acqCount < 200 → l.held = some h → l.returns.length < 3 →
        let judged := { passed with
          held := none, acqRun := 0, acqCount := min (l.acqCount + 2) 200, returns := l.returns ++ [heldBad h, bad] }
        (l.misses < 2 → alone b judged) ∧ (2 ≤ l.misses → reframed b judged))) ∧
    (∀ (b1 b2 b3 : List Byte), l.state = .searching → b1.length = 32 → b2.length = 32 → b3.length = 32 →
      (∀ b, b = b1 ∨ b = b2 ∨ b = b3 → openerAt b = true ∧ fieldAt b 2 1 = n) →
      blockPosition b2 = (blockPosition b1 + 1) % 8 → blockPosition b3 = (blockPosition b2 + 1) % 8 →
      let framed := { l with
        lastByte := some s.tick, lastSeen := some n, expected := some ((blockPosition b3 + 1) % 8), misses := 0, acqRun := 0
        acqCount := 0 }
      (l.policy ≠ .echoOnly →
        ∃ t, exec (.stationBlock n (b1 ++ b2 ++ b3)) s = .next t ∧ s.LinkOnly t n ∧
          t.link n = { framed with state := .acquiring, held := some { bytes := b3, echoed := none }, density := [] } ∧
          t.svp = s.svpReported [.linkState n .searching .acquiring .aligned l.bad]) ∧
      (l.policy = .echoOnly → blockVerdict b3 = none → blockKindOf b3 = .fill ∨ blockKindOf b3 = .data →
        ∃ t, exec (.stationBlock n (b1 ++ b2 ++ b3)) s = .next t ∧ s.LinkAndHandoff t n ∧
          t.link n = { framed with
            state := .echo, density := [true]
            held := if blockKindOf b3 = .data then some { bytes := b3, echoed := none } else none } ∧
          t.svp = s.svpReported [.linkState n .searching .echo .aligned l.bad])) ∧
    (∀ x y : Byte, l.state = .searching → 1 ≤ x.toNat → x.toNat ≤ 32 → x.toNat ≠ n → y ≠ 0xC3 →
      alone [0xC3, 0x3C, x, y] { l with lastByte := some s.tick, lastSeen := some x.toNat }))

/-! ### Chapter 8: handoff transactions and broadcast holds -/

/-- R156, R169: SET_STATION is refused with RANGE outside its ranges and with STATE while a magazine entry, an ISSUED instance's
destination or a live request names a place above the new count; otherwise it sets the count alone. SET_GROUP replaces the set of a
group, each station once, and refuses a group or station out of range. -/
def Obligations.StationsAndGroupsAreSet : Prop :=
  ∀ (s : State) (tag : Byte) (body : List Byte),
    (s.takesNow 0x40 tag body = true →
      let n := fieldAt body 0 1
      let count := fieldAt body 1 1
      let named := (∃ e ∈ (s.station n).magazine, count < e.1) ∨
        (∃ e ∈ s.trg.insts, e.2.custody = .issued ∧
          ∃ p, count < p ∧ (e.2.loc = .toStation n p ∨ e.2.loc = .station n p)) ∨
        (∃ r ∈ s.isc.queue, ∃ p, r.dest = .station n p ∧ count < p)
      (¬ (1 ≤ n ∧ n ≤ 32 ∧ 1 ≤ count ∧ count ≤ 120) →
        exec (.setStation tag body) s = .next (s.answered 0x40 tag body (.plain .range))) ∧
      (1 ≤ n ∧ n ≤ 32 ∧ 1 ≤ count ∧ count ≤ 120 → named →
        exec (.setStation tag body) s = .next (s.answered 0x40 tag body (.plain .state))) ∧
      (1 ≤ n ∧ n ≤ 32 ∧ 1 ≤ count ∧ count ≤ 120 → ¬ named →
        ∃ t, exec (.setStation tag body) s = .next t ∧ t.station n = { s.station n with places := count } ∧
          (∀ m, m ≠ n → t.station m = s.station m) ∧
          t = { s with
            hoe := { s.hoe with stations := t.hoe.stations }, svp := s.svpAnswered 0x40 tag body [] (.plain .ok)
            lines := Lines.quiet })) ∧
    (s.takesNow 0x41 tag body = true →
      let g := fieldAt body 0 1
      let members := ((body.drop 2).take (fieldAt body 1 1)).map BitVec.toNat
      (¬ (1 ≤ g ∧ g ≤ 8 ∧ ∀ n ∈ members, 1 ≤ n ∧ n ≤ 32) →
        exec (.setGroup tag body) s = .next (s.answered 0x41 tag body (.plain .range))) ∧
      (1 ≤ g ∧ g ≤ 8 ∧ (∀ n ∈ members, 1 ≤ n ∧ n ≤ 32) →
        ∃ t, exec (.setGroup tag body) s = .next t ∧ (t.group g).Pairwise (· < ·) ∧ (∀ n, n ∈ t.group g ↔ n ∈ members) ∧
          (∀ k, k ≠ g → t.group k = s.group k) ∧
          t = { s with
            hoe := { s.hoe with groups := t.hoe.groups }, svp := s.svpAnswered 0x41 tag body [] (.plain .ok)
            lines := Lines.quiet }))

/-- R170, R172, R164: TYPE_HOLD answers by the first row that applies; accepted, it holds the type, bars every RESERVED, READY and
STAGED instance of it where it lies, leaves the others' custody, returns each reserved request to WAITING_STOCK, cancels the PENDING
TOOL_DATA of its ISSUED and LOADED instances, and makes a HOLD record for its members, or answers BUSY where all four records are
OPEN. A member whose link does not run is OFFLINE and one whose queue is full REFUSED, the type in its unacknowledged hold set; any
other has a notice with the broadcast's number. A notice that ends confirmed takes the entry of its kind out of the set; one that
ends otherwise puts its type back unless a newer entry stands. The model's choices: an entry is newer than a notice where it was
made after the notice entered, and one put back is as old as its notice (log entry 27); a PENDING notice of the type is replaced
before the queue is found full (log entry 28); the data is cancelled station by station, in queue order (log entry 52); the worst
code of a record created with no member, which is DONE at once, is OK (log entry 91). -/
def Obligations.TypeHoldBarsInstances : Prop :=
  (∀ (s : State) (tag : Byte) (body : List Byte), s.takesNow 0x42 tag body = true →
    let n := fieldAt body 0 2
    let group := fieldAt body 2 1
    let inRange := 1 ≤ n ∧ n ≤ 512 ∧ group ≤ 8
    let barred := fun (i : InstRec) => i.type = n ∧ (i.custody = .reserved ∨ i.custody = .ready ∨ i.custody = .staged)
    (s.svp.mode = .loading → exec (.typeHold tag body) s = .next (s.answered 0x42 tag body (.plain .notInMode))) ∧
    (s.svp.mode = .running → ¬ inRange → exec (.typeHold tag body) s = .next (s.answered 0x42 tag body (.plain .range))) ∧
    (s.svp.mode = .running → inRange → s.type n = none →
      exec (.typeHold tag body) s = .next (s.answered 0x42 tag body (.plain .noSuch))) ∧
    (∀ ty, s.svp.mode = .running → inRange → s.type n = some ty →
      (ty.held = true → exec (.typeHold tag body) s = .next (s.answered 0x42 tag body (.plain .held))) ∧
      (ty.held = false → tableSorted s.trg.insts = true → s.hoe.broadcasts.length = 4 → 1 ≤ s.hoe.nextBroadcast →
        s.hoe.nextBroadcast ≤ 255 →
        ∃ t rs r, exec (.typeHold tag body) s = .next t ∧ t.type n = some { ty with held := true } ∧
          (∀ m, m ≠ n → t.type m = s.type m) ∧ (∀ m, s.tool m = none → t.tool m = none) ∧
          (∀ m i, s.tool m = some i → barred i →
            t.tool m = some { i with custody := .quarantine, qcause := some .typeHold, link := none }) ∧
          (∀ m i, s.tool m = some i → ¬ barred i → ∃ j, t.tool m = some j ∧ i.PassedBy j) ∧
          (∀ m i k q, s.tool m = some i → i.type = n → i.custody = .reserved → i.link = some k → s.request k = some q →
            q.type = n → t.request k = some { q with state := .waitingStock, tool := none, reserveTick := none }) ∧
          ((∀ b ∈ s.hoe.broadcasts, ∃ x, b = some x ∧ x.done = false) → r = .plain .busy) ∧
          (¬ (∀ b ∈ s.hoe.broadcasts, ∃ x, b = some x ∧ x.done = false) →
            ∃ b, r = { code := .accepted, data := .handle b.number } ∧ t.broadcast b.number = some b ∧ b.kind = .hold ∧
              b.type = n ∧ b.tick = s.tick ∧
              b.results.map (·.1) = (if group = 0 then (List.range 32).map (· + 1) else s.group group)) ∧
          ((∀ st, (s.station st).Queued s.hoe.entries) → ∀ m i st x, s.tool m = some i → i.type = n →
            i.custody = .issued ∨ i.custody = .loaded → 1 ≤ st → st ≤ 32 → x ∈ (s.station st).queue → x.state = .pending →
            (∃ p g, x.kind = .toolData m p g) →
            (∀ y ∈ (t.station st).queue, y.id ≠ x.id) ∧
            ∃ y, .handoffResult st y .cancelled ∈ rs ∧ y.id = x.id ∧ y.number = x.number ∧ y.kind = x.kind ∧
              y.state = .cancelled) ∧
          t = { s with
            trg := t.trg, psc := t.psc, isc := t.isc, hoe := t.hoe, svp := s.svpAnswered 0x42 tag body rs r
            lines := Lines.quiet }))) ∧
  (∀ (s : State) (tag : Byte) (body : List Byte) (ty : TypeRec), s.takesNow 0x42 tag body = true →
    let n := fieldAt body 0 2
    let group := fieldAt body 2 1
    let members := if group = 0 then (List.range 32).map (· + 1) else s.group group
    let full := ∀ b ∈ s.hoe.broadcasts, ∃ x, b = some x ∧ x.done = false
    s.svp.mode = .running → 1 ≤ n ∧ n ≤ 512 ∧ group ≤ 8 → s.type n = some ty → ty.held = false →
    tableSorted s.trg.insts = true → s.hoe.broadcasts.length = 4 → 1 ≤ s.hoe.nextBroadcast → s.hoe.nextBroadcast ≤ 255 →
    members.Nodup →
    ∃ t rs r, exec (.typeHold tag body) s = .next t ∧ t.svp = s.svpAnswered 0x42 tag body rs r ∧
      let untouched := fun (m : Nat) => ∀ x ∈ (s.station m).queue, x.state = .pending →
        ∀ k p g, x.kind = .toolData k p g → ∀ i, s.tool k = some i → i.type ≠ n ∨ (i.custody ≠ .issued ∧ i.custody ≠ .loaded)
      let awaits := fun (m : Nat) => ∃ e, tget (t.station m).unacked n = some e ∧ e.kind = .hold ∧ s.hoe.entries ≤ e.stamp
      let noNotice := fun (m : Nat) => ∀ x ∈ (s.station m).queue, x.state = .pending → ∀ k, x.kind ≠ .notice k n
      (full → r = .plain .busy ∧ ∀ m ∈ members, awaits m ∧
        ((s.link m).state.running = true → (s.station m).Queued s.hoe.entries → untouched m →
          (s.station m).queue.length + (s.station m).unacked.length < 16 →
          (∀ x ∈ (s.station m).queue, ∀ k, x.kind ≠ .notice k n) →
          ∃ x ∈ (t.station m).queue, x.kind = .notice .hold n ∧ x.broadcast = none)) ∧
      (¬ full → ∃ b, t.broadcast b.number = some b ∧ r = { code := .accepted, data := .handle b.number } ∧
        b.results.map (·.1) = members ∧ (b.done = true ↔ ∀ e ∈ b.results, e.2 ≠ none) ∧
        (b.done = true → .broadcastDone b b.worst ∈ rs) ∧
        ∀ m ∈ members, untouched m →
          let carries := (m, none) ∈ b.results ∧ ∃ x ∈ (t.station m).queue, x.kind = .notice .hold n ∧
            x.broadcast = some b.number ∧ s.hoe.entries ≤ x.id ∧ (x.state = .pending ∨ x.state = .inFlight)
          ((s.link m).state.running = false →
            (m, some MemberCode.offline) ∈ b.results ∧ awaits m ∧ (t.station m).queue = (s.station m).queue) ∧
          ((s.link m).state.running = true → noNotice m → 16 ≤ (s.station m).queue.length →
            (m, some MemberCode.refused) ∈ b.results ∧ awaits m ∧
            (t.station m).queue.map (·.id) = (s.station m).queue.map (·.id)) ∧
          ((s.link m).state.running = true → (s.station m).Queued s.hoe.entries → noNotice m → (s.station m).queue.length < 16 →
            carries ∧ (t.station m).unacked = (s.station m).unacked) ∧
          (∀ x k, (s.link m).state.running = true → (s.station m).Queued s.hoe.entries → x ∈ (s.station m).queue →
            x.state = .pending → x.kind = .notice k n →
            (∀ y ∈ (s.station m).queue, ∀ j, y.broadcast = some j → (s.broadcast j).isSome = true) →
            carries ∧ (∀ y ∈ (t.station m).queue, y.id ≠ x.id) ∧
            .handoffResult m { x with state := .cancelled } .superseded ∈ rs ∧
            ((∃ e, tget (s.station m).unacked n = some e ∧ x.id < e.stamp) → (t.station m).unacked = (s.station m).unacked) ∧
            (¬ (∃ e, tget (s.station m).unacked n = some e ∧ x.id < e.stamp) →
              (t.station m).unacked = tset (s.station m).unacked n { kind := k, stamp := x.id })))) ∧
  (∀ (s : State) (st type : Nat) (x : Txn) (kind : NoticeKind) (state : TxnState) (code : TxnCode),
    x.kind = .notice kind type → x.broadcast = none →
    let old := (s.station st).unacked
    let t := s.finishTxn st x state code
    t.svp = s.svp.handed s.now [.handoffResult st { x with state := state } code] ∧
      (∀ m, m ≠ st → t.station m = s.station m) ∧
      (t.station st).queue = (s.station st).queue.filter (fun y => decide (y.id ≠ x.id)) ∧
      (state = .confirmed →
        (t.station st).unacked = if (tget old type).map (·.kind) = some kind then tdel old type else old) ∧
      (state ≠ .confirmed → (∃ e, tget old type = some e ∧ x.id < e.stamp) → (t.station st).unacked = old) ∧
      (state ≠ .confirmed → ¬ (∃ e, tget old type = some e ∧ x.id < e.stamp) →
        (t.station st).unacked = tset old type { kind := kind, stamp := x.id }))

/-- R171, R172: TYPE_RELEASE is checked as TYPE_HOLD is; accepted, it ends the hold and lifts every quarantine of cause TYPE_HOLD of
the type, and of no other, in full where no instance of the type is ISSUED. An ISSUED instance at a station whose entry has its
generation confirmed becomes LOADED; another ISSUED one, and a LOADED one with handoff owed, has a TOOL_DATA in the queue or stays
owed. A RELEASE record is made for the members, those whose link does not run OFFLINE with the type in their hold set, or BUSY is
answered where all four records are OPEN. -/
def Obligations.TypeReleaseLiftsHold : Prop :=
  ∀ (s : State) (tag : Byte) (body : List Byte), s.takesNow 0x43 tag body = true →
    let n := fieldAt body 0 2
    let inRange := 1 ≤ n ∧ n ≤ 512 ∧ fieldAt body 2 1 ≤ 8
    let lifted := fun (i : InstRec) => i.type = n ∧ i.custody = .quarantine ∧ i.qcause = some .typeHold
    let after := fun (i : InstRec) =>
      if i.life = 0 then Custody.regrindDue
      else if i.meas = none then .unmeasured
      else
        match i.loc with
        | .pocket _ _ => .ready
        | .bench => .staged
        | _ => .unmeasured
    (s.svp.mode = .loading → exec (.typeRelease tag body) s = .next (s.answered 0x43 tag body (.plain .notInMode))) ∧
    (s.svp.mode = .running → ¬ inRange →
      exec (.typeRelease tag body) s = .next (s.answered 0x43 tag body (.plain .range))) ∧
    (s.svp.mode = .running → inRange → s.type n = none →
      exec (.typeRelease tag body) s = .next (s.answered 0x43 tag body (.plain .noSuch))) ∧
    (∀ ty, s.svp.mode = .running → inRange → s.type n = some ty →
      (ty.held = false → exec (.typeRelease tag body) s = .next (s.answered 0x43 tag body (.plain .state))) ∧
      (ty.held = true → tableSorted s.trg.insts = true → (∀ e ∈ s.trg.insts, e.2.type = n → e.2.custody ≠ .issued) →
        ∃ t rs r, exec (.typeRelease tag body) s = .next t ∧ t.type n = some { ty with held := false } ∧
          (∀ m, m ≠ n → t.type m = s.type m) ∧ (∀ m, s.tool m = none → t.tool m = none) ∧
          (∀ m i, s.tool m = some i → lifted i →
            ∃ j, t.tool m = some j ∧ InstRec.PassedBy { i with custody := after i, qcause := none, link := none } j) ∧
          (∀ m i, s.tool m = some i → ¬ lifted i → ∃ j, t.tool m = some j ∧ i.PassedBy j) ∧
          (r = .plain .busy ∨ ∃ k, r = { code := .accepted, data := .handle k }) ∧
          t = { s with
            trg := t.trg, psc := t.psc, isc := t.isc, hoe := t.hoe, svp := s.svpAnswered 0x43 tag body rs r
            lines := Lines.quiet })) ∧
    (∀ ty, s.svp.mode = .running → inRange → s.type n = some ty → ty.held = true → tableSorted s.trg.insts = true →
      s.hoe.broadcasts.length = 4 → 1 ≤ s.hoe.nextBroadcast → s.hoe.nextBroadcast ≤ 255 →
      ∃ t rs r, exec (.typeRelease tag body) s = .next t ∧ t.type n = some { ty with held := false } ∧
        (∀ m i st p e, s.tool m = some i → i.type = n → i.custody = .issued → i.loc = .station st p →
          tget (s.station st).magazine p = some e → e.tool = m → e.confirmed = some i.generation →
          (∃ j, t.tool m = some j ∧ j.custody = .loaded ∧ j.loc = i.loc ∧ j.link = none ∧ j.life = i.life) ∧
            (tget (t.station st).magazine p).map (fun x => x.active) = some true) ∧
        (∀ m i st p, s.tool m = some i → i.type = n → i.heldPlace = some (st, p) → (s.station st).queue = [] →
          (i.custody = .loaded ∧ i.owed = true) ∨ (i.custody = .issued ∧ (s.station st).entryOf m = none) →
          (∃ x ∈ (t.station st).queue, x.kind = .toolData m p i.generation) ∨ (t.tool m).map (fun j => j.owed) = some true) ∧
        ((∀ b ∈ s.hoe.broadcasts, ∃ x, b = some x ∧ x.done = false) → r = .plain .busy) ∧
        (¬ (∀ b ∈ s.hoe.broadcasts, ∃ x, b = some x ∧ x.done = false) →
          ∃ b, r = { code := .accepted, data := .handle b.number } ∧ t.broadcast b.number = some b ∧ b.kind = .release ∧
            b.type = n ∧ b.tick = s.tick ∧
            b.results.map (·.1) = (if fieldAt body 2 1 = 0 then (List.range 32).map (· + 1) else s.group (fieldAt body 2 1)) ∧
            ∀ m, (s.link m).state.running = false → m ∈ b.results.map (·.1) → (b.results.map (·.1)).Nodup →
              (m, some MemberCode.offline) ∈ b.results ∧
                ∃ e, tget (t.station m).unacked n = some e ∧ e.kind = .release ∧ s.hoe.entries ≤ e.stamp) ∧
        t = { s with
          trg := t.trg, psc := t.psc, isc := t.isc, hoe := t.hoe, svp := s.svpAnswered 0x43 tag body rs r
          lines := Lines.quiet })

/-- R174, R158, R159: SEND_DATA answers by the first failing check; otherwise a TOOL_DATA with the current generation is in the
queue of the station that holds the instance, in place of a PENDING one, whose end is reported, and the reply carries its number. A
transaction enters behind its class under the next number; and each operation on a queue keeps it within 16, its classes in order,
one PENDING TOOL_DATA an instance, one PENDING notice a type and one transaction IN_FLIGHT. Transactions are told apart by when they
were made, since their numbers come round. -/
def Obligations.SendDataEntersToolData : Prop :=
  (∀ (s : State) (tag : Byte) (body : List Byte), s.takesNow 0x44 tag body = true →
    let n := fieldAt body 0 2
    let inRange := 1 ≤ n ∧ n ≤ 2048
    let queued := fun (st : Nat) (x : Txn) => x ∈ (s.station st).queue ∧ x.state = .pending ∧ ∃ p g, x.kind = .toolData n p g
    (s.svp.mode = .loading → exec (.sendData tag body) s = .next (s.answered 0x44 tag body (.plain .notInMode))) ∧
    (s.svp.mode = .running → ¬ inRange → exec (.sendData tag body) s = .next (s.answered 0x44 tag body (.plain .range))) ∧
    (s.svp.mode = .running → inRange → s.tool n = none →
      exec (.sendData tag body) s = .next (s.answered 0x44 tag body (.plain .noSuch))) ∧
    (∀ i, s.svp.mode = .running → inRange → s.tool n = some i →
      (i.heldPlace = none → exec (.sendData tag body) s = .next (s.answered 0x44 tag body (.plain .state))) ∧
      (∀ st place, i.heldPlace = some (st, place) →
        (s.typeHeld i.type = true → exec (.sendData tag body) s = .next (s.answered 0x44 tag body (.plain .held))) ∧
        (s.typeHeld i.type = false → (∀ x, ¬ queued st x) → 16 ≤ (s.station st).queue.length →
          exec (.sendData tag body) s = .next (s.answered 0x44 tag body (.plain .full))) ∧
        (s.typeHeld i.type = false → (∃ x, queued st x) ∨ (s.station st).queue.length < 16 →
          (∀ x ∈ (s.station st).queue, x.id < s.hoe.entries) →
          ∃ t rs x, exec (.sendData tag body) s = .next t ∧ x ∈ (t.station st).queue ∧ x.number = s.hoe.nextTxn ∧
            x.kind = .toolData n place i.generation ∧ t.tool n = some { i with owed := false } ∧ s.OthersStand t n ∧
            t.hoe.nextTxn = (if s.hoe.nextTxn ≥ 65535 then 1 else s.hoe.nextTxn + 1) ∧
            (∀ m, m ≠ st → t.station m = s.station m) ∧
            (((∀ y, ¬ queued st y) ∧ rs = []) ∨
              ∃ y, queued st y ∧ rs = [.handoffResult st { y with state := .cancelled } .superseded]) ∧
            t = { s with
              trg := { types := s.trg.types, insts := t.trg.insts }, hoe := t.hoe, lines := Lines.quiet
              svp := s.svpAnswered 0x44 tag body rs { code := .accepted, data := .handle s.hoe.nextTxn } })))) ∧
  (∀ (s : State) (n : Nat) (kind : TxnKind) (k : Option Nat),
    let q := (s.station n).queue
    let first := fun (y : Txn) => y.kind.firstClass
    let x : Txn :=
      { id := s.hoe.entries, number := s.hoe.nextTxn, kind := kind, state := .pending, busyRetries := 0, holdOff := none
        firstSent := none, delivered := false, broadcast := k, body := [], handed := false, slot := s.hoe.entries }
    ((s.enterTxn n kind k).station n).queue =
      (if kind.firstClass = true then q.filter first ++ [x] ++ q.filter (fun y => !first y)
        else q.filter first ++ q.filter (fun y => !first y) ++ [x])) ∧
  (∀ (s : State) (n : Nat), (s.station n).Queued s.hoe.entries →
    let keeps := fun (t : State) => (t.station n).Queued t.hoe.entries
    keeps (s.startTxn n) ∧ (∀ place tool, keeps (s.askToolData n place tool)) ∧ (∀ place tool, keeps (s.askBlocked n place tool)) ∧
    (∀ place tool, keeps (s.askUnblocked n place tool)) ∧ keeps (s.fillSpace n) ∧
    (∀ x ∈ (s.station n).queue, ∀ state code, keeps (s.endTxn n x state code)) ∧
    (∀ x ∈ (s.station n).queue, ∀ behind, keeps (s.returnTxn n x behind)) ∧
    (∀ number type kind, keeps (s.inviteMember number n type kind)) ∧ (∀ type kind, keeps (s.holdEntry n type kind)) ∧
    (∀ id, keeps (s.delivered n id) ∧ keeps (s.sendFailed n id)))

/-- R160 to R162, R164 to R168, R173: the 2 s of an IN_FLIGHT transaction fail it with TIMEOUT; a hold-off tick that passes starts
the first PENDING transaction; the 5 s of an OPEN record give every pending member TIMEOUT and make it DONE, its notices running on.
STORED and REFUSED settle the TOOL_DATA they match and HOLD_ACK the notice, by the first row that applies, and a record whose last
member answers is DONE. LOADED puts an ISSUED instance at its place, verifies it where its generation is confirmed and its type not
held, and otherwise asks for data where none is on its way; UNLOADED brings an instance back, its entry and PENDING transactions
gone, its request lost, retired at its regrind limit. A link that stops returns the IN_FLIGHT transaction first in its class. The
model's choices: before its time no row changes anything (log entry 3); a STORED's transaction ends, and its space is filled, before
the verification (log entry 43); a LOADED where the place is taken is WRONG_PLACE (log entry 47). A STORED or REFUSED that names no
block in flight is STALE whatever its numbers (log entry 21). HANDOFF_RESULT stands ahead of the BROADCAST_DONE that the same end
brings about (log entry 89). The report of a request that ends still shows its instance (log entry 72), and a block is built with
its transaction's own generation (log entry 75), from free values where the records are gone (log entry 80). -/
def Obligations.HandoffTimersExpire : Prop :=
  (∀ (s : State) (n : Nat) (x : Txn), 1 ≤ n → n ≤ 32 → s.inFlight n = some x →
    (∀ f, x.firstSent = some f → f + 2000 ≤ s.tick →
      ∃ t rs, exec (.handoffTimeout n) s = .next t ∧ x ∉ (t.station n).queue ∧ t.trg.types = s.trg.types ∧
        (∀ m, t.tool m = s.tool m ∨ ∃ i o, s.tool m = some i ∧ t.tool m = some { i with owed := o }) ∧
        t = { s with
          hoe := t.hoe, trg := t.trg, lines := Lines.quiet
          svp := s.svpReported (.handoffResult n { x with state := .failed } .timeout :: rs) }) ∧
    ((∀ f, x.firstSent = some f → s.tick < f + 2000) → exec (.handoffTimeout n) s = .next s.idled)) ∧
  (∀ (s : State) (n : Nat) (front rest : List Txn) (x : Txn) (h : Nat), 1 ≤ n → n ≤ 32 →
    (s.station n).queue = front ++ x :: rest → ((s.station n).queue.map (·.id)).Nodup →
    (∀ y ∈ (s.station n).queue, y.state ≠ .inFlight) → (s.link n).state.running = true → x.state = .pending →
    x.holdOff = some h → (∀ y ∈ front, ∀ k, y.holdOff = some k → s.tick < k) → (∀ y ∈ front, y.holdOff ≠ none) →
    (s.svp.mode = .running → h ≤ s.tick →
      ∃ t, exec (.holdOffExpiry n) s = .next t ∧ (∀ m, m ≠ n → t.station m = s.station m) ∧
        t.station n = { s.station n with
          queue := front ++
            { x with
              state := .inFlight, holdOff := none, firstSent := none, delivered := false, body := s.txnBody x.kind
              handed := false } :: rest } ∧
        t = { s with hoe := { s.hoe with stations := t.hoe.stations }, svp := s.svpReported [], lines := Lines.quiet }) ∧
    (s.svp.mode = .loading ∨ (s.tick < h ∧ rest = []) → exec (.holdOffExpiry n) s = .next s.idled)) ∧
  (∀ (s : State) (k : Nat) (b : Broadcast), s.broadcast k = some b →
    let closed := { b with results := b.results.map (fun m => (m.1, some (m.2.getD .timeout))), done := true }
    (b.done = false → b.tick + 5000 ≤ s.tick →
      ∃ t, exec (.broadcastExpiry k) s = .next t ∧ t.broadcast k = some closed ∧
        (∀ j, j ≠ k → t.broadcast j = s.broadcast j) ∧
        (∀ n, 1 ≤ n → n ≤ 32 → t.station n = { s.station n with
          queue := (s.station n).queue.map (fun x => if x.broadcast = some k then { x with broadcast := none } else x) }) ∧
        t = { s with hoe := t.hoe, svp := s.svpReported [.broadcastDone closed closed.worst], lines := Lines.quiet }) ∧
    (b.done = true ∨ s.tick < b.tick + 5000 → exec (.broadcastExpiry k) s = .next s.idled)) ∧
  (∀ (s : State) (n : Nat) (m : StationMsg), s.svp.mode = .loading → s.stationEffect n m = (s, .notRunning, none)) ∧
  (∀ (s : State) (n tool place generation : Nat), s.svp.mode = .running →
    let m : StationMsg := .stored tool place generation
    let kind : TxnKind := .toolData tool place generation
    ((∀ x, s.inFlight n = some x → x.kind ≠ kind) → s.stationEffect n m = (s, .stale, none)) ∧
    (∀ x i, s.inFlight n = some x → x.kind = kind → s.tool tool = some i → (s.station n).Queued s.hoe.entries →
      let entry := tget (s.station n).magazine place
      let here := ∃ e, entry = some e ∧ e.tool = tool
      let destined := i.custody = .issued ∧ i.heldPlace = some (n, place)
      let ends := fun (state : TxnState) (code : TxnCode) (reply : StationCode) =>
        ∃ t rs, s.stationEffect n m = (t, reply, none) ∧ x ∉ (t.station n).queue ∧ t.trg.types = s.trg.types ∧
          (∀ k, t.tool k = s.tool k ∨ ∃ j o, s.tool k = some j ∧ t.tool k = some { j with owed := o }) ∧
          (t.station n).magazine = (s.station n).magazine ∧
          t = { s with
            hoe := t.hoe, trg := t.trg, svp := s.svp.handed s.now (.handoffResult n { x with state := state } code :: rs) }
      (generation < i.generation → ends .superseded .superseded .ok) ∧
      (i.generation ≤ generation → ¬ destined → ¬ here → ends .cancelled .cancelled .ok) ∧
      (i.generation ≤ generation → destined → entry ≠ none → ¬ here → ends .failed .refusedPlace .placeOccupied) ∧
      (i.generation ≤ generation → here ∨ (destined ∧ entry = none) →
        let verifies := i.custody = .issued ∧ i.loc = .station n place ∧ i.generation = generation ∧ s.typeHeld i.type = false
        let old := entry.getD { tool := tool, active := false, confirmed := none, spentNotice := false }
        ∃ t rs, s.stationEffect n m = (t, .ok, none) ∧ x ∉ (t.station n).queue ∧
          tget (t.station n).magazine place = some { old with
            confirmed := some generation, spentNotice := old.spentNotice || flagAt x.body 18 0
            active := old.active || decide verifies } ∧
          (verifies → (t.tool tool).map (fun j => (j.custody, j.loc, j.link)) = some (.loaded, .station n place, none)) ∧
          (¬ verifies → (∀ a b, i.loc = .station a b → a = n ∧ b = place) →
            (t.tool tool).map (fun j => (j.custody, j.loc, j.link)) = some (i.custody, i.loc, i.link)) ∧
          s.Raises t (.handoffResult n { x with state := .confirmed } .ok :: rs)))) ∧
  (∀ (s : State) (n tool place : Nat) (code : RefusedCode), s.svp.mode = .running →
    let m : StationMsg := .refused tool place code
    ((∀ x, s.inFlight n = some x → ∀ g, x.kind ≠ .toolData tool place g) → s.stationEffect n m = (s, .stale, none)) ∧
    (∀ x g, s.inFlight n = some x → x.kind = .toolData tool place g → (s.station n).Queued s.hoe.entries →
      let ends := fun (code : TxnCode) =>
        ∃ t rs, s.stationEffect n m = (t, .ok, none) ∧ x ∉ (t.station n).queue ∧
          s.Raises t (.handoffResult n { x with state := .failed } code :: rs)
      (code ≠ .programActive → ends .refusedPlace) ∧ (code = .programActive → 5 ≤ x.busyRetries → ends .refusedBusy) ∧
      (code = .programActive → x.busyRetries < 5 → (∀ y ∈ (s.station n).queue, y.kind.isDataOf tool = true → y = x) →
        ∃ t, s.stationEffect n m = (t, .ok, none) ∧ t = { s with hoe := t.hoe } ∧
          { x with
            state := .pending, busyRetries := x.busyRetries + 1, holdOff := some (s.tick + 2000), firstSent := none
            delivered := false, body := [], handed := false } ∈ (t.station n).queue ∧
          ((∀ y ∈ (s.station n).queue, y ≠ x → y.state = .pending ∧ ∃ h, y.holdOff = some h ∧ s.tick < h) →
            ∀ y ∈ (t.station n).queue, y.state = .pending)))) ∧
  (∀ (s : State) (n type : Nat), s.svp.mode = .running →
    let m : StationMsg := .holdAck type
    (type < 1 ∨ 512 < type → s.stationEffect n m = (s, .badType, none)) ∧
    (1 ≤ type → type ≤ 512 →
      ((∀ x, s.inFlight n = some x → x.kind.isNoticeOf type = false) → s.stationEffect n m = (s, .stale, none)) ∧
      (∀ x k, s.inFlight n = some x → x.kind = .notice k type → ((s.station n).queue.map (·.id)).Nodup →
        tableSorted (s.station n).unacked = true →
        ∃ t rs, s.stationEffect n m = (t, .ok, none) ∧ x ∉ (t.station n).queue ∧
          s.Raises t (.handoffResult n { x with state := .confirmed } .ok :: rs) ∧
          ((tget (s.station n).unacked type).map (·.kind) = some k → tget (t.station n).unacked type = none) ∧
          (∀ j b, x.broadcast = some j → s.broadcast j = some b → b.done = false → (n, none) ∈ b.results →
            let told := b.results.map (fun r => if r.1 = n ∧ r.2 = none then (r.1, some MemberCode.ok) else r)
            let done := decide (∀ r ∈ told, r.2 ≠ none)
            t.broadcast j = some { b with results := told, done := done } ∧
            (done = true → rs.head? = some (.broadcastDone { b with results := told, done := true }
              { b with results := told, done := true : Broadcast }.worst)))))) ∧
  (∀ (s : State) (n tool place : Nat), s.svp.mode = .running → tableSorted s.trg.insts = true →
    let m : StationMsg := .loaded tool place
    let placed := 1 ≤ place ∧ place ≤ (s.station n).places
    let entry := tget (s.station n).magazine place
    (¬ placed → s.stationEffect n m = (s, .placeRange, none)) ∧
    (placed → s.tool tool = none → s.stationEffect n m = (s, .unknownInstance, none)) ∧
    (∀ r, placed → s.tool tool = some r →
      (∀ e, entry = some e → e.tool ≠ tool → s.stationEffect n m = (s, .placeOccupied, none)) ∧
      ((∀ e, entry = some e → e.tool = tool) →
        let arrives := r.custody = .issued ∧ r.loc = .toStation n place ∧
          (∀ k i, k ≠ tool → s.tool k = some i → i.loc ≠ .station n place)
        let there := (r.custody = .loaded ∨ r.custody = .issued) ∧ r.loc = .station n place
        (there → s.stationEffect n m = (s, .ok, none)) ∧ (¬ there → ¬ arrives → s.stationEffect n m = (s, .wrongPlace, none)) ∧
        (arrives →
          let held := entry.getD { tool := tool, active := false, confirmed := none, spentNotice := false }
          let moved : Report := .custodyChange tool r.type (some .issued) r.loc (some .issued) (.station n place) .stationLoaded r.link
          let verified := held.confirmed = some r.generation ∧ s.typeHeld r.type = false
          let onWay := (∃ x ∈ (s.station n).queue, x.kind.isDataOf tool = true) ∨ r.owed = true ∨ s.typeHeld r.type = true
          (verified →
            ∃ t rs, s.stationEffect n m = (t, .ok, none) ∧
              (t.tool tool).map (fun j => (j.custody, j.loc, j.link)) = some (.loaded, .station n place, none) ∧
              tget (t.station n).magazine place = some { held with active := true } ∧
              s.Raises t (moved ::
                .custodyChange tool r.type (some .issued) (.station n place) (some .loaded) (.station n place) .verify none ::
                ((((r.link.bind s.request).map (fun q => Report.requestState { q with state := .delivered } .delivered)).toList) ++ rs)) ∧
              (r.warned = false → r.spent = false →
                rs = [] ∧ ∀ k q, r.link = some k → s.request k = some q → ∀ y ∈ t.isc.queue, y.number ≠ k)) ∧
          (¬ verified →
            ∃ t rs, s.stationEffect n m = (t, .ok, none) ∧ tget (t.station n).magazine place = some held ∧
              s.Raises t (moved :: rs) ∧ t.isc = s.isc ∧ t.psc = s.psc ∧ s.OthersStand t tool ∧
              (onWay → rs = [] ∧ t.tool tool = some { r with loc := .station n place, qcause := none } ∧
                (t.station n).queue = (s.station n).queue) ∧
              (¬ onWay → rs = [] ∧
                (((s.station n).queue.length < 16 ∧ t.tool tool = some { r with loc := .station n place, qcause := none } ∧
                    ((s.station n).Queued s.hoe.entries →
                      ∃ x ∈ (t.station n).queue, x.kind = .toolData tool place r.generation)) ∨
                  (16 ≤ (s.station n).queue.length ∧
                    t.tool tool = some { r with loc := .station n place, qcause := none, owed := true })))))))) ∧
  (∀ (s : State) (n tool place : Nat) (damaged : Bool), s.svp.mode = .running → tableSorted s.trg.insts = true →
    let m : StationMsg := .unloaded tool place damaged
    let placed := 1 ≤ place ∧ place ≤ (s.station n).places
    (¬ placed → s.stationEffect n m = (s, .placeRange, none)) ∧
    (placed → s.tool tool = none → s.stationEffect n m = (s, .unknownInstance, none)) ∧
    (∀ r, placed → s.tool tool = some r →
      let there := (r.custody = .loaded ∨ r.custody = .issued) ∧ r.loc = .station n place
      let back := r.custody = .returning ∧ r.loc = .backStation n
      (back → s.stationEffect n m = (s, .ok, none)) ∧ (¬ there → ¬ back → s.stationEffect n m = (s, .wrongPlace, none)) ∧
      (there → ((s.station n).queue.map (·.id)).Nodup →
        let worn := r.life = 0 ∧ ∃ t, s.type r.type = some t ∧ t.regrindLimit ≤ r.marks
        let came : Report := .custodyChange tool r.type (some r.custody) r.loc (some .returning) (.backStation n) .unloaded none
        let j : InstRec := { r with
          custody := .returning, loc := .backStation n, link := none, qcause := none, owed := false, last := some ⟨n, r.generation⟩ }
        ∃ t ended rs, s.stationEffect n m = (t, .ok, none) ∧ (∀ e ∈ (t.station n).magazine, e.2.tool ≠ tool) ∧
          (∀ x ∈ (t.station n).queue, x.state = .pending → x.kind.names tool = false) ∧
          (¬ worn → t.tool tool = some j ∧ (damaged = true → t.isDamaged tool = true)) ∧
          (worn → t.tool tool = some { j with custody := .retired, loc := .nowhere }) ∧
          (∀ y ∈ ended, ∃ k x code, y = Report.handoffResult k x code) ∧ s.Raises t (ended ++ came :: rs) ∧
          ((∀ x ∈ (s.station n).queue, x.kind.names tool = false) → ended = []) ∧
          (worn → r.custody = .loaded → rs.head? = some
            (.custodyChange tool r.type (some .returning) (.backStation n) (some .retired) .nowhere .spentAtLimit none)) ∧
          (∀ k q, r.custody = .issued → r.link = some k → s.request k = some q →
            .requestState { q with state := .cancelled } .instanceLost ∈ rs ∧ (∀ y ∈ t.isc.queue, y.number ≠ k))))) ∧
  (∀ (s : State) (n : Nat) (x : Txn), s.inFlight n = some x → ((s.station n).queue.map (·.id)).Nodup →
    (∀ y ∈ (s.station n).queue, y.broadcast = none) →
    (∀ y ∈ (s.station n).queue, y.state = .pending → ∀ k, (x.kind.isDataOf k = true → y.kind.isDataOf k = false) ∧
      (x.kind.isNoticeOf k = true → y.kind.isNoticeOf k = false)) →
    let others := (s.station n).queue.filter (fun y => decide (y.id ≠ x.id))
    let first := fun (y : Txn) => y.kind.firstClass
    let back := { x with state := .pending, firstSent := none, delivered := false, body := [], handed := false }
    (s.linkStopped n).station n = { s.station n with
      queue := if x.kind.firstClass = true then back :: others.filter first ++ others.filter (fun y => !first y)
        else others.filter first ++ back :: others.filter (fun y => !first y) } ∧
    s.linkStopped n = { s with hoe := (s.linkStopped n).hoe })

/-! ### Chapter 9: hall time -/

/-- R180, R182, R183: a SET_TIME takes effect at once in UNSET and FREE_RUN, with its report, the expiry test of a new second, and
in UNSET the path selection; in a locked state it is held pending. SET_CLOCK refuses a value out of range, moves both step deadlines
to a new tolerance, one already passed counting at once, and sets revertive. A change of revertive alone leads to the path
selection: where the state stands it is set and nothing is reported, where the state changes that is reported, and a change to
FREE_RUN makes a pending second take effect. The path selection follows its table. The model's choices: the expiry reports stand
between SET_TIME and the selection (log entry 41); a deadline that the new tolerance has passed is counted now and the next one
follows from now (log entry 32); the tolerance applies before revertive (log entry 66); requests that expire at one test are
reported in service order (log entry 82); a change to FREE_RUN is reported ahead of the pending SET_TIME that it settles (log entry
84). -/
def Obligations.TimeSettingsAndPathSelection : Prop :=
  (∀ (s : State) (tag : Byte) (body : List Byte), s.takesNow 0x48 tag body = true → (s.isc.queue.map (·.number)).Nodup →
      let v := fieldAt body 0 4
      let late := fun (r : Request) => decide (r.state = .queued ∨ r.state = .waitingStock) && decide (r.prio ≠ .urgent) &&
        (r.neededBy.any (fun b => decide (b + s.isc.expiryGrace < v)))
      let u := { s with hck := { s.hck with hall := ⟨v, 0⟩, setPending := none, lastDiscipline := none } }
      let isc := { s.isc with queue := s.isc.queue.filter (fun r => !late r) }
      let ended : List Report := (s.isc.queue.filter late).map (fun r => .requestState { r with state := .expired } .expired)
      let moved : Report := .timeState s.hck.state s.hck.state s.hck.primary.status s.hck.secondary.status
        (some ((v : Int) * 1000 - ((s.hck.hall.sec : Int) * 1000 + s.hck.hall.ms))) .setTime
      let locked : TimeState := if s.hck.primary.status = .usable then .lockedPrimary
        else if s.hck.secondary.status = .usable then .lockedSecondary else .freeRun
      (s.hck.state = .lockedPrimary ∨ s.hck.state = .lockedSecondary →
        exec (.setTime tag body) s = .next
          { s with
            hck := { s.hck with setPending := some v }
            svp := s.svpAnswered 0x48 tag body [] (.plain .accepted), lines := Lines.quiet }) ∧
      (s.hck.state = .freeRun →
        exec (.setTime tag body) s = .next
          { u with isc := isc, svp := u.svpAnswered 0x48 tag body (moved :: ended) (.plain .ok), lines := Lines.quiet }) ∧
      (s.hck.state = .unset →
        exec (.setTime tag body) s = .next
          { u with
            isc := isc, hck := { u.hck with state := locked, shiftOwed := decide (locked ≠ .freeRun) }, lines := Lines.quiet
            svp := u.svpAnswered 0x48 tag body
              (moved :: ended ++
                [.timeState .unset locked s.hck.primary.status s.hck.secondary.status none .state]) (.plain .ok) })) ∧
  (∀ (s : State) (tag : Byte) (body : List Byte), s.takesNow 0x49 tag body = true →
      let tol := fieldAt body 1 1
      let revertive := fieldAt body 2 1
      let gives := flagAt body 0 0
      let turns := flagAt body 0 1
      let next := fun (l : PulseLine) => (s.path l).base + 1000 + tol + 1
      ((gives = true ∧ ¬ (1 ≤ tol ∧ tol ≤ 20)) ∨ (turns = true ∧ 1 < revertive) →
        exec (.setClock tag body) s = .next (s.answered 0x49 tag body (.plain .range))) ∧
      (gives = false → turns = false → exec (.setClock tag body) s = .next (s.answered 0x49 tag body (.plain .ok))) ∧
      (gives = true → 1 ≤ tol → tol ≤ 20 → (turns = true → revertive ≤ 1) →
        (∃ t, exec (.setClock tag body) s = .next t ∧ t.hck.tol = tol ∧ t.hck.tick = s.hck.tick ∧
          t.hck.revertive = (if turns = true then decide (revertive = 1) else s.hck.revertive) ∧
          (∀ l, t.path l = if next l ≤ s.tick then (s.path l).missed tol s.tick else { s.path l with deadline := next l }) ∧
          t = { s with hck := t.hck, isc := t.isc, svp := t.svp, lines := Lines.quiet }) ∧
        (turns = false → (∀ l, s.tick < next l) →
          exec (.setClock tag body) s = .next
            { s with
              hck := { s.hck with
                tol := tol, primary := { s.hck.primary with deadline := next .primary }
                secondary := { s.hck.secondary with deadline := next .secondary } }
              svp := s.svpAnswered 0x49 tag body [] (.plain .ok), lines := Lines.quiet })) ∧
      (gives = false → turns = true →
        (revertive = 1 → s.hck.revertive = false → s.hck.state = .lockedSecondary → s.hck.primary.status = .usable →
          exec (.setClock tag body) s = .next
            { s with
              hck := { s.hck with revertive := true, state := .lockedPrimary, shiftOwed := true }
              svp := s.svpAnswered 0x49 tag body
                [.timeState .lockedSecondary .lockedPrimary .usable s.hck.secondary.status none .state] (.plain .ok)
              lines := Lines.quiet }) ∧
        (revertive = 0 →
          (s.hck.state = .unset ∨ (s.hck.state = .lockedPrimary ∧ s.hck.primary.status = .usable) ∨
            (s.hck.state = .lockedSecondary ∧ s.hck.secondary.status = .usable) ∨
            (s.hck.state = .freeRun ∧ s.hck.primary.status ≠ .usable ∧ s.hck.secondary.status ≠ .usable)) →
          exec (.setClock tag body) s = .next
            { s with
              hck := { s.hck with revertive := false }, svp := s.svpAnswered 0x49 tag body [] (.plain .ok)
              lines := Lines.quiet })) ∧
      (gives = false → turns = true → revertive ≤ 1 →
        let set := decide (revertive = 1)
        let after := if s.hck.state = .unset ∨ set = s.hck.revertive then s.hck.state
          else selectPath s.hck.state (decide (s.hck.primary.status = .usable)) (decide (s.hck.secondary.status = .usable)) set
        (after = s.hck.state →
          exec (.setClock tag body) s = .next
            { s with
              hck := { s.hck with revertive := set }, svp := s.svpAnswered 0x49 tag body [] (.plain .ok), lines := Lines.quiet }) ∧
        (after ≠ s.hck.state → (after = .freeRun → s.hck.setPending = none) →
          exec (.setClock tag body) s = .next
            { s with
              hck := { s.hck with revertive := set, state := after, shiftOwed := decide (after ≠ .freeRun) }
              svp := s.svpAnswered 0x49 tag body
                [.timeState s.hck.state after s.hck.primary.status s.hck.secondary.status none .state] (.plain .ok)
              lines := Lines.quiet }) ∧
        (∀ v, after ≠ s.hck.state → after = .freeRun → s.hck.setPending = some v →
          let told := fun (before : TimeState) (diff : Option Int) (cause : TimeCause) =>
            Report.timeState before .freeRun s.hck.primary.status s.hck.secondary.status diff cause
          let diff : Int := (v : Int) * 1000 - ((s.hck.hall.sec : Int) * 1000 + s.hck.hall.ms)
          ∃ t rs, exec (.setClock tag body) s = .next t ∧
            t.hck = { s.hck with
              revertive := set, state := .freeRun, shiftOwed := false, hall := ⟨v, 0⟩, setPending := none
              lastDiscipline := none } ∧
            t.svp = (((((s.bringIn ⟨0x49, tag, body⟩).svp.report s.now (told s.hck.state none .state)).handed ⟨v, 0⟩
              (told .freeRun (some diff) .setTime :: rs)).makeReply (.plain .ok))).startTx ∧
            t = { s with hck := t.hck, isc := t.isc, svp := t.svp, lines := Lines.quiet }))) ∧
  (∀ (primary secondary revertive : Bool),
      (∀ before, before = .unset ∨ before = .freeRun ∨ before = .lockedPrimary →
        selectPath before primary secondary revertive =
          if primary = true then .lockedPrimary else if secondary = true then .lockedSecondary else .freeRun) ∧
      selectPath .lockedSecondary primary secondary revertive =
        if primary = true ∧ revertive = true then .lockedPrimary
        else if secondary = true then .lockedSecondary
        else if primary = true then .lockedPrimary else .freeRun)

/-- R178, R179, R181: a pulse after none is a reference alone; after a reference its step is judged by the tolerance and counted; a
change of status is reported and the path is selected anew; a valid pulse on the selected path rounds hall time to the nearest
second, or begins a pending one, with the report of a lock's first shift. The model's choices: the shift's report, SET_TIME and the
expiries come in this order (log entry 33), requests that expire at one test in service order (log entry 82), and a shift owed
carries the whole move to a pending second (log entry 41). -/
def Obligations.PulseIsJudgedAndDisciplines : Prop :=
  ∀ (s : State) (l : PulseLine), (s.isc.queue.map (·.number)).Nodup →
    let p := s.path l
    let tol : Int := s.hck.tol
    let based := fun (q : Path) =>
      { q with reference := some (s.tick : Int), base := s.tick, deadline := s.tick + 1000 + tol + 1 }
    let withPath : Path → Hck := fun q =>
      match l with
      | .primary => { s.hck with primary := q }
      | .secondary => { s.hck with secondary := q }
    let follows := (s.hck.state = .lockedPrimary ∧ l = .primary) ∨ (s.hck.state = .lockedSecondary ∧ l = .secondary)
    (p.reference = none →
      exec (.ppsPulse l) s = .next { s with hck := withPath (based p), svp := s.svpReported [], lines := Lines.quiet }) ∧
    (∀ r, p.reference = some r →
      let length : Int := s.tick - r
      let valid : Bool := decide (1000 - tol ≤ length ∧ length ≤ 1000 + tol)
      let validRun := if valid = true then min (p.validRun + 1) 8 else 0
      let invalidRun := if valid = true then 0 else min (p.invalidRun + 1) 3
      let status : PathStatus :=
        if p.status = .qualifying ∧ 2 ≤ validRun then .usable
        else if p.status = .usable ∧ 3 ≤ invalidRun then .lost
        else if p.status = .lost ∧ 8 ≤ validRun then .usable
        else p.status
      let h := withPath (based { p with
        lastStep := some (.measured length valid), validRun := validRun, invalidRun := invalidRun, status := status })
      let told := fun (after : TimeState) (diff : Option Int) (cause : TimeCause) =>
        Report.timeState s.hck.state after h.primary.status h.secondary.status diff cause
      let late := fun (second : Nat) (r : Request) => decide (r.state = .queued ∨ r.state = .waitingStock) &&
        decide (r.prio ≠ .urgent) && (r.neededBy.any (fun b => decide (b + s.isc.expiryGrace < second)))
      let ended := fun (second : Nat) =>
        (s.isc.queue.filter (late second)).map (fun r => Report.requestState { r with state := .expired } .expired)
      let kept := fun (second : Nat) => { s.isc with queue := s.isc.queue.filter (fun r => !(late second r)) }
      let hall := s.hck.hall
      let nearest : HallTime := if hall.ms < 500 then ⟨hall.sec, 0⟩ else ⟨(hall.sec + 1) % 4294967296, 0⟩
      let shift : Int := if hall.ms < 500 then -(hall.ms : Int) else 1000 - hall.ms
      (status = p.status → ¬ (valid = true ∧ follows) →
        exec (.ppsPulse l) s = .next { s with hck := h, svp := s.svpReported [], lines := Lines.quiet }) ∧
      (status = p.status → valid = true → follows → s.hck.setPending = none →
        let u := { s with hck := { h with hall := nearest, lastDiscipline := some (s.tick : Int), shiftOwed := false } }
        let first := if s.hck.shiftOwed = true then [told s.hck.state (some shift) .path] else []
        (hall.ms < 500 →
          exec (.ppsPulse l) s = .next { u with svp := u.svpReported first, lines := Lines.quiet }) ∧
        (500 ≤ hall.ms →
          exec (.ppsPulse l) s = .next
            { u with
              isc := kept nearest.sec, svp := u.svpReported (first ++ ended nearest.sec), lines := Lines.quiet })) ∧
      (∀ v, status = p.status → valid = true → follows → s.hck.setPending = some v →
        let u := { s with hck := { h with
          hall := ⟨v, 0⟩, setPending := none, lastDiscipline := some (s.tick : Int), shiftOwed := false } }
        let diff : Int := (v : Int) * 1000 - ((hall.sec : Int) * 1000 + hall.ms)
        let first := if s.hck.shiftOwed = true then [told s.hck.state (some diff) .path] else []
        exec (.ppsPulse l) s = .next
          { u with
            isc := kept v, svp := u.svpReported (first ++ told s.hck.state (some diff) .setTime :: ended v)
            lines := Lines.quiet }) ∧
      (status ≠ p.status → s.hck.state = .unset →
        exec (.ppsPulse l) s = .next
          { s with hck := h, svp := s.svpReported [told .unset none .path], lines := Lines.quiet }) ∧
      (status ≠ p.status → s.hck.state ≠ .unset →
        let after := selectPath s.hck.state (decide (h.primary.status = .usable)) (decide (h.secondary.status = .usable))
          s.hck.revertive
        let then_ := (after = .lockedPrimary ∧ l = .primary) ∨ (after = .lockedSecondary ∧ l = .secondary)
        let owed := if after = s.hck.state then s.hck.shiftOwed else decide (after ≠ .freeRun)
        (∃ t, exec (.ppsPulse l) s = .next t ∧ t.hck.state = after ∧ t.hck.primary = h.primary ∧
          t.hck.secondary = h.secondary ∧ t = { s with hck := t.hck, isc := t.isc, svp := t.svp, lines := Lines.quiet }) ∧
        (¬ (valid = true ∧ then_) → (after = .freeRun → s.hck.state = .freeRun ∨ s.hck.setPending = none) →
          exec (.ppsPulse l) s = .next
            { s with
              hck := { h with state := after, shiftOwed := owed }, svp := s.svpReported [told after none .path]
              lines := Lines.quiet }) ∧
        (valid = true → then_ → after ≠ s.hck.state → s.hck.setPending = none → hall.ms < 500 →
          exec (.ppsPulse l) s = .next
            { s with
              hck := { h with state := after, shiftOwed := false, hall := nearest, lastDiscipline := some (s.tick : Int) }
              svp := ((s.svp.report hall (told after none .path)).report nearest
                (.timeState after after h.primary.status h.secondary.status (some shift) .path)).startTx
              lines := Lines.quiet })))

/-- R178 to R182: a step deadline counts a missing step and clears the reference; the third invalid step in a row loses a USABLE
path, which is reported and selects the path anew; a change to FREE_RUN makes a pending second take effect. The model's choice: a
deadline not reached changes nothing (log entry 3). -/
def Obligations.StepDeadlineCountsMissing : Prop :=
  ∀ (s : State) (l : PulseLine),
    let p := s.path l
    let withPath : Path → Hck := fun q =>
      match l with
      | .primary => { s.hck with primary := q }
      | .secondary => { s.hck with secondary := q }
    let invalidRun := min (p.invalidRun + 1) 3
    let lost := p.status = .usable ∧ 3 ≤ invalidRun
    let status : PathStatus := if p.status = .usable ∧ 3 ≤ invalidRun then .lost else p.status
    let h := withPath
      { p with
        lastStep := some .missing, validRun := 0, invalidRun := invalidRun, status := status, reference := none, base := s.tick
        deadline := s.tick + 1000 + s.hck.tol + 1 }
    let after := selectPath s.hck.state (decide (h.primary.status = .usable)) (decide (h.secondary.status = .usable))
      s.hck.revertive
    (s.tick < p.deadline → exec (.stepDeadline l) s = .next s.idled) ∧
    (p.deadline ≤ s.tick →
      (¬ lost →
        exec (.stepDeadline l) s = .next { s with hck := h, svp := s.svpReported [], lines := Lines.quiet }) ∧
      (lost → s.hck.state = .unset →
        exec (.stepDeadline l) s = .next
          { s with
            hck := h, lines := Lines.quiet
            svp := s.svpReported [.timeState .unset .unset h.primary.status h.secondary.status none .path] }) ∧
      (lost → s.hck.state ≠ .unset → (after = .freeRun → s.hck.state = .freeRun ∨ s.hck.setPending = none) →
        exec (.stepDeadline l) s = .next
          { s with
            hck := { h with
              state := after
              shiftOwed := if after = s.hck.state then s.hck.shiftOwed else decide (after ≠ .freeRun) }
            svp := s.svpReported [.timeState s.hck.state after h.primary.status h.secondary.status none .path]
            lines := Lines.quiet }) ∧
      (∀ v, lost → s.hck.state ≠ .unset → after = .freeRun → s.hck.state ≠ .freeRun → s.hck.setPending = some v →
        ∃ t, exec (.stepDeadline l) s = .next t ∧
          t.hck = { h with
            state := .freeRun, shiftOwed := false, hall := ⟨v, 0⟩, setPending := none, lastDiscipline := none } ∧
          t = { s with hck := t.hck, isc := t.isc, svp := t.svp, lines := Lines.quiet }))

/-! ### Chapters 10 and 11: the port, the frames and the machine as a whole -/

/-- The model's choice (log entry 5): a step takes the command at the front of the queue and is that command's effect on the state
with the queue's rest. -/
def Obligations.StepTakesFrontCommand : Prop :=
  ∀ (s : State) (c : Instr) (rest : List Instr), s.pending = c :: rest → step s = exec c { s with pending := rest }

/-- R176, R177 and the model's choice (log entries 1, 2): on an empty queue the next frame of the receive buffer is taken; with
none, the ACQUIRE_TIMEOUT of the lowest link whose acquisition count has run out joins the queue; with none of these, one
millisecond passes on the tick count and on hall time, nothing else changes, and of the events of the part's own timers exactly
those that have come wait in the queue. The block train of every link runs from tick 0, and the eight periods of OUTSTANDING_TIMEOUT
and ECHO_HELD_TIMEOUT are counted in blocks sent (log entry 26). The age of a zero lapses above its zero tick plus its life (log
entry 15). The tick count counts on above its range of 2^48 − 1 (log entry 92). -/
def Obligations.EmptyQueueLetsTimePass : Prop :=
  ∀ (s : State), s.pending = [] →
    (∀ f rest, s.svp.resetting = false → s.svp.untaken = f :: rest → step s = exec (commandOf f.kind f.tag f.body) s) ∧
    (s.svp.resetting = true ∨ s.svp.untaken = [] →
      let spent := fun (n : Nat) => (s.link n).state = .acquiring ∧ 200 ≤ (s.link n).acqCount ∧ (s.link n).acqRun < 8
      (∀ n, 1 ≤ n → n ≤ 32 → spent n → (∀ m, 1 ≤ m → m < n → ¬ spent m) →
        step s = .next { s with pending := [.acquireTimeout n] }) ∧
      ((∀ n, 1 ≤ n → n ≤ 32 → ¬ spent n) →
        let now := s.tick + 1
        ∃ t, step s = .next t ∧
          t = { s with
            pending := t.pending, lines := Lines.quiet
            hck := { s.hck with
              tick := now
              hall := if s.hck.hall.ms + 1 < 1000 then { s.hck.hall with ms := s.hck.hall.ms + 1 }
                else ⟨(s.hck.hall.sec + 1) % 4294967296, 0⟩ } } ∧
          (Instr.frameByteTimeout ∈ t.pending ↔ s.svp.rx ≠ [] ∧ s.svp.rxTick + 10 < now) ∧
          (∀ h, Instr.headFrameByteTimeout h ∈ t.pending ↔ (s.head h).rx ≠ [] ∧ (s.head h).rxTick + 10 < now) ∧
          (Instr.hallSecond ∈ t.pending ↔ t.hck.hall.sec ≠ s.hck.hall.sec) ∧
          (∀ l, Instr.stepDeadline l ∈ t.pending ↔ (s.path l).deadline ≤ now) ∧
          (∀ c, Instr.scanInterval c ∈ t.pending ↔ 1 ≤ c ∧ c ≤ 12 ∧ ∃ b, (s.cab c).boundary = some b ∧ b ≤ now) ∧
          (∀ k, Instr.pickTimeout k ∈ t.pending ↔ ∃ r ∈ s.isc.queue, r.number = k ∧ r.state = .reserved ∧
            ∃ b, r.reserveTick = some b ∧ b + s.isc.pickTimeout * 1000 ≤ now) ∧
          (∀ c p, Instr.latePickEnd c p ∈ t.pending ↔ 1 ≤ p ∧ p ≤ 64 ∧
            ∃ m, tget s.isc.latePicks (pocketKey c p) = some m ∧ m.endTick ≤ now) ∧
          (∀ n, Instr.putawayTimeout n ∈ t.pending ↔
            ∃ a, (n, a) ∈ s.isc.assigned ∧ a.tick + s.isc.putawayTimeout * 1000 ≤ now) ∧
          (∀ h, Instr.headSilence h ∈ t.pending ↔ (s.head h).line ≠ .silent ∧
            ∃ b, (s.head h).lastFrame = some b ∧ b + 2000 ≤ now) ∧
          (∀ h, Instr.zeroAgeLapse h ∈ t.pending ↔ (s.head h).zeroOk = true ∧
            ∀ z, (s.head h).zero = some z → z.tick + (s.head h).settings.zeroLife * 3600000 < now) ∧
          (∀ n, Instr.linkSilence n ∈ t.pending ↔ 1 ≤ n ∧ n ≤ 32 ∧ (s.link n).state ≠ .down ∧
            ∃ b, (s.link n).lastByte = some b ∧ b + 100 ≤ now) ∧
          (∀ n, Instr.handoffTimeout n ∈ t.pending ↔ 1 ≤ n ∧ n ≤ 32 ∧
            ∃ x b, s.inFlight n = some x ∧ x.firstSent = some b ∧ b + 2000 ≤ now) ∧
          (∀ n, Instr.holdOffExpiry n ∈ t.pending ↔ 1 ≤ n ∧ n ≤ 32 ∧ s.svp.mode = .running ∧
            (s.link n).state.running = true ∧ s.inFlight n = none ∧
            ∃ x, (s.station n).queue.find? (fun y => decide (y.state = .pending) && y.holdOff.all (fun b => decide (b ≤ now))) =
              some x ∧ x.holdOff ≠ none) ∧
          (∀ k, Instr.broadcastExpiry k ∈ t.pending ↔
            ∃ b, some b ∈ s.hoe.broadcasts ∧ b.number = k ∧ b.done = false ∧ b.tick + 5000 ≤ now) ∧
          (∀ n, Instr.blockPeriod n ∈ t.pending ↔ 1 ≤ n ∧ n ≤ 32 ∧ now % 4 = 0) ∧
          (∀ n, Instr.outstandingTimeout n ∈ t.pending ↔ 1 ≤ n ∧ n ≤ 32 ∧ now % 4 = 0 ∧ ((s.link n).period + 1) * 4 ≤ now ∧
            ∃ e ∈ (s.link n).outstanding, e.resend = false ∧ e.sent + 8 ≤ (s.link n).period) ∧
          (∀ n, Instr.echoHeldTimeout n ∈ t.pending ↔ 1 ≤ n ∧ n ≤ 32 ∧ now % 4 = 0 ∧ ((s.link n).period + 1) * 4 ≤ now ∧
            (s.link n).state = .echo ∧ ∃ b p, (s.link n).held = some b ∧ b.echoed = some p ∧ p + 8 ≤ (s.link n).period) ∧
          (∀ n, Instr.acquireTimeout n ∉ t.pending)))

/-- R27, R28, R46, R76, R96, R134, R153, R175, R187, R202, R203: power-on leaves every block at its reset values and the rate of the
straps; RESET_N, and the last byte of the reply to RESET, do the same but for the rate and what HCK keeps; RESET itself changes
nothing but that no further command is taken. The model's choices: RESET takes effect with the FRAME_SENT, or the RESET_EFFECT, of
that reply, and RESET_EFFECT does nothing while anything else is sent (log entry 6); what HCK keeps is kept as the same times on the
new tick count, and a shift owed stays owed (log entry 36). -/
def Obligations.ResetsReturnToPowerOn : Prop :=
  let emptied := fun (s t : State) =>
    t.pending = s.pending ∧ t.trg = { types := [], insts := [] } ∧ (∀ c p, t.pocket c p = Pocket.reset) ∧
    (∀ c, t.cab c = Cabinet.reset) ∧ t.isc = Isc.reset ∧ t.msu = { a := Head.reset, b := Head.reset } ∧
    (∀ n, t.link n = Link.reset) ∧ (∀ n, t.station n = Station.reset) ∧ (∀ g, t.group g = []) ∧
    t.hoe.broadcasts = [none, none, none, none] ∧ t.hoe.nextBroadcast = 1 ∧ t.hoe.nextTxn = 1
  let rebased := fun (p : Path) (tick : Nat) =>
    { p with
      reference := p.reference.map (fun r => r - (tick : Int)), deadline := p.deadline - tick, base := p.base - tick }
  let kept := fun (h : Hck) =>
    { h with
      tick := 0, setPending := none, primary := rebased h.primary h.tick, secondary := rebased h.secondary h.tick
      lastDiscipline := h.lastDiscipline.map (fun t => t - (h.tick : Int)) }
  (∀ (s : State) (b1 b0 : Bool), ∃ t, exec (.powerOn b1 b0) s = .next t ∧ emptied s t ∧ t.lines = Lines.quiet ∧
    t.hck = Hck.powerOn ∧
    t.svp = Svp.powerOn (if b1 = true then (if b0 = true then 921600 else 460800)
      else (if b0 = true then 230400 else 115200))) ∧
  (∀ (s : State), ∃ t, exec .resetN s = .next t ∧ emptied s t ∧ t.svp = Svp.powerOn s.svp.rate ∧ t.hck = kept s.hck ∧
    t.lines = Lines.quiet) ∧
  (∀ (s : State),
    let sendsResetReply := s.svp.resetting = true ∧ ∃ front back f r stamp part parts,
      s.svp.tx = some { item := .reply stamp, part := part, parts := parts } ∧ parts ≤ part ∧ f.kind = 0x51 ∧ r.code = .ok ∧
      s.svp.buffer = front ++ { frame := f, reply := some (stamp, r) } :: back ∧ ∀ e ∈ front, ∀ m, e.reply ≠ some (stamp, m)
    (sendsResetReply → exec .resetEffect s = exec .frameSent s) ∧
    (¬ sendsResetReply → exec .resetEffect s = .next s.idled)) ∧
  (∀ (s : State) (tag : Byte), s.takesNow 0x51 tag [] = true →
    exec (.reset tag []) s = .next
      { s with svp := { s.svpAnswered 0x51 tag [] [] (.plain .ok) with resetting := true }, lines := Lines.quiet }) ∧
  (∀ (s : State) (front back : List BufEntry) (f : HostFrame) (r : Reply) (stamp part : Nat),
    s.svp.resetting = true → f.kind = 0x51 → r.code = .ok → s.svp.tx = some { item := .reply stamp, part := part, parts := part } →
    s.svp.buffer = front ++ { frame := f, reply := some (stamp, r) } :: back →
    (∀ e ∈ front, ∀ m, e.reply ≠ some (stamp, m)) →
    ∃ t, exec .frameSent s = .next t ∧ emptied s t ∧ t.svp = Svp.powerOn s.svp.rate ∧ t.hck = kept s.hck ∧
      t.lines = { headA := [], headB := [], sv := some (.reply f.tag f.kind r part part)
                  svBytes := (SentFrame.reply f.tag f.kind r part part).frame.bytes })

/-- R189, R190: the bytes of a frame, received in HUNT, put it whole into the buffer; a frame with a wrong check or a length out of
range is discarded and counted, its bytes hunted through; a byte that starts no frame is dropped; bytes that stop for more than 10
ms are discarded and counted. The model's choice: FRAME_BYTE_TIMEOUT before its time does nothing (log entry 3). -/
def Obligations.SupervisoryBytesAreFramed : Prop :=
  (∀ (s : State) (f : HostFrame), s.svp.rx = [] → f.body.length ≤ 250 → s.svp.buffer.length < 4 →
    exec (.supervisoryFrame f.bytes) s = .next
      { s with
        svp := ({ s.svp with
          buffer := s.svp.buffer ++ [{ frame := f, reply := none }], rxTick := s.tick } : Svp).startTx
        lines := Lines.quiet }) ∧
  (∀ (s : State) (kind tag x y : Byte) (body : List Byte), s.svp.rx = [] → body.length ≤ 250 →
    let inner := bytesOf 2 (body.length + 2) ++ [kind, tag] ++ body
    [x, y] ≠ checkBytes inner → (∀ b ∈ inner ++ [x, y], b ≠ 0xA5) →
    exec (.supervisoryFrame ([0xA5] ++ inner ++ [x, y])) s = .next
      { s with
        svp := ({ s.svp with rxTick := s.tick, discards := min (s.svp.discards + 1) 65535 } : Svp).startTx
        lines := Lines.quiet }) ∧
  (∀ (s : State) (x y : Byte), s.svp.rx = [] → x ≠ 0xA5 → y ≠ 0xA5 → numberOf [x, y] < 2 ∨ 252 < numberOf [x, y] →
    exec (.supervisoryFrame [0xA5, x, y]) s = .next
      { s with
        svp := ({ s.svp with rxTick := s.tick, discards := min (s.svp.discards + 1) 65535 } : Svp).startTx
        lines := Lines.quiet }) ∧
  (∀ (s : State) (x : Byte), s.svp.rx = [] → x ≠ 0xA5 →
    exec (.supervisoryFrame [x]) s = .next
      { s with svp := ({ s.svp with rxTick := s.tick } : Svp).startTx, lines := Lines.quiet }) ∧
  (∀ (s : State),
    (s.svp.rx ≠ [] → s.svp.rxTick + 10 < s.tick →
      exec .frameByteTimeout s = .next
        { s with
          svp := ({ s.svp with rx := [], discards := min (s.svp.discards + 1) 65535 } : Svp).startTx
          lines := Lines.quiet }) ∧
    (s.svp.rx = [] ∨ s.tick ≤ s.svp.rxTick + 10 → exec .frameByteTimeout s = .next s.idled))

/-- R190, R191, R195: a taken frame of an unknown kind is answered UNKNOWN_KIND, one whose body does not fit its kind BAD_LENGTH,
and a command outside its mode NOT_IN_MODE, each with no other effect; a frame that is not the next to be taken joins the buffer, or
is refused BUSY, or is discarded and counted. The model's choice: a command's row is its frame received whole (log entry 4). -/
def Obligations.FramesAreCheckedInOrder : Prop :=
  ∀ (s : State) (kind tag : Byte) (body : List Byte),
    let f : HostFrame := { kind := kind, tag := tag, body := body }
    let taken := (s.bringIn f).svp.takes f
    let sends := fun (v : Svp) => exec (commandOf kind tag body) s = .next { s with svp := v.startTx, lines := Lines.quiet }
    (taken = true → bodyLength kind body = none →
      exec (commandOf kind tag body) s = .next (s.answered kind tag body (.plain .unknownKind))) ∧
    (∀ n, taken = true → bodyLength kind body = some n → body.length ≠ n →
      exec (commandOf kind tag body) s = .next (s.answered kind tag body (.plain .badLength))) ∧
    (s.takesNow kind tag body = true →
      (s.svp.mode = .loading ∧
          kind.toNat ∈ [0x14, 0x18, 0x19, 0x1A, 0x1B, 0x2A, 0x2B, 0x2C, 0x2D, 0x30, 0x31, 0x42, 0x43, 0x44]) ∨
        (s.svp.mode = .running ∧ kind.toNat ∈ [0x09, 0x50]) →
      exec (commandOf kind tag body) s = .next (s.answered kind tag body (.plain .notInMode))) ∧
    (s.svp.untaken.head? ≠ some f →
      (s.svp.buffer.length < 4 → s.svp.untaken ≠ [] ∨ s.svp.resetting = true →
        sends { s.svp with buffer := s.svp.buffer ++ [{ frame := f, reply := none }] }) ∧
      (4 ≤ s.svp.buffer.length → s.svp.busy = none →
        sends { s.svp with
          busy := some { kind := kind, tag := tag, stamp := s.svp.stamp }, stamp := s.svp.stamp + 1
          refusals := min (s.svp.refusals + 1) 65535 }) ∧
      (∀ b, 4 ≤ s.svp.buffer.length → s.svp.busy = some b →
        sends { s.svp with drops := min (s.svp.drops + 1) 65535 }))

/-- R196, R197, R192, R189, R205: a report of a kind not enabled is lost, one that meets a full queue is discarded and counted, any
other is queued with the count of those lost before it; a free transmitter takes the waiting frame made earliest, and the frame it
has sent leaves its place, part by part, its bytes on the line as 11.2 and 11.3 lay them out: start, length, kind REPLY 80h or
REPORT 81h, tag, body and check, with the codes of replies, custody changes and requests. The model's choices: FRAME_SENT with
nothing being sent does nothing (log entry 3), data and report bodies without a layout are free (log entry 8), and the origin
station of a request of SUPERVISOR or AUTO and the place of one for BENCH are sent as 0 (log entry 90). -/
def Obligations.ReportsAndRepliesAreSent : Prop :=
  (∀ (v : Svp) (time : HallTime) (r : Report),
    v.report time r =
      if v.enable.testBit (r.kind - 1) = false then v
      else if 32 ≤ v.reports.length then { v with lost := min (v.lost + 1) 65535 }
      else
        { v with
          reports := v.reports ++ [{ report := r, overrun := v.lost, time := time, stamp := v.stamp }], lost := 0
          stamp := v.stamp + 1 }) ∧
  (∀ (v : Svp), v.tx = none →
    (v.startTx = { v with tx := v.startTx.tx } ∧ (v.startTx.tx = none ↔ v.waitingFrames = [])) ∧
    (∀ x, v.startTx.tx = some x → ∃ e ∈ v.waitingFrames, e.2 = x ∧ ∀ w ∈ v.waitingFrames, e.1 ≤ w.1)) ∧
  (∀ (s : State),
    let bytes := fun (kind tag : Byte) (body : List Byte) =>
      let inner := bytesOf 2 (body.length + 2) ++ [kind, tag] ++ body
      [0xA5] ++ inner ++ bytesOf 2 (crc16 inner).toNat
    let sent := fun (v : Svp) (f : SentFrame) (line : List Byte) =>
      exec .frameSent s = .next { s with svp := v.startTx, lines := { headA := [], headB := [], sv := some f, svBytes := line } }
    let replied := fun (f : HostFrame) (r : Reply) (part parts : Nat) =>
      bytes 0x80 f.tag ([f.kind] ++ bytesOf 1 r.code.code ++ [if part = parts then 2 else 0] ++ bytesOf 1 part ++
        ((r.data.bytes f.kind).drop (246 * (part - 1))).take 246)
    (s.svp.tx = none → exec .frameSent s = .next s.idled) ∧
    (∀ front back f r stamp part parts, s.svp.tx = some { item := .reply stamp, part := part, parts := parts } →
      s.svp.buffer = front ++ { frame := f, reply := some (stamp, r) } :: back →
      (∀ e ∈ front ++ back, ∀ m, e.reply ≠ some (stamp, m)) →
      (part < parts →
        sent { s.svp with tx := some { item := .reply stamp, part := part + 1, parts := parts } }
          (.reply f.tag f.kind r part parts) (replied f r part parts)) ∧
      (parts ≤ part → ¬ (s.svp.resetting = true ∧ f.kind = 0x51 ∧ r.code = .ok) →
        sent { s.svp with tx := none, buffer := front ++ back } (.reply f.tag f.kind r part parts) (replied f r part parts))) ∧
    (∀ b part parts, s.svp.tx = some { item := .busy, part := part, parts := parts } → s.svp.busy = some b →
      sent { s.svp with tx := none, busy := none } (.busy b.tag b.kind) (bytes 0x80 b.tag [b.kind, 9, 3, 1])) ∧
    (∀ q rest part parts, s.svp.tx = some { item := .report q.stamp, part := part, parts := parts } →
      s.svp.reports = q :: rest → sent { s.svp with tx := none, reports := rest } (.report q)
        (bytes 0x81 0 (bytesOf 1 q.report.kind ++ bytesOf 2 q.overrun ++ bytesOf 4 q.time.sec ++ bytesOf 2 q.time.ms ++
          q.report.bytes)))) ∧
  (∀ (kind : Byte),
    ReplyData.nothing.bytes kind = [] ∧ (∀ h, (ReplyData.handle h).bytes kind = bytesOf 2 h) ∧
    (∀ n merged, (((ReplyData.requestHandle n merged).bytes kind).take 2) = bytesOf 2 n) ∧
    (∀ n r, (ReplyData.typeRec n r).bytes kind = typeBytes n r) ∧ (∀ n r, (ReplyData.instRec n r).bytes kind = instBytes n r) ∧
    (∀ d : ReplyData, d.oneBody = true → (d.bytes kind).length ≤ 246)) ∧
  (∀ (tool type : Nat) (before after : Option Custody) (locBefore locAfter : Location) (cause : Cause) (link : Option Nat),
    (Report.custodyChange tool type before locBefore after locAfter cause link).bytes =
      bytesOf 2 tool ++ bytesOf 2 type ++ bytesOf 1 ((before.map Custody.code).getD 0) ++ locBefore.bytes ++
      bytesOf 1 ((after.map Custody.code).getD 0) ++ locAfter.bytes ++ bytesOf 1 cause.code ++ bytesOf 1 (link.getD 0)) ∧
  (∀ (r : Request) (cause : ReqCause),
    (Report.requestState r cause).bytes =
      bytesOf 1 r.number ++
      (match r.origin with
       | .station n => bytesOf 1 1 ++ bytesOf 1 n
       | .supervisor => [2, 0]
       | .auto => [3, 0]) ++
      bytesOf 2 r.type ++
      (match r.dest with
       | .station n place => bytesOf 1 n ++ bytesOf 1 place
       | .bench => [0, 0]) ++
      bytesOf 1 (match r.prio with
       | .urgent => 1
       | .normal => 2
       | .prefetch => 3) ++
      [if r.neededBy.isSome then 1 else 0] ++ bytesOf 4 (r.neededBy.getD 0) ++ bytesOf 1 r.state.code ++ bytesOf 1 cause.code ++
      bytesOf 2 (r.tool.getD 0) ++ bytesOf 1 r.misses) ∧
  [ReplyCode.ok, .accepted, .unknownKind, .badLength, .notInMode, .noSuch, .state, .range, .full, .busy, .zeroStale, .held,
    .limit].map ReplyCode.code = List.range 13 ∧
  [Cause.register, .measureBegin, .measureEnd, .reserve, .release, .pick, .handOut, .latePick, .benchReturn, .place,
    .putawayTimeout, .discrepancy, .identify, .stationLoaded, .verify, .unloaded, .typeHold, .typeRelease, .lifeZero,
    .spentAtLimit, .regrindOut, .regrindBack, .quarantineTool, .clearQuarantine, .retire, .delete].map Cause.code =
    (List.range 26).map (· + 1) ∧
  [ReqState.queued, .waitingStock, .reserved, .issued, .delivered, .cancelled, .expired].map ReqState.code =
    (List.range 7).map (· + 1) ∧
  [ReqCause.entered, .merged, .noStock, .reserved, .released, .pick, .latePick, .handOut, .pickTimeout, .pickMissed, .typeHold,
    .evicted, .cancelledHost, .cancelledStation, .expired, .delivered, .instanceLost].map ReqCause.code =
    (List.range 17).map (· + 1)

/-- R200, R201: START finds a disagreement exactly where a pocket names an instance that is not there or a disabled pocket names
one, or an instance lies in a pocket that does not name it, answers STATE with the first, the pockets ascending before the instances
ascending, and changes nothing; otherwise the part is RUNNING, every instance as it was but for its handoff owed. The model's choice:
a pocket with two disagreements names POCKET_NAMES_OTHER (log entry 50). -/
def Obligations.StartComparesAndBegins : Prop :=
  ∀ (s : State) (tag : Byte), s.takesNow 0x50 tag [] = true → tableSorted s.trg.insts = true →
    tableSorted s.psc.pockets = true →
    let wrong := fun (c p : Nat) => ∃ n, (s.pocket c p).tool = some n ∧
      ((s.pocket c p).enabled = false ∨ ∀ i, s.tool n = some i → i.loc ≠ .pocket c p)
    let firstPocket := fun (c p : Nat) =>
      (1 ≤ p ∧ p ≤ 64) ∧ ∀ d q, 1 ≤ q → q ≤ 64 → d < c ∨ (d = c ∧ q < p) → ¬ wrong d q
    let agrees :=
      (∀ c p n, 1 ≤ p → p ≤ 64 → (s.pocket c p).tool = some n →
        (s.pocket c p).enabled = true ∧ ∃ i, s.tool n = some i ∧ i.loc = .pocket c p) ∧
      (∀ n i c p, s.tool n = some i → i.loc = .pocket c p → (s.pocket c p).tool = some n)
    (s.svp.mode = .running → exec (.start tag []) s = .next (s.answered 0x50 tag [] (.plain .notInMode))) ∧
    (s.svp.mode = .loading → ¬ agrees →
      ∃ kind c p n, exec (.start tag []) s =
          .next (s.answered 0x50 tag [] { code := .state, data := .disagreement kind c p n }) ∧
        (match kind with
         | .pocketNamesOther => firstPocket c p ∧ (s.pocket c p).tool = some n ∧ ∀ i, s.tool n = some i → i.loc ≠ .pocket c p
         | .disabledPocket => firstPocket c p ∧ (s.pocket c p).tool = some n ∧ (s.pocket c p).enabled = false ∧
             ∃ i, s.tool n = some i ∧ i.loc = .pocket c p
         | .instanceNotRecorded => (∀ d q, 1 ≤ q → q ≤ 64 → ¬ wrong d q) ∧
             (s.pocket c p).tool ≠ some n ∧ (∃ i, s.tool n = some i ∧ i.loc = .pocket c p) ∧
             ∀ m i d q, m < n → s.tool m = some i → i.loc = .pocket d q → (s.pocket d q).tool = some m)) ∧
    (s.svp.mode = .loading → agrees →
      ∃ t rs, exec (.start tag []) s = .next t ∧
        (∀ m, t.tool m = s.tool m ∨ ∃ i o, s.tool m = some i ∧ t.tool m = some { i with owed := o }) ∧
        (∀ c, 1 ≤ c → c ≤ 12 → (s.cab c).settings.enabled = true → (s.cab c).settings.mode = .auto →
          (t.cab c).boundary = some (s.tick + (s.cab c).settings.interval)) ∧
        t = { s with
          trg := { types := s.trg.types, insts := t.trg.insts }, psc := t.psc, isc := { t.isc with queue := s.isc.queue }
          hoe := t.hoe, svp := { s.svpAnswered 0x50 tag [] rs (.plain .ok) with mode := .running }, lines := Lines.quiet })

/-- R7, R26, R45, R75, R95, R152, R169, R174, R186, R198, R204: every read answers what its rule lists and changes nothing but that
READ_PORT with clear set returns the three counters to 0 after its reply; REPORT_ENABLE replaces the set of enabled kinds. The
contents of LIST_INSTANCES and of NEXT_TO_MEASURE are said in ListInstancesAscending and WorklistInOrder. The model's choices: a
number outside its range, 0 among them, answers RANGE where the rule names no code for it (log entry 34), and READ_PUTAWAY of an
absent slot answers OK with neither (log entry 61). The zone of an assignment is the one decided then (log entry 62), the zero's age
is rounded down (log entry 74), the worst code of a broadcast that holds no result is OK (log entry 91), and a head that is SILENT
or in FAULT shows that ahead of NO_CURVES (log entry 83). -/
def Obligations.ReadsAnswerState : Prop :=
  ∀ (s : State) (tag : Byte) (body : List Byte),
    let a := fieldAt body 0 1
    let n := fieldAt body 0 2
    let ok := fun (d : ReplyData) => ({ code := .ok, data := d } : Reply)
    let reads := fun (kind : Byte) (c : Instr) (r : Reply) =>
      s.takesNow kind tag body = true → exec c s = .next (s.answered kind tag body r)
    reads 0x03 (.readType tag body)
      (if n < 1 ∨ 512 < n then .plain .range
       else match s.type n with
        | none => .plain .noSuch
        | some r => ok (.typeRec n r)) ∧
    reads 0x0E (.readInstance tag body)
      (if n < 1 ∨ 2048 < n then .plain .range
       else match s.tool n with
        | none => .plain .noSuch
        | some r => ok (.instRec n r)) ∧
    reads 0x15 (.readPocket tag body)
      (let p := fieldAt body 1 1
       if a < 1 ∨ 12 < a ∨ p < 1 ∨ 64 < p then .plain .range
       else ok (.pocket a p (s.pocket a p)
        ((s.pocket a p).enabled && (s.pocket a p).baseline.isSome && decide ((s.pocket a p).state ≠ .fault)))) ∧
    reads 0x16 (.readCabinet tag body)
      (if a < 1 ∨ 12 < a then .plain .range
       else ok (.cabinet a (s.cab a)
        ([PocketState.disabled, .empty, .occupied, .expectTake, .expectPlace, .unknown, .fault].map (fun x =>
          (((List.range 64).map (· + 1)).filter (fun p => decide ((s.pocket a p).state = x))).length)))) ∧
    reads 0x1E (.readRequest tag body)
      (if a = 0 then .plain .range
       else match s.isc.queue.find? (fun r => decide (r.number = a)) with
        | none => .plain .noSuch
        | some r => ok (.request r)) ∧
    reads 0x1F (.listRequests tag body)
      (if a < 1 ∨ 64 < a then .plain .range
       else ok (.requests s.isc.queue.length ((s.isc.queue.drop (a - 1)).take 8))) ∧
    reads 0x20 (.readPutaway tag body)
      (if n < 1 ∨ 2048 < n then .plain .range else ok (.putaway (s.putawayView n) (s.latePickView n))) ∧
    (headOf a = none → reads 0x2E (.readHead tag body) (.plain .range)) ∧
    (∀ h, headOf a = some h → reads 0x2E (.readHead tag body)
      (ok (.head h (s.head h) (s.head h).reason ((s.head h).zero.map (fun z => (s.tick - z.tick) / 1000))
        ((s.head h).ageOk s.tick) (s.head h).tempOk))) ∧
    reads 0x3A (.readLink tag body)
      (if a < 1 ∨ 32 < a then .plain .range
       else ok (.link a (s.link a) ((s.link a).density.filter (fun g => decide (g = false))).length (s.link a).density.length)) ∧
    reads 0x45 (.readHandoff tag body) (if a < 1 ∨ 32 < a then .plain .range else ok (.handoff a (s.station a))) ∧
    reads 0x46 (.readGroups tag body)
      (ok (.groups [s.group 1, s.group 2, s.group 3, s.group 4, s.group 5, s.group 6, s.group 7, s.group 8])) ∧
    reads 0x47 (.readBroadcast tag body)
      (if a = 0 then .plain .range
       else match s.broadcast a with
        | none => .plain .noSuch
        | some b => ok (.broadcast b b.worst)) ∧
    (let path := fun (p : Path) =>
      ({ status := p.status, sinceReference := p.reference.map (fun t => (s.tick : Int) - t), validRun := p.validRun
         invalidRun := p.invalidRun, lastStep := p.lastStep } : PathView)
     reads 0x4A (.readTime tag body) (ok (.time
      { hall := s.hck.hall, tick := s.tick, state := s.hck.state, setPending := s.hck.setPending, tol := s.hck.tol
        revertive := s.hck.revertive, primary := path s.hck.primary, secondary := path s.hck.secondary
        sinceDiscipline := s.hck.lastDiscipline.map (fun t => (s.tick : Int) - t) }))) ∧
    (∃ r, reads 0x0F (.listInstances tag body) r ∧ (r.code = .range ∨ r.code = .noSuch ∨ ∃ ns more, r = ok (.instList ns more))) ∧
    (∃ rows, rows.length ≤ 8 ∧ reads 0x1D (.nextToMeasure tag body) (ok (.worklist rows))) ∧
    (s.takesNow 0x53 tag body = true →
      let v := (s.bringIn ⟨0x53, tag, body⟩).svp
      let d := ok (.port v.mode v.rate v.buffer.length v.busy.isSome v.reports.length v.lost v.enable v.handle v.discards
        v.refusals v.drops)
      exec (.readPort tag body) s = .next
        { s with
          svp := if flagAt body 0 0 = true then
              { s.svpAnswered 0x53 tag body [] d with discards := 0, refusals := 0, drops := 0 }
            else s.svpAnswered 0x53 tag body [] d
          lines := Lines.quiet }) ∧
    (s.takesNow 0x52 tag body = true →
      (16384 ≤ n → exec (.reportEnable tag body) s = .next (s.answered 0x52 tag body (.plain .range))) ∧
      (n < 16384 →
        exec (.reportEnable tag body) s = .next
          { s with svp := { s.svpAnswered 0x52 tag body [] (.plain .ok) with enable := n }, lines := Lines.quiet }))

/-- R73: NEXT_TO_MEASURE answers the first eight of the UNMEASURED instances whose type is not held, in order of the priority and
needed-by of the first WAITING_STOCK request for their type, those without one last, then BENCH before POCKET, then number. -/
def Obligations.WorklistInOrder : Prop :=
  ∀ (s : State) (tag : Byte) (body : List Byte), s.takesNow 0x1D tag body = true → tableSorted s.trg.insts = true →
    (∀ r ∈ s.isc.queue, ∀ b ∈ r.neededBy, b ≤ 4294967295) →
    let first := fun (type : Nat) => s.isc.queue.find? (fun r => decide (r.type = type ∧ r.state = .waitingStock))
    let rank := fun (i : InstRec) => ((first i.type).map (·.prio.rank)).getD 4
    let needed := fun (i : InstRec) =>
      match first i.type with
      | some r => r.neededBy.getD 4294967296
      | none => 0
    let spot := fun (i : InstRec) => if i.loc = .bench then 0 else 1
    let ahead := fun (a b : Nat × InstRec) =>
      rank a.2 < rank b.2 ∨ (rank a.2 = rank b.2 ∧
        (needed a.2 < needed b.2 ∨ (needed a.2 = needed b.2 ∧
          (spot a.2 < spot b.2 ∨ (spot a.2 = spot b.2 ∧ a.1 < b.1)))))
    ∃ all : List (Nat × InstRec),
      all.Perm (s.trg.insts.filter (fun e => decide (e.2.custody = .unmeasured) && !s.typeHeld e.2.type)) ∧
      all.Pairwise ahead ∧
      exec (.nextToMeasure tag body) s = .next (s.answered 0x1D tag body
        { code := .ok
          data := .worklist ((all.take 8).map (fun e => (e.1, e.2.type, e.2.loc, (first e.2.type).map (·.number)))) })

/-! ### Encodings and invariants -/

/-- R205 and 11.3: a type record in range and an instance record whose fields fit, written in their formats, read back as they were,
number and all; a type reads back as not held, since LOAD_TYPE does not look at held (R1). -/
def Obligations.RegisterRecordsRoundTrip : Prop :=
  (∀ (n : Nat) (r : TypeRec), n < 65536 → r.inRange = true →
    (typeBytes n r).length = 38 ∧ fieldAt (typeBytes n r) 0 2 = n ∧ typeFields (typeBytes n r) = some { r with held := false }) ∧
  (∀ (n : Nat) (r : InstRec), n < 65536 → r.type < 65536 → r.generation < 65536 → r.life < 16777216 → r.marks ≤ 4 →
    (∀ k ∈ r.link, 1 ≤ k ∧ k < 256) →
    (∀ m ∈ r.meas, m.length ≤ 4000000 ∧ m.radius ≤ 1500000 ∧ m.runout ≤ 1500000 ∧ m.time.sec < 4294967296 ∧ m.time.ms ≤ 999) →
    (∀ l ∈ r.last, 1 ≤ l.station ∧ l.station ≤ 32 ∧ l.generation < 65536) →
    (∀ c p, r.loc = .pocket c p → 1 ≤ c ∧ c ≤ 12 ∧ 1 ≤ p ∧ p ≤ 64) →
    (∀ st p, r.loc = .toStation st p ∨ r.loc = .station st p → 1 ≤ st ∧ st ≤ 32 ∧ p < 256) →
    (∀ st, r.loc = .backStation st → 1 ≤ st ∧ st ≤ 32) →
    (instBytes n r).length = 37 ∧ fieldAt (instBytes n r) 0 2 = n ∧ instFields (instBytes n r) = some r)

/-- The port, the clock, the crib, the heads, the links and handoff stay within their capacities at every step, and every handoff
queue in its order, with one PENDING TOOL_DATA an instance and one transaction IN_FLIGHT (R158, R159, R160): among them the
crib's tables in order, its settings in range and its bounds those of its baselines (R28, R30, R35), one magazine entry a place and
one unacknowledged hold entry a type (R157, R172), place counts in range (R156), and the sizes of R82, R85, R94, R134, R143, R145,
R149, R155, R159, R177, R178, R183, R190, R193, R196, R204. -/
def Obligations.StepKeepsCapacities : Prop :=
  ∀ (s t : State), s.WithinCapacities → step s = .next t → t.WithinCapacities

/-- At every step ISC keeps at most 64 requests with distinct numbers from 1 to 255, in service order, and its settings in range
(R47, R48, R49, R74). -/
def Obligations.StepKeepsRequestQueue : Prop :=
  ∀ (s t : State), s.isc.Within → s.isc.InOrder → step s = .next t → t.isc.Within ∧ t.isc.InOrder

/-- At every step TRG keeps its two tables in order and every record by its rules: a present type, life within the budget and marks
within the limit, a quarantine cause exactly in QUARANTINE, a request link only in RESERVED or ISSUED (R1, R4, R5, R6, R8, R9). -/
def Obligations.StepKeepsRegisterLawful : Prop :=
  ∀ (s t : State), s.trg.Lawful → step s = .next t → t.trg.Lawful

/-- At every step the blocks keep of one another what their rules say, from any state that does: each instance at an allowed
location, no two at one pocket, place or head (R12), pocket and instance naming each other, the combinations of a pocket record
(R29), a RESERVED instance, a RESERVED request and an EXPECT_TAKE pocket together (R57), assignments and EXPECT_PLACE pockets
together (R68, R71), a departure mark only for an instance at the presetter or at regrinding (R42), a magazine place only for an
instance held there (R157), a session and its instance at the head (R87), and none of these in LOADING (R34, R46, R76). The state
after reset meets this and every other invariant that each step keeps. -/
def Obligations.ResetMeetsInvariants : Prop :=
  (∀ (s t : State), s.Accounted → step s = .next t → t.Accounted) ∧
  State.reset.Accounted ∧ State.reset.WithinCapacities ∧ State.reset.isc.Within ∧ State.reset.isc.InOrder ∧
  State.reset.trg.Lawful ∧ (∀ n, (State.reset.station n).Queued State.reset.hoe.entries)
end

