-- ==== Sys2Proof/Laws/State.lean ====
section
/-! SUPPORT. One lemma per field of State for every named update (Machine/Ops.lean): which block an update writes and that it leaves
the nine others as they were. -/

namespace Sys2Proof.Machine

variable (s : State)

/-! ### setType -/
@[simp] theorem State.setType_pending (n : Nat) (r : TypeRec) : (s.setType n r).pending = s.pending := rfl
@[simp] theorem State.setType_svp (n : Nat) (r : TypeRec) : (s.setType n r).svp = s.svp := rfl
@[simp] theorem State.setType_hck (n : Nat) (r : TypeRec) : (s.setType n r).hck = s.hck := rfl
@[simp] theorem State.setType_trg (n : Nat) (r : TypeRec) : (s.setType n r).trg = { s.trg with types := tset s.trg.types n r } := rfl
@[simp] theorem State.setType_psc (n : Nat) (r : TypeRec) : (s.setType n r).psc = s.psc := rfl
@[simp] theorem State.setType_isc (n : Nat) (r : TypeRec) : (s.setType n r).isc = s.isc := rfl
@[simp] theorem State.setType_msu (n : Nat) (r : TypeRec) : (s.setType n r).msu = s.msu := rfl
@[simp] theorem State.setType_slc (n : Nat) (r : TypeRec) : (s.setType n r).slc = s.slc := rfl
@[simp] theorem State.setType_hoe (n : Nat) (r : TypeRec) : (s.setType n r).hoe = s.hoe := rfl
@[simp] theorem State.setType_lines (n : Nat) (r : TypeRec) : (s.setType n r).lines = s.lines := rfl

/-! ### delType -/
@[simp] theorem State.delType_pending (n : Nat) : (s.delType n).pending = s.pending := rfl
@[simp] theorem State.delType_svp (n : Nat) : (s.delType n).svp = s.svp := rfl
@[simp] theorem State.delType_hck (n : Nat) : (s.delType n).hck = s.hck := rfl
@[simp] theorem State.delType_trg (n : Nat) : (s.delType n).trg = { s.trg with types := tdel s.trg.types n } := rfl
@[simp] theorem State.delType_psc (n : Nat) : (s.delType n).psc = s.psc := rfl
@[simp] theorem State.delType_isc (n : Nat) : (s.delType n).isc = s.isc := rfl
@[simp] theorem State.delType_msu (n : Nat) : (s.delType n).msu = s.msu := rfl
@[simp] theorem State.delType_slc (n : Nat) : (s.delType n).slc = s.slc := rfl
@[simp] theorem State.delType_hoe (n : Nat) : (s.delType n).hoe = s.hoe := rfl
@[simp] theorem State.delType_lines (n : Nat) : (s.delType n).lines = s.lines := rfl

/-! ### setTool -/
@[simp] theorem State.setTool_pending (n : Nat) (r : InstRec) : (s.setTool n r).pending = s.pending := rfl
@[simp] theorem State.setTool_svp (n : Nat) (r : InstRec) : (s.setTool n r).svp = s.svp := rfl
@[simp] theorem State.setTool_hck (n : Nat) (r : InstRec) : (s.setTool n r).hck = s.hck := rfl
@[simp] theorem State.setTool_trg (n : Nat) (r : InstRec) : (s.setTool n r).trg = { s.trg with insts := tset s.trg.insts n r } := rfl
@[simp] theorem State.setTool_psc (n : Nat) (r : InstRec) : (s.setTool n r).psc = s.psc := rfl
@[simp] theorem State.setTool_isc (n : Nat) (r : InstRec) : (s.setTool n r).isc = s.isc := rfl
@[simp] theorem State.setTool_msu (n : Nat) (r : InstRec) : (s.setTool n r).msu = s.msu := rfl
@[simp] theorem State.setTool_slc (n : Nat) (r : InstRec) : (s.setTool n r).slc = s.slc := rfl
@[simp] theorem State.setTool_hoe (n : Nat) (r : InstRec) : (s.setTool n r).hoe = s.hoe := rfl
@[simp] theorem State.setTool_lines (n : Nat) (r : InstRec) : (s.setTool n r).lines = s.lines := rfl

/-! ### delTool -/
@[simp] theorem State.delTool_pending (n : Nat) : (s.delTool n).pending = s.pending := rfl
@[simp] theorem State.delTool_svp (n : Nat) : (s.delTool n).svp = s.svp := rfl
@[simp] theorem State.delTool_hck (n : Nat) : (s.delTool n).hck = s.hck := rfl
@[simp] theorem State.delTool_trg (n : Nat) : (s.delTool n).trg = { s.trg with insts := tdel s.trg.insts n } := rfl
@[simp] theorem State.delTool_psc (n : Nat) : (s.delTool n).psc = s.psc := rfl
@[simp] theorem State.delTool_isc (n : Nat) : (s.delTool n).isc = s.isc := rfl
@[simp] theorem State.delTool_msu (n : Nat) : (s.delTool n).msu = s.msu := rfl
@[simp] theorem State.delTool_slc (n : Nat) : (s.delTool n).slc = s.slc := rfl
@[simp] theorem State.delTool_hoe (n : Nat) : (s.delTool n).hoe = s.hoe := rfl
@[simp] theorem State.delTool_lines (n : Nat) : (s.delTool n).lines = s.lines := rfl

/-! ### setPocket -/
@[simp] theorem State.setPocket_pending (c p : Nat) (r : Pocket) : (s.setPocket c p r).pending = s.pending := rfl
@[simp] theorem State.setPocket_svp (c p : Nat) (r : Pocket) : (s.setPocket c p r).svp = s.svp := rfl
@[simp] theorem State.setPocket_hck (c p : Nat) (r : Pocket) : (s.setPocket c p r).hck = s.hck := rfl
@[simp] theorem State.setPocket_trg (c p : Nat) (r : Pocket) : (s.setPocket c p r).trg = s.trg := rfl
@[simp] theorem State.setPocket_psc (c p : Nat) (r : Pocket) : (s.setPocket c p r).psc = { s.psc with pockets := dset Pocket.reset s.psc.pockets (pocketKey c p) r } := rfl
@[simp] theorem State.setPocket_isc (c p : Nat) (r : Pocket) : (s.setPocket c p r).isc = s.isc := rfl
@[simp] theorem State.setPocket_msu (c p : Nat) (r : Pocket) : (s.setPocket c p r).msu = s.msu := rfl
@[simp] theorem State.setPocket_slc (c p : Nat) (r : Pocket) : (s.setPocket c p r).slc = s.slc := rfl
@[simp] theorem State.setPocket_hoe (c p : Nat) (r : Pocket) : (s.setPocket c p r).hoe = s.hoe := rfl
@[simp] theorem State.setPocket_lines (c p : Nat) (r : Pocket) : (s.setPocket c p r).lines = s.lines := rfl

/-! ### setCab -/
@[simp] theorem State.setCab_pending (c : Nat) (r : Cabinet) : (s.setCab c r).pending = s.pending := rfl
@[simp] theorem State.setCab_svp (c : Nat) (r : Cabinet) : (s.setCab c r).svp = s.svp := rfl
@[simp] theorem State.setCab_hck (c : Nat) (r : Cabinet) : (s.setCab c r).hck = s.hck := rfl
@[simp] theorem State.setCab_trg (c : Nat) (r : Cabinet) : (s.setCab c r).trg = s.trg := rfl
@[simp] theorem State.setCab_psc (c : Nat) (r : Cabinet) : (s.setCab c r).psc = { s.psc with cabinets := dset Cabinet.reset s.psc.cabinets c r } := rfl
@[simp] theorem State.setCab_isc (c : Nat) (r : Cabinet) : (s.setCab c r).isc = s.isc := rfl
@[simp] theorem State.setCab_msu (c : Nat) (r : Cabinet) : (s.setCab c r).msu = s.msu := rfl
@[simp] theorem State.setCab_slc (c : Nat) (r : Cabinet) : (s.setCab c r).slc = s.slc := rfl
@[simp] theorem State.setCab_hoe (c : Nat) (r : Cabinet) : (s.setCab c r).hoe = s.hoe := rfl
@[simp] theorem State.setCab_lines (c : Nat) (r : Cabinet) : (s.setCab c r).lines = s.lines := rfl

/-! ### setLink -/
@[simp] theorem State.setLink_pending (n : Nat) (r : Link) : (s.setLink n r).pending = s.pending := rfl
@[simp] theorem State.setLink_svp (n : Nat) (r : Link) : (s.setLink n r).svp = s.svp := rfl
@[simp] theorem State.setLink_hck (n : Nat) (r : Link) : (s.setLink n r).hck = s.hck := rfl
@[simp] theorem State.setLink_trg (n : Nat) (r : Link) : (s.setLink n r).trg = s.trg := rfl
@[simp] theorem State.setLink_psc (n : Nat) (r : Link) : (s.setLink n r).psc = s.psc := rfl
@[simp] theorem State.setLink_isc (n : Nat) (r : Link) : (s.setLink n r).isc = s.isc := rfl
@[simp] theorem State.setLink_msu (n : Nat) (r : Link) : (s.setLink n r).msu = s.msu := rfl
@[simp] theorem State.setLink_slc (n : Nat) (r : Link) : (s.setLink n r).slc = { s.slc with links := dset Link.reset s.slc.links n r } := rfl
@[simp] theorem State.setLink_hoe (n : Nat) (r : Link) : (s.setLink n r).hoe = s.hoe := rfl
@[simp] theorem State.setLink_lines (n : Nat) (r : Link) : (s.setLink n r).lines = s.lines := rfl

/-! ### setStation -/
@[simp] theorem State.setStation_pending (n : Nat) (r : Station) : (s.setStation n r).pending = s.pending := rfl
@[simp] theorem State.setStation_svp (n : Nat) (r : Station) : (s.setStation n r).svp = s.svp := rfl
@[simp] theorem State.setStation_hck (n : Nat) (r : Station) : (s.setStation n r).hck = s.hck := rfl
@[simp] theorem State.setStation_trg (n : Nat) (r : Station) : (s.setStation n r).trg = s.trg := rfl
@[simp] theorem State.setStation_psc (n : Nat) (r : Station) : (s.setStation n r).psc = s.psc := rfl
@[simp] theorem State.setStation_isc (n : Nat) (r : Station) : (s.setStation n r).isc = s.isc := rfl
@[simp] theorem State.setStation_msu (n : Nat) (r : Station) : (s.setStation n r).msu = s.msu := rfl
@[simp] theorem State.setStation_slc (n : Nat) (r : Station) : (s.setStation n r).slc = s.slc := rfl
@[simp] theorem State.setStation_hoe (n : Nat) (r : Station) : (s.setStation n r).hoe = { s.hoe with stations := dset Station.reset s.hoe.stations n r } := rfl
@[simp] theorem State.setStation_lines (n : Nat) (r : Station) : (s.setStation n r).lines = s.lines := rfl

/-! ### setGroup -/
@[simp] theorem State.setGroup_pending (g : Nat) (ms : List Nat) : (s.setGroup g ms).pending = s.pending := rfl
@[simp] theorem State.setGroup_svp (g : Nat) (ms : List Nat) : (s.setGroup g ms).svp = s.svp := rfl
@[simp] theorem State.setGroup_hck (g : Nat) (ms : List Nat) : (s.setGroup g ms).hck = s.hck := rfl
@[simp] theorem State.setGroup_trg (g : Nat) (ms : List Nat) : (s.setGroup g ms).trg = s.trg := rfl
@[simp] theorem State.setGroup_psc (g : Nat) (ms : List Nat) : (s.setGroup g ms).psc = s.psc := rfl
@[simp] theorem State.setGroup_isc (g : Nat) (ms : List Nat) : (s.setGroup g ms).isc = s.isc := rfl
@[simp] theorem State.setGroup_msu (g : Nat) (ms : List Nat) : (s.setGroup g ms).msu = s.msu := rfl
@[simp] theorem State.setGroup_slc (g : Nat) (ms : List Nat) : (s.setGroup g ms).slc = s.slc := rfl
@[simp] theorem State.setGroup_hoe (g : Nat) (ms : List Nat) : (s.setGroup g ms).hoe = { s.hoe with groups := dset [] s.hoe.groups g ms } := rfl
@[simp] theorem State.setGroup_lines (g : Nat) (ms : List Nat) : (s.setGroup g ms).lines = s.lines := rfl

/-! ### setHoe -/
@[simp] theorem State.setHoe_pending (r : Hoe) : (s.setHoe r).pending = s.pending := rfl
@[simp] theorem State.setHoe_svp (r : Hoe) : (s.setHoe r).svp = s.svp := rfl
@[simp] theorem State.setHoe_hck (r : Hoe) : (s.setHoe r).hck = s.hck := rfl
@[simp] theorem State.setHoe_trg (r : Hoe) : (s.setHoe r).trg = s.trg := rfl
@[simp] theorem State.setHoe_psc (r : Hoe) : (s.setHoe r).psc = s.psc := rfl
@[simp] theorem State.setHoe_isc (r : Hoe) : (s.setHoe r).isc = s.isc := rfl
@[simp] theorem State.setHoe_msu (r : Hoe) : (s.setHoe r).msu = s.msu := rfl
@[simp] theorem State.setHoe_slc (r : Hoe) : (s.setHoe r).slc = s.slc := rfl
@[simp] theorem State.setHoe_hoe (r : Hoe) : (s.setHoe r).hoe = r := rfl
@[simp] theorem State.setHoe_lines (r : Hoe) : (s.setHoe r).lines = s.lines := rfl

/-! ### setHead -/
@[simp] theorem State.setHead_pending (h : HeadId) (r : Head) : (s.setHead h r).pending = s.pending := by cases h <;> rfl
@[simp] theorem State.setHead_svp (h : HeadId) (r : Head) : (s.setHead h r).svp = s.svp := by cases h <;> rfl
@[simp] theorem State.setHead_hck (h : HeadId) (r : Head) : (s.setHead h r).hck = s.hck := by cases h <;> rfl
@[simp] theorem State.setHead_trg (h : HeadId) (r : Head) : (s.setHead h r).trg = s.trg := by cases h <;> rfl
@[simp] theorem State.setHead_psc (h : HeadId) (r : Head) : (s.setHead h r).psc = s.psc := by cases h <;> rfl
@[simp] theorem State.setHead_isc (h : HeadId) (r : Head) : (s.setHead h r).isc = s.isc := by cases h <;> rfl
@[simp] theorem State.setHead_slc (h : HeadId) (r : Head) : (s.setHead h r).slc = s.slc := by cases h <;> rfl
@[simp] theorem State.setHead_hoe (h : HeadId) (r : Head) : (s.setHead h r).hoe = s.hoe := by cases h <;> rfl
@[simp] theorem State.setHead_lines (h : HeadId) (r : Head) : (s.setHead h r).lines = s.lines := by cases h <;> rfl

/-! ### setPath -/
@[simp] theorem State.setPath_pending (l : PulseLine) (r : Path) : (s.setPath l r).pending = s.pending := by cases l <;> rfl
@[simp] theorem State.setPath_svp (l : PulseLine) (r : Path) : (s.setPath l r).svp = s.svp := by cases l <;> rfl
@[simp] theorem State.setPath_trg (l : PulseLine) (r : Path) : (s.setPath l r).trg = s.trg := by cases l <;> rfl
@[simp] theorem State.setPath_psc (l : PulseLine) (r : Path) : (s.setPath l r).psc = s.psc := by cases l <;> rfl
@[simp] theorem State.setPath_isc (l : PulseLine) (r : Path) : (s.setPath l r).isc = s.isc := by cases l <;> rfl
@[simp] theorem State.setPath_msu (l : PulseLine) (r : Path) : (s.setPath l r).msu = s.msu := by cases l <;> rfl
@[simp] theorem State.setPath_slc (l : PulseLine) (r : Path) : (s.setPath l r).slc = s.slc := by cases l <;> rfl
@[simp] theorem State.setPath_hoe (l : PulseLine) (r : Path) : (s.setPath l r).hoe = s.hoe := by cases l <;> rfl
@[simp] theorem State.setPath_lines (l : PulseLine) (r : Path) : (s.setPath l r).lines = s.lines := by cases l <;> rfl

/-! ### setIsc -/
@[simp] theorem State.setIsc_pending (r : Isc) : (s.setIsc r).pending = s.pending := rfl
@[simp] theorem State.setIsc_svp (r : Isc) : (s.setIsc r).svp = s.svp := rfl
@[simp] theorem State.setIsc_hck (r : Isc) : (s.setIsc r).hck = s.hck := rfl
@[simp] theorem State.setIsc_trg (r : Isc) : (s.setIsc r).trg = s.trg := rfl
@[simp] theorem State.setIsc_psc (r : Isc) : (s.setIsc r).psc = s.psc := rfl
@[simp] theorem State.setIsc_isc (r : Isc) : (s.setIsc r).isc = r := rfl
@[simp] theorem State.setIsc_msu (r : Isc) : (s.setIsc r).msu = s.msu := rfl
@[simp] theorem State.setIsc_slc (r : Isc) : (s.setIsc r).slc = s.slc := rfl
@[simp] theorem State.setIsc_hoe (r : Isc) : (s.setIsc r).hoe = s.hoe := rfl
@[simp] theorem State.setIsc_lines (r : Isc) : (s.setIsc r).lines = s.lines := rfl

/-! ### setHck -/
@[simp] theorem State.setHck_pending (r : Hck) : (s.setHck r).pending = s.pending := rfl
@[simp] theorem State.setHck_svp (r : Hck) : (s.setHck r).svp = s.svp := rfl
@[simp] theorem State.setHck_hck (r : Hck) : (s.setHck r).hck = r := rfl
@[simp] theorem State.setHck_trg (r : Hck) : (s.setHck r).trg = s.trg := rfl
@[simp] theorem State.setHck_psc (r : Hck) : (s.setHck r).psc = s.psc := rfl
@[simp] theorem State.setHck_isc (r : Hck) : (s.setHck r).isc = s.isc := rfl
@[simp] theorem State.setHck_msu (r : Hck) : (s.setHck r).msu = s.msu := rfl
@[simp] theorem State.setHck_slc (r : Hck) : (s.setHck r).slc = s.slc := rfl
@[simp] theorem State.setHck_hoe (r : Hck) : (s.setHck r).hoe = s.hoe := rfl
@[simp] theorem State.setHck_lines (r : Hck) : (s.setHck r).lines = s.lines := rfl

/-! ### setSvp -/
@[simp] theorem State.setSvp_pending (r : Svp) : (s.setSvp r).pending = s.pending := rfl
@[simp] theorem State.setSvp_svp (r : Svp) : (s.setSvp r).svp = r := rfl
@[simp] theorem State.setSvp_hck (r : Svp) : (s.setSvp r).hck = s.hck := rfl
@[simp] theorem State.setSvp_trg (r : Svp) : (s.setSvp r).trg = s.trg := rfl
@[simp] theorem State.setSvp_psc (r : Svp) : (s.setSvp r).psc = s.psc := rfl
@[simp] theorem State.setSvp_isc (r : Svp) : (s.setSvp r).isc = s.isc := rfl
@[simp] theorem State.setSvp_msu (r : Svp) : (s.setSvp r).msu = s.msu := rfl
@[simp] theorem State.setSvp_slc (r : Svp) : (s.setSvp r).slc = s.slc := rfl
@[simp] theorem State.setSvp_hoe (r : Svp) : (s.setSvp r).hoe = s.hoe := rfl
@[simp] theorem State.setSvp_lines (r : Svp) : (s.setSvp r).lines = s.lines := rfl

/-! ### report -/
@[simp] theorem State.report_pending (r : Report) : (s.report r).pending = s.pending := rfl
@[simp] theorem State.report_svp (r : Report) : (s.report r).svp = s.svp.report s.now r := rfl
@[simp] theorem State.report_hck (r : Report) : (s.report r).hck = s.hck := rfl
@[simp] theorem State.report_trg (r : Report) : (s.report r).trg = s.trg := rfl
@[simp] theorem State.report_psc (r : Report) : (s.report r).psc = s.psc := rfl
@[simp] theorem State.report_isc (r : Report) : (s.report r).isc = s.isc := rfl
@[simp] theorem State.report_msu (r : Report) : (s.report r).msu = s.msu := rfl
@[simp] theorem State.report_slc (r : Report) : (s.report r).slc = s.slc := rfl
@[simp] theorem State.report_hoe (r : Report) : (s.report r).hoe = s.hoe := rfl
@[simp] theorem State.report_lines (r : Report) : (s.report r).lines = s.lines := rfl

/-! ### takeHandle -/
@[simp] theorem State.takeHandle_pending : s.takeHandle.pending = s.pending := rfl
@[simp] theorem State.takeHandle_svp : s.takeHandle.svp = { s.svp with handle := cyclicNext 65535 s.svp.handle } := rfl
@[simp] theorem State.takeHandle_hck : s.takeHandle.hck = s.hck := rfl
@[simp] theorem State.takeHandle_trg : s.takeHandle.trg = s.trg := rfl
@[simp] theorem State.takeHandle_psc : s.takeHandle.psc = s.psc := rfl
@[simp] theorem State.takeHandle_isc : s.takeHandle.isc = s.isc := rfl
@[simp] theorem State.takeHandle_msu : s.takeHandle.msu = s.msu := rfl
@[simp] theorem State.takeHandle_slc : s.takeHandle.slc = s.slc := rfl
@[simp] theorem State.takeHandle_hoe : s.takeHandle.hoe = s.hoe := rfl
@[simp] theorem State.takeHandle_lines : s.takeHandle.lines = s.lines := rfl

/-! ### settle -/
@[simp] theorem State.settle_pending : s.settle.pending = s.pending := rfl
@[simp] theorem State.settle_svp : s.settle.svp = s.svp.startTx := rfl
@[simp] theorem State.settle_hck : s.settle.hck = s.hck := rfl
@[simp] theorem State.settle_trg : s.settle.trg = s.trg := rfl
@[simp] theorem State.settle_psc : s.settle.psc = s.psc := rfl
@[simp] theorem State.settle_isc : s.settle.isc = s.isc := rfl
@[simp] theorem State.settle_msu : s.settle.msu = s.msu := rfl
@[simp] theorem State.settle_slc : s.settle.slc = s.slc := rfl
@[simp] theorem State.settle_hoe : s.settle.hoe = s.hoe := rfl
@[simp] theorem State.settle_lines : s.settle.lines = s.lines := rfl

/-! ### quiet -/
@[simp] theorem State.quiet_pending : s.quiet.pending = s.pending := rfl
@[simp] theorem State.quiet_svp : s.quiet.svp = s.svp := rfl
@[simp] theorem State.quiet_hck : s.quiet.hck = s.hck := rfl
@[simp] theorem State.quiet_trg : s.quiet.trg = s.trg := rfl
@[simp] theorem State.quiet_psc : s.quiet.psc = s.psc := rfl
@[simp] theorem State.quiet_isc : s.quiet.isc = s.isc := rfl
@[simp] theorem State.quiet_msu : s.quiet.msu = s.msu := rfl
@[simp] theorem State.quiet_slc : s.quiet.slc = s.slc := rfl
@[simp] theorem State.quiet_hoe : s.quiet.hoe = s.hoe := rfl
@[simp] theorem State.quiet_lines : s.quiet.lines = Lines.quiet := rfl

/-! ### sendHead -/
@[simp] theorem State.sendHead_pending (h : HeadId) (f : List Byte) : (s.sendHead h f).pending = s.pending := by cases h <;> rfl
@[simp] theorem State.sendHead_svp (h : HeadId) (f : List Byte) : (s.sendHead h f).svp = s.svp := by cases h <;> rfl
@[simp] theorem State.sendHead_hck (h : HeadId) (f : List Byte) : (s.sendHead h f).hck = s.hck := by cases h <;> rfl
@[simp] theorem State.sendHead_trg (h : HeadId) (f : List Byte) : (s.sendHead h f).trg = s.trg := by cases h <;> rfl
@[simp] theorem State.sendHead_psc (h : HeadId) (f : List Byte) : (s.sendHead h f).psc = s.psc := by cases h <;> rfl
@[simp] theorem State.sendHead_isc (h : HeadId) (f : List Byte) : (s.sendHead h f).isc = s.isc := by cases h <;> rfl
@[simp] theorem State.sendHead_msu (h : HeadId) (f : List Byte) : (s.sendHead h f).msu = s.msu := by cases h <;> rfl
@[simp] theorem State.sendHead_slc (h : HeadId) (f : List Byte) : (s.sendHead h f).slc = s.slc := by cases h <;> rfl
@[simp] theorem State.sendHead_hoe (h : HeadId) (f : List Byte) : (s.sendHead h f).hoe = s.hoe := by cases h <;> rfl

end Sys2Proof.Machine
end

