-- ==== Sys2Proof/Laws/Port.lean ====
section
/-! SUPPORT. What the port's shared operations do, said once: handing reports (R196), the frame of a command reaching the buffer
(R190, R191), the step of an event, and the step of a host command that is taken at once. -/

namespace Sys2Proof.Machine

/-! ### Reports -/

theorem Svp.handed_nil (v : Svp) (time : HallTime) : v.handed time [] = v := rfl

theorem Svp.handed_cons (v : Svp) (time : HallTime) (r : Report) (rs : List Report) :
    v.handed time (r :: rs) = (v.report time r).handed time rs := rfl

theorem Svp.handed_append (v : Svp) (time : HallTime) (rs qs : List Report) :
    v.handed time (rs ++ qs) = (v.handed time rs).handed time qs := List.foldl_append

/-- R196, R198: taking a report changes the report queue, the count of lost ones and the moment counter alone. -/
theorem Svp.report_only (v : Svp) (time : HallTime) (r : Report) :
    v.report time r = { v with
      reports := (v.report time r).reports, lost := (v.report time r).lost, stamp := (v.report time r).stamp } := by
  unfold Svp.report
  split
  · rfl
  · split <;> rfl

/-- R196, R198: taking reports changes the report queue, the count of lost ones and the moment counter alone. -/
theorem Svp.handed_only (v : Svp) (time : HallTime) (rs : List Report) :
    v.handed time rs = { v with
      reports := (v.handed time rs).reports, lost := (v.handed time rs).lost, stamp := (v.handed time rs).stamp } := by
  induction rs generalizing v with
  | nil => rfl
  | cons r rs ih =>
    rw [Svp.handed_cons, ih (v.report time r)]
    generalize (v.report time r).handed time rs = w
    rw [Svp.report_only v time r]

/-- R196: an enabled report with room in the queue joins it under the count of those lost before it. -/
theorem Svp.report_queued {v : Svp} (time : HallTime) {r : Report} (he : v.enabled r.kind = true) (hl : v.reports.length < 32) :
    v.report time r = { v with
      reports := v.reports ++ [{ report := r, overrun := v.lost, time := time, stamp := v.stamp }]
      lost := 0
      stamp := v.stamp + 1 } := by
  have : ¬ v.reports.length ≥ 32 := by omega
  simp [Svp.report, he, this]

/-- R198: a report of a kind that is not enabled is discarded without a trace. -/
theorem Svp.report_disabled {v : Svp} (time : HallTime) {r : Report} (he : v.enabled r.kind = false) : v.report time r = v := by
  simp [Svp.report, he]

/-- R196: an enabled report that meets a full queue is lost, and counted up to 65,535. -/
theorem Svp.report_lost {v : Svp} (time : HallTime) {r : Report} (he : v.enabled r.kind = true) (hl : 32 ≤ v.reports.length) :
    v.report time r = { v with lost := min (v.lost + 1) 65535 } := by
  simp [Svp.report, he, hl]

/-! ### The buffer and the transmitter -/

/-- R190: a frame received whole changes the buffer, the BUSY slot, the moment counter and the two counters alone. -/
theorem Svp.receive_only (v : Svp) (f : HostFrame) :
    v.receive f = { v with
      buffer := (v.receive f).buffer, busy := (v.receive f).busy, stamp := (v.receive f).stamp
      refusals := (v.receive f).refusals, drops := (v.receive f).drops } := by
  unfold Svp.receive
  split
  · rfl
  · split <;> rfl

/-- R197: starting the transmitter changes the frame being sent alone. -/
theorem Svp.startTx_only (v : Svp) : v.startTx = { v with tx := v.startTx.tx } := by
  obtain ⟨_, _, _, _, _, _, _, _, _, _, _, _, _, tx, _, _⟩ := v
  cases tx <;> rfl

/-- R191: making a reply changes the buffer and the moment counter alone. -/
theorem Svp.makeReply_only (v : Svp) (r : Reply) :
    v.makeReply r = { v with buffer := (v.makeReply r).buffer, stamp := (v.makeReply r).stamp } := rfl

/-- R191: a frame that reaches the buffer changes SVP alone. -/
theorem State.bringIn_only (s : State) (f : HostFrame) : s.bringIn f = { s with svp := (s.bringIn f).svp } := by
  unfold State.bringIn
  split <;> rfl

/-- R190, R191: what a frame's arrival at the buffer leaves of SVP as it was. -/
theorem State.bringIn_svp_only (s : State) (f : HostFrame) :
    (s.bringIn f).svp = { s.svp with
      buffer := (s.bringIn f).svp.buffer, busy := (s.bringIn f).svp.busy, stamp := (s.bringIn f).svp.stamp
      refusals := (s.bringIn f).svp.refusals, drops := (s.bringIn f).svp.drops } := by
  unfold State.bringIn
  split
  · rfl
  · exact Svp.receive_only _ _

theorem State.bringIn_mode (s : State) (f : HostFrame) : (s.bringIn f).svp.mode = s.svp.mode := by rw [s.bringIn_svp_only]

theorem State.bringIn_handle (s : State) (f : HostFrame) : (s.bringIn f).svp.handle = s.svp.handle := by
  rw [s.bringIn_svp_only]

theorem State.bringIn_quiet (s : State) (f : HostFrame) :
    s.quiet.bringIn f = { s with svp := (s.bringIn f).svp, lines := Lines.quiet } := by
  by_cases h : (s.svp.untaken.head? == some f) = true <;> simp [State.bringIn, State.quiet, State.setSvp, h]

/-! ### Steps -/

/-- The step of an event: its effect with the lines quiet, then a free transmitter starts (R197). -/
theorem event_next (f : State → State) (s : State) :
    event f s = .next { f s.quiet with svp := (f s.quiet).svp.startTx } := rfl

/-- The step of an event whose effect hands SVP these reports and changes SVP in nothing else (R196, R197). -/
theorem event_handed {f : State → State} {s : State} {rs : List Report} (h : (f s.quiet).svp = s.svp.handed s.now rs) :
    event f s = .next { f s.quiet with svp := s.svpReported rs } := by
  rw [event_next, h]
  rfl

/-- The state in which a command that is taken at once runs: its frame in the buffer, the lines quiet. -/
def State.taken (s : State) (kind tag : Byte) (body : List Byte) : State :=
  { s with svp := (s.bringIn ⟨kind, tag, body⟩).svp, lines := Lines.quiet }

/-- The step of a host command that is taken at once: its run on the state with its frame in the buffer, its reply, a free
transmitter started (R191, R197). -/
theorem hostCommand_taken {kind tag : Byte} {body : List Byte} {s : State} (h : s.takesNow kind tag body = true)
    (run : State → State × Reply) :
    hostCommand kind tag body run s =
      .next { (run (s.taken kind tag body)).1 with
        svp := ((run (s.taken kind tag body)).1.svp.makeReply (run (s.taken kind tag body)).2).startTx } := by
  simp only [State.takesNow, Bool.and_eq_true] at h
  simp only [hostCommand, event, State.bringIn_quiet, h.1, h.2, if_true]
  rfl

/-- The same, where the run hands SVP these reports and changes SVP in nothing else (R191, R196, R197). -/
theorem hostCommand_handed {kind tag : Byte} {body : List Byte} {s : State} (h : s.takesNow kind tag body = true)
    {run : State → State × Reply} {rs : List Report}
    (hr : (run (s.taken kind tag body)).1.svp = (s.taken kind tag body).svp.handed s.now rs) :
    hostCommand kind tag body run s =
      .next { (run (s.taken kind tag body)).1 with
        svp := s.svpAnswered kind tag body rs (run (s.taken kind tag body)).2 } := by
  rw [hostCommand_taken h, hr]
  rfl

/-- The step of a host command that is taken at once and only answers: nothing else changes (R191). -/
theorem hostCommand_answers {kind tag : Byte} {body : List Byte} {s : State} (h : s.takesNow kind tag body = true)
    {run : State → State × Reply} {r : Reply} (hr : run (s.taken kind tag body) = (s.taken kind tag body, r)) :
    hostCommand kind tag body run s = .next (s.answered kind tag body r) := by
  rw [hostCommand_taken h, hr]
  rfl

/-- The step of a reading command that is taken at once (R191). -/
theorem readCommand_answers {kind tag : Byte} {body : List Byte} {s : State} (h : s.takesNow kind tag body = true)
    (answer : State → Reply) :
    readCommand kind tag body answer s = .next (s.answered kind tag body (answer (s.taken kind tag body))) :=
  hostCommand_answers h rfl

/-- A frame that is not taken, behind others in the buffer or discarded, or while a RESET waits: its arrival alone (R190, R191,
R202). -/
theorem hostCommand_waits {kind tag : Byte} {body : List Byte} {s : State}
    (h : (s.bringIn ⟨kind, tag, body⟩).svp.takes ⟨kind, tag, body⟩ = false) (run : State → State × Reply) :
    hostCommand kind tag body run s =
      .next { s with svp := (s.bringIn ⟨kind, tag, body⟩).svp.startTx, lines := Lines.quiet } := by
  simp only [hostCommand, event, State.bringIn_quiet, h]
  rfl

/-- A frame taken whose body has not the length of its kind is answered BAD_LENGTH and changes nothing (R191). -/
theorem hostCommand_badLength {kind tag : Byte} {body : List Byte} {s : State} (hb : bodyFits kind body = false)
    (h : (s.bringIn ⟨kind, tag, body⟩).svp.takes ⟨kind, tag, body⟩ = true) (run : State → State × Reply) :
    hostCommand kind tag body run s = .next (s.answered kind tag body (.plain .badLength)) := by
  simp only [hostCommand, event, State.bringIn_quiet, h, hb, if_true]
  rfl

/-- Every host command answers a next state. -/
theorem hostCommand_next (kind tag : Byte) (body : List Byte) (run : State → State × Reply) (s : State) :
    ∃ t, hostCommand kind tag body run s = .next t := ⟨_, rfl⟩

end Sys2Proof.Machine
end

