-- ==== Sys2Proof/Laws/Tables.lean ====
section
/-! SUPPORT. What the tables by number do (Machine/Ops.lean): a record read after a write, the canonical form kept by every update,
and the reads of State after its named updates. -/

namespace Sys2Proof.Machine

variable {α : Type}

/-! ### Reading after writing -/

@[simp] theorem tget_nil (k : Nat) : tget ([] : Table α) k = none := rfl

theorem tget_cons (i k : Nat) (w : α) (t : Table α) : tget ((i, w) :: t) k = if i = k then some w else tget t k := rfl

/-- A record set is read back, and every other number reads as before. -/
theorem tget_tset (t : Table α) (k j : Nat) (v : α) : tget (tset t k v) j = if j = k then some v else tget t j := by
  induction t with
  | nil =>
    rw [tset, tget_cons]
    by_cases h : j = k
    · simp [h]
    · rw [if_neg (Ne.symm h), if_neg h]
  | cons e rest ih =>
    obtain ⟨i, w⟩ := e
    rw [tset]
    by_cases hi : i = k
    · subst hi
      rw [if_pos rfl, tget_cons, tget_cons]
      by_cases h : j = i
      · simp [h]
      · rw [if_neg (Ne.symm h), if_neg h, if_neg (Ne.symm h)]
    · rw [if_neg hi]
      by_cases hk : k < i
      · rw [if_pos hk, tget_cons]
        by_cases h : j = k
        · simp [h]
        · rw [if_neg (Ne.symm h), if_neg h]
      · rw [if_neg hk, tget_cons, tget_cons, ih]
        by_cases h : i = j
        · subst h; simp [hi]
        · simp [h]

/-- A record deleted is gone, and every other number reads as before. -/
theorem tget_tdel (t : Table α) (k j : Nat) : tget (tdel t k) j = if j = k then none else tget t j := by
  induction t with
  | nil => simp [tdel]
  | cons e rest ih =>
    obtain ⟨i, w⟩ := e
    unfold tdel at ih ⊢
    by_cases hi : i = k
    · rw [List.filter_cons_of_neg (by simp [hi]), ih, tget_cons]
      by_cases h : j = k
      · simp [h]
      · rw [if_neg h, if_neg h, if_neg (by omega)]
    · rw [List.filter_cons_of_pos (by simp [hi]), tget_cons, tget_cons, ih]
      by_cases h : i = j
      · subst h; simp [hi]
      · simp [h]

@[simp] theorem tget_tset_self (t : Table α) (k : Nat) (v : α) : tget (tset t k v) k = some v := by simp [tget_tset]

theorem tget_tset_ne (t : Table α) {k j : Nat} (v : α) (h : j ≠ k) : tget (tset t k v) j = tget t j := by simp [tget_tset, h]

/-- A table with a default reads back what was set, the default included. -/
theorem dget_dset [DecidableEq α] (d : α) (t : Table α) (k j : Nat) (v : α) :
    dget d (dset d t k v) j = if j = k then v else dget d t j := by
  unfold dget dset
  by_cases hv : v = d
  · rw [if_pos hv, tget_tdel]
    by_cases hj : j = k <;> simp [hj, hv]
  · rw [if_neg hv, tget_tset]
    by_cases hj : j = k <;> simp [hj]

@[simp] theorem dget_dset_self [DecidableEq α] (d : α) (t : Table α) (k : Nat) (v : α) : dget d (dset d t k v) k = v := by
  simp [dget_dset]

theorem dget_dset_ne [DecidableEq α] (d : α) (t : Table α) {k j : Nat} (v : α) (h : j ≠ k) :
    dget d (dset d t k v) j = dget d t j := by simp [dget_dset, h]

/-- What a table reads at a number it lists. -/
theorem mem_of_tget {t : Table α} {k : Nat} {v : α} (h : tget t k = some v) : (k, v) ∈ t := by
  induction t with
  | nil => simp at h
  | cons e rest ih =>
    obtain ⟨i, w⟩ := e
    simp only [tget] at h
    split_ifs at h with hi
    · simp_all
    · exact List.mem_cons_of_mem _ (ih h)

/-! ### The canonical form -/

theorem tableSorted_iff (t : Table α) : tableSorted t = true ↔ (t.map (·.1)).Pairwise (· < ·) := by
  induction t with
  | nil => simp [tableSorted]
  | cons e rest ih =>
    match rest, ih with
    | [], _ => simp [tableSorted]
    | (k, w) :: more, ih =>
      simp only [tableSorted, Bool.and_eq_true, decide_eq_true_eq, ih, List.map_cons, List.pairwise_cons, List.mem_cons,
        List.mem_map, forall_eq_or_imp]
      constructor
      · rintro ⟨h, h1, h2⟩
        exact ⟨⟨h, fun a ha => lt_trans h (h1 a ha)⟩, h1, h2⟩
      · rintro ⟨⟨h, _⟩, h1, h2⟩
        exact ⟨h, h1, h2⟩

/-- In a canonical table, what is listed under a number is what the number reads as. -/
theorem tget_of_mem {t : Table α} (hs : tableSorted t = true) {k : Nat} {v : α} (h : (k, v) ∈ t) : tget t k = some v := by
  rw [tableSorted_iff] at hs
  induction t with
  | nil => simp at h
  | cons e rest ih =>
    obtain ⟨i, w⟩ := e
    simp only [List.map_cons, List.pairwise_cons, List.mem_map] at hs
    rcases List.mem_cons.1 h with h | h
    · cases h; simp [tget]
    · have := hs.1 k ⟨_, h, rfl⟩
      simp only [tget]
      rw [if_neg (by omega)]
      exact ih hs.2 h

theorem mem_tset {t : Table α} {k : Nat} {v : α} {e : Nat × α} (h : e ∈ tset t k v) : e = (k, v) ∨ e ∈ t := by
  induction t with
  | nil => simpa [tset] using h
  | cons x rest ih =>
    obtain ⟨i, w⟩ := x
    simp only [tset] at h
    split_ifs at h with h1 h2
    · rcases List.mem_cons.1 h with h | h <;> simp_all
    · rcases List.mem_cons.1 h with h | h <;> simp_all
    · rcases List.mem_cons.1 h with h | h
      · simp_all
      · rcases ih h with h | h <;> simp_all

theorem mem_tdel {t : Table α} {k : Nat} {e : Nat × α} (h : e ∈ tdel t k) : e ∈ t := List.mem_of_mem_filter h

theorem tableSorted_tset {t : Table α} (k : Nat) (v : α) (h : tableSorted t = true) : tableSorted (tset t k v) = true := by
  rw [tableSorted_iff] at h ⊢
  induction t with
  | nil => simp [tset]
  | cons x rest ih =>
    obtain ⟨i, w⟩ := x
    simp only [List.map_cons, List.pairwise_cons] at h
    simp only [tset]
    split_ifs with h1 h2
    · subst h1; simpa using h
    · simp only [List.map_cons, List.pairwise_cons, List.mem_cons]
      exact ⟨by rintro a (rfl | ha); · exact h2
                · exact lt_trans h2 (h.1 a ha), h.1, h.2⟩
    · simp only [List.map_cons, List.pairwise_cons]
      refine ⟨?_, ih h.2⟩
      intro a ha
      obtain ⟨e, he, rfl⟩ := List.mem_map.1 ha
      rcases mem_tset he with rfl | he
      · show i < k; omega
      · exact h.1 _ (List.mem_map_of_mem he)

theorem tableSorted_tdel {t : Table α} (k : Nat) (h : tableSorted t = true) : tableSorted (tdel t k) = true := by
  rw [tableSorted_iff] at h ⊢
  exact List.Pairwise.sublist (List.Sublist.map _ List.filter_sublist) h

theorem tableSorted_dset [DecidableEq α] {d : α} {t : Table α} (k : Nat) (v : α) (h : tableSorted t = true) :
    tableSorted (dset d t k v) = true := by
  unfold dset
  split_ifs
  · exact tableSorted_tdel k h
  · exact tableSorted_tset k v h

/-- A table with a default lists no record equal to it, and stays so. -/
theorem dset_no_default [DecidableEq α] {d : α} {t : Table α} (k : Nat) (v : α) (h : ∀ e ∈ t, e.2 ≠ d) :
    ∀ e ∈ dset d t k v, e.2 ≠ d := by
  unfold dset
  split_ifs with hv
  · exact fun e he => h e (mem_tdel he)
  · intro e he
    rcases mem_tset he with rfl | he
    · exact hv
    · exact h e he

/-! ### The reads of State after its updates -/

variable (s : State)

@[simp] theorem State.tool_setTool (n m : Nat) (r : InstRec) : (s.setTool n r).tool m = if m = n then some r else s.tool m :=
  tget_tset _ _ _ _

@[simp] theorem State.tool_delTool (n m : Nat) : (s.delTool n).tool m = if m = n then none else s.tool m := tget_tdel _ _ _

@[simp] theorem State.type_setType (n m : Nat) (r : TypeRec) : (s.setType n r).type m = if m = n then some r else s.type m :=
  tget_tset _ _ _ _

@[simp] theorem State.type_delType (n m : Nat) : (s.delType n).type m = if m = n then none else s.type m := tget_tdel _ _ _

@[simp] theorem State.link_setLink (n m : Nat) (r : Link) : (s.setLink n r).link m = if m = n then r else s.link m :=
  dget_dset _ _ _ _ _

@[simp] theorem State.station_setStation (n m : Nat) (r : Station) :
    (s.setStation n r).station m = if m = n then r else s.station m := dget_dset _ _ _ _ _

@[simp] theorem State.group_setGroup (g k : Nat) (ms : List Nat) : (s.setGroup g ms).group k = if k = g then ms else s.group k :=
  dget_dset _ _ _ _ _

@[simp] theorem State.cab_setCab (c d : Nat) (r : Cabinet) : (s.setCab c r).cab d = if d = c then r else s.cab d :=
  dget_dset _ _ _ _ _

theorem pocketKey_inj {c p d q : Nat} (hp : 1 ≤ p ∧ p ≤ 64) (hq : 1 ≤ q ∧ q ≤ 64) :
    pocketKey d q = pocketKey c p ↔ d = c ∧ q = p := by unfold pocketKey; omega

theorem State.pocket_setPocket (c p d q : Nat) (r : Pocket) :
    (s.setPocket c p r).pocket d q = if pocketKey d q = pocketKey c p then r else s.pocket d q := dget_dset _ _ _ _ _

@[simp] theorem State.pocket_setPocket_self (c p : Nat) (r : Pocket) : (s.setPocket c p r).pocket c p = r := by
  simp [State.pocket_setPocket]

@[simp] theorem State.head_setHead (h k : HeadId) (r : Head) : (s.setHead h r).head k = if k = h then r else s.head k := by
  cases h <;> cases k <;> rfl

@[simp] theorem State.path_setPath (l k : PulseLine) (r : Path) : (s.setPath l r).path k = if k = l then r else s.path k := by
  cases l <;> cases k <;> rfl

/-- A read of a block that an update leaves alone reads as before: a report changes none. -/
@[simp] theorem State.tool_report (r : Report) (n : Nat) : (s.report r).tool n = s.tool n := rfl
@[simp] theorem State.type_report (r : Report) (n : Nat) : (s.report r).type n = s.type n := rfl
@[simp] theorem State.pocket_report (r : Report) (c p : Nat) : (s.report r).pocket c p = s.pocket c p := rfl
@[simp] theorem State.cab_report (r : Report) (c : Nat) : (s.report r).cab c = s.cab c := rfl
@[simp] theorem State.link_report (r : Report) (n : Nat) : (s.report r).link n = s.link n := rfl
@[simp] theorem State.station_report (r : Report) (n : Nat) : (s.report r).station n = s.station n := rfl
@[simp] theorem State.group_report (r : Report) (g : Nat) : (s.report r).group g = s.group g := rfl
@[simp] theorem State.head_report (r : Report) (h : HeadId) : (s.report r).head h = s.head h := by cases h <;> rfl

end Sys2Proof.Machine
end

