-- ==== Sys2Proof/Laws/Frames.lean ====
section
/-! SUPPORT. What the shared operations of the register, the crib, issue, handoff and life may change at all: TRG's instances, PSC,
ISC, HOE, and the reports handed to SVP; one lemma for each operation. -/

namespace Sys2Proof.Machine

open State

/-- What an operation of the register, the crib, issue or handoff leaves as it was: everything beside TRG's instances, PSC, ISC,
HOE and the reports it hands to SVP. -/
def State.Runs (s t : State) : Prop :=
  (∃ rs, t.svp = s.svp.handed s.now rs) ∧
  t = { s with trg := { types := s.trg.types, insts := t.trg.insts }, psc := t.psc, isc := t.isc, hoe := t.hoe, svp := t.svp }

theorem State.Runs.refl (s : State) : s.Runs s := ⟨⟨[], rfl⟩, rfl⟩

theorem State.Runs.trans {s t u : State} (h : s.Runs t) (k : t.Runs u) : s.Runs u := by
  obtain ⟨⟨rs, hr⟩, ht⟩ := h
  obtain ⟨⟨qs, hq⟩, hu⟩ := k
  have hn : t.now = s.now := by rw [ht]; rfl
  refine ⟨⟨rs ++ qs, ?_⟩, ?_⟩
  · rw [hq, hr, hn, Svp.handed_append]
  · rw [hu, ht]

theorem State.Runs.foldl {α : Type} {s t : State} {f : State → α → State} {xs : List α} (h : s.Runs t)
    (k : ∀ (u : State) (x : α), s.Runs u → s.Runs (f u x)) : s.Runs (xs.foldl f t) := by
  induction xs generalizing t with
  | nil => exact h
  | cons x xs ih => exact ih (k t x h)

theorem State.Runs.report {s t : State} (h : s.Runs t) (r : Report) : s.Runs (t.report r) := h.trans ⟨⟨[r], rfl⟩, rfl⟩

theorem State.Runs.setTool {s t : State} (h : s.Runs t) (n : Nat) (r : InstRec) : s.Runs (t.setTool n r) :=
  h.trans ⟨⟨[], rfl⟩, rfl⟩

theorem State.Runs.delTool {s t : State} (h : s.Runs t) (n : Nat) : s.Runs (t.delTool n) := h.trans ⟨⟨[], rfl⟩, rfl⟩

theorem State.Runs.setPocket {s t : State} (h : s.Runs t) (c p : Nat) (r : Pocket) : s.Runs (t.setPocket c p r) :=
  h.trans ⟨⟨[], rfl⟩, rfl⟩

theorem State.Runs.setCab {s t : State} (h : s.Runs t) (c : Nat) (r : Cabinet) : s.Runs (t.setCab c r) :=
  h.trans ⟨⟨[], rfl⟩, rfl⟩

theorem State.Runs.setIsc {s t : State} (h : s.Runs t) (r : Isc) : s.Runs (t.setIsc r) := h.trans ⟨⟨[], rfl⟩, rfl⟩

theorem State.Runs.setStation {s t : State} (h : s.Runs t) (n : Nat) (r : Station) : s.Runs (t.setStation n r) :=
  h.trans ⟨⟨[], rfl⟩, rfl⟩

theorem State.Runs.setHoe {s t : State} (h : s.Runs t) (r : Hoe) : s.Runs (t.setHoe r) := h.trans ⟨⟨[], rfl⟩, rfl⟩

theorem State.Runs.modTool {s t : State} (h : s.Runs t) (n : Nat) (f : InstRec → InstRec) : s.Runs (t.modTool n f) := by
  unfold State.modTool
  split
  · exact h.setTool _ _
  · exact h

/-! #### Custody -/

theorem State.Runs.transition {s t : State} (h : s.Runs t) (n : Nat) (r : InstRec) (m : Move) (also : InstRec → InstRec) :
    s.Runs (t.transition n r m also) := by
  unfold State.transition
  with_reducible repeat' first | assumption | apply Runs.setTool | apply Runs.report

theorem State.Runs.move {s t : State} (h : s.Runs t) (n : Nat) (r : InstRec) (m : Move) : s.Runs (t.move n r m) := by
  unfold State.move
  with_reducible repeat' first | assumption | apply Runs.transition

theorem State.Runs.settleMarkAt {s t : State} (h : s.Runs t) (n key : Nat) : s.Runs (t.settleMarkAt n key) := by
  unfold State.settleMarkAt
  try dsimp only
  with_reducible repeat' first | assumption | apply Runs.setPocket | apply Runs.report | split

theorem State.Runs.settleMarks {s t : State} (h : s.Runs t) (n : Nat) : s.Runs (t.settleMarks n) := by
  unfold State.settleMarks
  with_reducible repeat' first | assumption | apply Runs.settleMarkAt | apply Runs.foldl | intro _ _ _

theorem State.Runs.dropMagazine {s t : State} (h : s.Runs t) (station n : Nat) : s.Runs (t.dropMagazine station n) := by
  unfold State.dropMagazine
  try dsimp only
  with_reducible repeat' first | assumption | apply Runs.setStation

/-! #### Putaway -/

theorem State.Runs.assign {s t : State} (h : s.Runs t) (n key : Nat) (z : Zone) : s.Runs (t.assign n key z) := by
  unfold State.assign
  try dsimp only
  with_reducible repeat' first | assumption | apply Runs.setPocket | apply Runs.setIsc

theorem State.Runs.tryPutaway {s t : State} (h : s.Runs t) (n : Nat) : s.Runs (t.tryPutaway n) := by
  unfold State.tryPutaway
  try dsimp only
  with_reducible repeat' first | assumption | apply Runs.assign | apply Runs.setIsc | apply Runs.report | split

theorem State.Runs.assignIfFree {s t : State} (h : s.Runs t) (n : Nat) : s.Runs (t.assignIfFree n) := by
  unfold State.assignIfFree
  try dsimp only
  with_reducible repeat' first | assumption | apply Runs.assign | split

theorem State.Runs.freeNotice {s t : State} (h : s.Runs t) : s.Runs t.freeNotice := by
  unfold State.freeNotice
  with_reducible repeat' first | assumption | apply Runs.assignIfFree | apply Runs.foldl | intro _ _ _

theorem State.Runs.noticeIfFree {s t : State} (h : s.Runs t) (c p : Nat) : s.Runs (t.noticeIfFree c p) := by
  unfold State.noticeIfFree
  with_reducible repeat' first | assumption | apply Runs.freeNotice | split

theorem State.Runs.vacateAssigned {s t : State} (h : s.Runs t) (a : Assignment) : s.Runs (t.vacateAssigned a) := by
  unfold State.vacateAssigned
  try dsimp only
  with_reducible repeat' first | assumption | apply Runs.setPocket | apply Runs.noticeIfFree | split

theorem State.Runs.forgetAssignment {s t : State} (h : s.Runs t) (n : Nat) : s.Runs (t.forgetAssignment n) := by
  unfold State.forgetAssignment
  try dsimp only
  with_reducible repeat' first | assumption | apply Runs.setIsc

theorem State.Runs.dropAssignment {s t : State} (h : s.Runs t) (n : Nat) : s.Runs (t.dropAssignment n) := by
  unfold State.dropAssignment
  with_reducible repeat' first | assumption | apply Runs.forgetAssignment | apply Runs.vacateAssigned | split

theorem State.Runs.leavePutaway {s t : State} (h : s.Runs t) (n : Nat) : s.Runs (t.leavePutaway n) := by
  unfold State.leavePutaway
  try dsimp only
  with_reducible repeat' first | assumption | apply Runs.setIsc | apply Runs.dropAssignment

/-! #### Requests -/

theorem State.Runs.setQueue {s t : State} (h : s.Runs t) (q : List Request) : s.Runs (t.setQueue q) := by
  unfold State.setQueue
  try dsimp only
  with_reducible repeat' first | assumption | apply Runs.setIsc

theorem State.Runs.putRequest {s t : State} (h : s.Runs t) (r : Request) : s.Runs (t.putRequest r) := by
  unfold State.putRequest
  with_reducible repeat' first | assumption | apply Runs.setQueue

theorem State.Runs.replaceRequest {s t : State} (h : s.Runs t) (r : Request) : s.Runs (t.replaceRequest r) := by
  unfold State.replaceRequest
  with_reducible repeat' first | assumption | apply Runs.setQueue

theorem State.Runs.endRequest {s t : State} (h : s.Runs t) (r : Request) (state : ReqState) (cause : ReqCause) :
    s.Runs (t.endRequest r state cause) := by
  unfold State.endRequest
  try dsimp only
  with_reducible repeat' first | assumption | apply Runs.report | apply Runs.setQueue

theorem State.Runs.changeRequest {s t : State} (h : s.Runs t) (r : Request) (cause : ReqCause) :
    s.Runs (t.changeRequest r cause) := by
  unfold State.changeRequest
  with_reducible repeat' first | assumption | apply Runs.putRequest | apply Runs.report

theorem State.Runs.enterWaiting {s t : State} (h : s.Runs t) (r : Request) (cause : ReqCause) :
    s.Runs (t.enterWaiting r cause) := by
  unfold State.enterWaiting
  try dsimp only
  with_reducible repeat' first | assumption | apply Runs.changeRequest | apply Runs.report | split

theorem State.Runs.reserve {s t : State} (h : s.Runs t) (r : Request) (n : Nat) (i : InstRec) : s.Runs (t.reserve r n i) := by
  unfold State.reserve
  try dsimp only
  with_reducible repeat' first
    | assumption | apply Runs.move | apply Runs.putRequest | apply Runs.setPocket | apply Runs.leavePutaway | apply Runs.report
    | split

theorem State.Runs.allocateFor {s t : State} (h : s.Runs t) (number : Nat) : s.Runs (t.allocateFor number) := by
  unfold State.allocateFor
  with_reducible repeat' first | assumption | apply Runs.reserve | apply Runs.enterWaiting | split

theorem State.Runs.allocationPass {s t : State} (h : s.Runs t) : s.Runs t.allocationPass := by
  unfold State.allocationPass
  with_reducible repeat' first | assumption | apply Runs.allocateFor | apply Runs.foldl | intro _ _ _ | split

theorem State.Runs.announce {s t : State} (h : s.Runs t) (n : Nat) : s.Runs (t.announce n) := by
  unfold State.announce
  with_reducible repeat' first | assumption | apply Runs.allocationPass | apply Runs.tryPutaway | split

theorem State.Runs.releaseTool {s t : State} (h : s.Runs t) (n : Nat) (redirected : Bool) :
    s.Runs (t.releaseTool n redirected) := by
  unfold State.releaseTool
  try dsimp only
  with_reducible repeat' first
    | assumption | apply Runs.move | apply Runs.setTool | apply Runs.report | apply Runs.setPocket | split

theorem State.Runs.afterRelease {s t : State} (h : s.Runs t) (n : Nat) : s.Runs (t.afterRelease n) := by
  unfold State.afterRelease
  with_reducible repeat' first | assumption | apply Runs.allocationPass | apply Runs.tryPutaway

theorem State.Runs.releaseToQueue {s t : State} (h : s.Runs t) (n : Nat) (redirected : Bool) :
    s.Runs (t.releaseToQueue n redirected) := by
  unfold State.releaseToQueue
  with_reducible repeat' first | assumption | apply Runs.releaseTool | apply Runs.changeRequest | split

theorem State.Runs.pickTimesOut {s t : State} (h : s.Runs t) (r : Request) (n : Nat) : s.Runs (t.pickTimesOut r n) := by
  unfold State.pickTimesOut
  try dsimp only
  with_reducible repeat' first
    | assumption | apply Runs.releaseTool | apply Runs.endRequest | apply Runs.changeRequest | apply Runs.setIsc
    | apply Runs.afterRelease | split

theorem State.Runs.firePick {s t : State} (h : s.Runs t) (number : Nat) : s.Runs (t.firePick number) := by
  unfold State.firePick
  with_reducible repeat' first | assumption | apply Runs.pickTimesOut | split

theorem State.Runs.enterAs {s t : State} (h : s.Runs t) (q : NewRequest) (number : Nat) : s.Runs (t.enterAs q number) := by
  unfold State.enterAs
  try dsimp only
  with_reducible repeat' first | assumption | apply Runs.setIsc | apply Runs.report

theorem State.Runs.evict {s t : State} (h : s.Runs t) (r : Request) : s.Runs (t.evict r) := by
  unfold State.evict
  try dsimp only
  with_reducible repeat' first | assumption | apply Runs.releaseTool | apply Runs.endRequest | split

theorem State.Runs.enter {s t : State} (h : s.Runs t) (q : NewRequest) : s.Runs (t.enter q).1 := by
  unfold State.enter
  try dsimp only
  with_reducible repeat' first
    | assumption | apply Runs.enterAs | apply Runs.allocationPass | apply Runs.evict | apply Runs.afterRelease | split

theorem State.Runs.merge {s t : State} (h : s.Runs t) (r : Request) (q : NewRequest) : s.Runs (t.merge r q) := by
  unfold State.merge
  try dsimp only
  with_reducible repeat' first
    | assumption | apply Runs.replaceRequest | apply Runs.report | apply Runs.releaseToQueue | apply Runs.afterRelease
    | apply Runs.allocationPass | split

theorem State.Runs.autoRequest {s t : State} (h : s.Runs t) (station place type : Nat) (prio : Priority) :
    s.Runs (t.autoRequest station place type prio) := by
  unfold State.autoRequest
  dsimp only
  split
  · exact h.merge _ _
  · split <;> rename_i he <;> have e := congrArg Prod.fst he <;> dsimp only at e <;> rw [← e]
    · exact h.enter _
    · exact (h.enter _).report _
    · exact (h.enter _).report _

theorem State.Runs.loseRequest {s t : State} (h : s.Runs t) (link : Option Nat) : s.Runs (t.loseRequest link) := by
  unfold State.loseRequest
  with_reducible repeat' first | assumption | apply Runs.endRequest | split

theorem State.Runs.deliverRequest {s t : State} (h : s.Runs t) (link : Option Nat) : s.Runs (t.deliverRequest link) := by
  unfold State.deliverRequest
  with_reducible repeat' first | assumption | apply Runs.endRequest | split

theorem State.Runs.cancelRequest {s t : State} (h : s.Runs t) (r : Request) (cause : ReqCause) :
    s.Runs (t.cancelRequest r cause) := by
  unfold State.cancelRequest
  with_reducible repeat' first | assumption | apply Runs.releaseTool | apply Runs.endRequest | apply Runs.afterRelease | split

theorem State.Runs.expiryTest {s t : State} (h : s.Runs t) : s.Runs t.expiryTest := by
  unfold State.expiryTest
  with_reducible repeat' first | assumption | apply Runs.endRequest | apply Runs.foldl | intro _ _ _

theorem State.Runs.clearLatePick {s t : State} (h : s.Runs t) (key : Nat) : s.Runs (t.clearLatePick key) := by
  unfold State.clearLatePick
  try dsimp only
  with_reducible repeat' first | assumption | apply Runs.setIsc

theorem State.Runs.clearLatePicksOf {s t : State} (h : s.Runs t) (n : Nat) : s.Runs (t.clearLatePicksOf n) := by
  unfold State.clearLatePicksOf
  try dsimp only
  with_reducible repeat' first | assumption | apply Runs.setIsc

theorem State.Runs.putawayTimesOut {s t : State} (h : s.Runs t) (n : Nat) (a : Assignment) :
    s.Runs (t.putawayTimesOut n a) := by
  unfold State.putawayTimesOut
  try dsimp only
  with_reducible repeat' first
    | assumption | apply Runs.forgetAssignment | apply Runs.vacateAssigned | apply Runs.move | apply Runs.leavePutaway
    | apply Runs.report | split

theorem State.Runs.firePutaway {s t : State} (h : s.Runs t) (n : Nat) : s.Runs (t.firePutaway n) := by
  unfold State.firePutaway
  with_reducible repeat' first | assumption | apply Runs.putawayTimesOut | split

/-! #### Handoff -/

theorem State.Runs.setTxns {s t : State} (h : s.Runs t) (n : Nat) (q : List Txn) : s.Runs (t.setTxns n q) := by
  unfold State.setTxns
  with_reducible repeat' first | assumption | apply Runs.setStation

theorem State.Runs.putTxn {s t : State} (h : s.Runs t) (n : Nat) (t' : Txn) : s.Runs (t.putTxn n t') := by
  unfold State.putTxn
  with_reducible repeat' first | assumption | apply Runs.setTxns

theorem State.Runs.countTxn {s t : State} (h : s.Runs t) : s.Runs t.countTxn := by
  unfold State.countTxn
  with_reducible repeat' first | assumption | apply Runs.setHoe

theorem State.Runs.reportDone {s t : State} (h : s.Runs t) (b : Broadcast) : s.Runs (t.reportDone b) := by
  unfold State.reportDone
  with_reducible repeat' first | assumption | apply Runs.report

theorem State.Runs.setBroadcasts {s t : State} (h : s.Runs t) (bs : List (Option Broadcast)) : s.Runs (t.setBroadcasts bs) := by
  unfold State.setBroadcasts
  with_reducible repeat' first | assumption | apply Runs.setHoe

theorem State.Runs.putBroadcast {s t : State} (h : s.Runs t) (b : Broadcast) : s.Runs (t.putBroadcast b) := by
  unfold State.putBroadcast
  with_reducible repeat' first | assumption | apply Runs.setBroadcasts

theorem State.Runs.settleBroadcast {s t : State} (h : s.Runs t) (b : Broadcast) : s.Runs (t.settleBroadcast b) := by
  unfold State.settleBroadcast
  with_reducible repeat' first | assumption | apply Runs.putBroadcast | apply Runs.reportDone | split

theorem State.Runs.memberResult {s t : State} (h : s.Runs t) (number : Option Nat) (n : Nat) (code : MemberCode) :
    s.Runs (t.memberResult number n code) := by
  unfold State.memberResult
  with_reducible repeat' first | assumption | apply Runs.settleBroadcast | split

theorem State.Runs.setUnacked {s t : State} (h : s.Runs t) (n : Nat) (u : Table HoldEntry) : s.Runs (t.setUnacked n u) := by
  unfold State.setUnacked
  with_reducible repeat' first | assumption | apply Runs.setStation

theorem State.Runs.noticeEnded {s t : State} (h : s.Runs t) (n id : Nat) (kind : NoticeKind) (type : Nat) (state : TxnState) :
    s.Runs (t.noticeEnded n id kind type state) := by
  unfold State.noticeEnded
  try dsimp only
  with_reducible repeat' first | assumption | apply Runs.setUnacked | split

theorem State.Runs.finishTxn {s t : State} (h : s.Runs t) (n : Nat) (t' : Txn) (state : TxnState) (code : TxnCode) :
    s.Runs (t.finishTxn n t' state code) := by
  unfold State.finishTxn
  try dsimp only
  with_reducible repeat' first
    | assumption | apply Runs.report | apply Runs.setTxns | apply Runs.memberResult | apply Runs.noticeEnded | split

theorem State.Runs.supersede {s t : State} (h : s.Runs t) (n : Nat) (old : Txn) (kind : TxnKind) (broadcast : Option Nat) :
    s.Runs (t.supersede n old kind broadcast) := by
  unfold State.supersede
  try dsimp only
  with_reducible repeat' first | assumption | apply Runs.countTxn | apply Runs.setTxns | apply Runs.finishTxn

theorem State.Runs.enterTxn {s t : State} (h : s.Runs t) (n : Nat) (kind : TxnKind) (broadcast : Option Nat) :
    s.Runs (t.enterTxn n kind broadcast) := by
  unfold State.enterTxn
  with_reducible repeat' first | assumption | apply Runs.countTxn | apply Runs.setTxns

theorem State.Runs.setOwed {s t : State} (h : s.Runs t) (tool : Nat) (owed : Bool) : s.Runs (t.setOwed tool owed) := by
  unfold State.setOwed
  with_reducible repeat' first | assumption | apply Runs.modTool

theorem State.Runs.askToolData {s t : State} (h : s.Runs t) (n place tool : Nat) : s.Runs (t.askToolData n place tool) := by
  unfold State.askToolData
  try dsimp only
  with_reducible repeat' first | assumption | apply Runs.setOwed | apply Runs.supersede | apply Runs.enterTxn | split

theorem State.Runs.askBlocked {s t : State} (h : s.Runs t) (n place tool : Nat) : s.Runs (t.askBlocked n place tool) := by
  unfold State.askBlocked
  with_reducible repeat' first | assumption | apply Runs.setOwed | apply Runs.enterTxn | split

theorem State.Runs.askUnblocked {s t : State} (h : s.Runs t) (n place tool : Nat) : s.Runs (t.askUnblocked n place tool) := by
  unfold State.askUnblocked
  with_reducible repeat' first | assumption | apply Runs.enterTxn | split

theorem State.Runs.enterOwedNotices {s t : State} (h : s.Runs t) (n : Nat) : s.Runs (t.enterOwedNotices n) := by
  unfold State.enterOwedNotices
  with_reducible repeat' first | assumption | apply Runs.enterTxn | apply Runs.foldl | intro _ _ _ | split

theorem State.Runs.fillFor {s t : State} (h : s.Runs t) (n tool : Nat) : s.Runs (t.fillFor n tool) := by
  unfold State.fillFor
  with_reducible repeat' first | assumption | apply Runs.setOwed | apply Runs.askBlocked | apply Runs.askToolData | split

theorem State.Runs.fillSpace {s t : State} (h : s.Runs t) (n : Nat) : s.Runs (t.fillSpace n) := by
  unfold State.fillSpace
  try dsimp only
  with_reducible repeat' first | assumption | apply Runs.enterOwedNotices | apply Runs.fillFor | apply Runs.foldl | intro _ _ _

theorem State.Runs.startTxn {s t : State} (h : s.Runs t) (n : Nat) : s.Runs (t.startTxn n) := by
  unfold State.startTxn
  with_reducible repeat' first | assumption | apply Runs.putTxn | split

theorem State.Runs.reaskBlocked {s t : State} (h : s.Runs t) (n : Nat) (t' : Txn) (state : TxnState) :
    s.Runs (t.reaskBlocked n t' state) := by
  unfold State.reaskBlocked
  with_reducible repeat' first | assumption | apply Runs.askBlocked | split

theorem State.Runs.endTxn {s t : State} (h : s.Runs t) (n : Nat) (t' : Txn) (state : TxnState) (code : TxnCode) :
    s.Runs (t.endTxn n t' state code) := by
  unfold State.endTxn
  with_reducible repeat' first
    | assumption | apply Runs.finishTxn | apply Runs.fillSpace | apply Runs.reaskBlocked | apply Runs.startTxn

theorem State.Runs.endQueued {s t : State} (h : s.Runs t) (n id : Nat) (state : TxnState) (code : TxnCode) :
    s.Runs (t.endQueued n id state code) := by
  unfold State.endQueued
  with_reducible repeat' first | assumption | apply Runs.endTxn | split

theorem State.Runs.cancelAt {s t : State} (h : s.Runs t) (n : Nat) (p : TxnKind → Bool) : s.Runs (t.cancelAt n p) := by
  unfold State.cancelAt
  with_reducible repeat' first | assumption | apply Runs.endQueued | apply Runs.foldl | intro _ _ _

theorem State.Runs.cancelAll {s t : State} (h : s.Runs t) (p : TxnKind → Bool) : s.Runs (t.cancelAll p) := by
  unfold State.cancelAll
  with_reducible repeat' first | assumption | apply Runs.cancelAt | apply Runs.foldl | intro _ _ _

theorem State.Runs.leftIssued {s t : State} (h : s.Runs t) (tool : Nat) : s.Runs (t.leftIssued tool) := by
  unfold State.leftIssued
  with_reducible repeat' first | assumption | apply Runs.cancelAll

theorem State.Runs.gone {s t : State} (h : s.Runs t) (tool : Nat) : s.Runs (t.gone tool) := by
  unfold State.gone
  with_reducible repeat' first | assumption | apply Runs.cancelAll

theorem State.Runs.supplyData {s t : State} (h : s.Runs t) (n place tool : Nat) : s.Runs (t.supplyData n place tool) := by
  unfold State.supplyData
  with_reducible repeat' first | assumption | apply Runs.askToolData | apply Runs.startTxn

theorem State.Runs.returnTxn {s t : State} (h : s.Runs t) (n : Nat) (t' : Txn) (behind : Txn → Bool) :
    s.Runs (t.returnTxn n t' behind) := by
  unfold State.returnTxn
  try dsimp only
  with_reducible repeat' first | assumption | apply Runs.endTxn | apply Runs.setTxns | split

theorem State.Runs.linkStopped {s t : State} (h : s.Runs t) (n : Nat) : s.Runs (t.linkStopped n) := by
  unfold State.linkStopped
  try dsimp only
  with_reducible repeat' first
    | assumption | apply Runs.endQueued | apply Runs.returnTxn | apply Runs.foldl | intro _ _ _ | split

theorem State.Runs.linkStarted {s t : State} (h : s.Runs t) (n : Nat) : s.Runs (t.linkStarted n) := by
  unfold State.linkStarted
  with_reducible repeat' first | assumption | apply Runs.enterOwedNotices | apply Runs.startTxn

theorem State.Runs.markNotice {s t : State} (h : s.Runs t) (n tool place : Nat) : s.Runs (t.markNotice n tool place) := by
  unfold State.markNotice
  try dsimp only
  with_reducible repeat' first | assumption | apply Runs.setStation | split

theorem State.Runs.delivered {s t : State} (h : s.Runs t) (n number : Nat) : s.Runs (t.delivered n number) := by
  unfold State.delivered
  with_reducible repeat' first | assumption | apply Runs.markNotice | apply Runs.endTxn | apply Runs.putTxn | split

theorem State.Runs.sendFailed {s t : State} (h : s.Runs t) (n number : Nat) : s.Runs (t.sendFailed n number) := by
  unfold State.sendFailed
  with_reducible repeat' first | assumption | apply Runs.endTxn | split

theorem State.Runs.fireHandoff {s t : State} (h : s.Runs t) (n : Nat) : s.Runs (t.fireHandoff n) := by
  unfold State.fireHandoff
  with_reducible repeat' first | assumption | apply Runs.endTxn | split

theorem State.Runs.fireHoldOff {s t : State} (h : s.Runs t) (n : Nat) : s.Runs (t.fireHoldOff n) := by
  unfold State.fireHoldOff
  with_reducible repeat' first | assumption | apply Runs.startTxn | split

theorem State.Runs.stationReply {s t : State} (h : s.Runs t) (n : Nat) (r : StationReply) : s.Runs (t.stationReply n r) := by
  unfold State.stationReply
  try dsimp only
  with_reducible repeat' first | assumption | apply Runs.setStation

theorem State.Runs.holdEntry {s t : State} (h : s.Runs t) (n type : Nat) (kind : NoticeKind) :
    s.Runs (t.holdEntry n type kind) := by
  unfold State.holdEntry
  with_reducible repeat' first | assumption | apply Runs.setUnacked | apply Runs.enterOwedNotices | apply Runs.startTxn

theorem State.Runs.inviteMember {s t : State} (h : s.Runs t) (number n type : Nat) (kind : NoticeKind) :
    s.Runs (t.inviteMember number n type kind) := by
  unfold State.inviteMember
  try dsimp only
  with_reducible repeat' first
    | assumption | apply Runs.putBroadcast | apply Runs.holdEntry | apply Runs.supersede | apply Runs.startTxn
    | apply Runs.enterTxn | split

theorem State.Runs.createBroadcast {s t : State} (h : s.Runs t) (kind : NoticeKind) (type : Nat) (members : List Nat) :
    s.Runs (t.createBroadcast kind type members).1 := by
  unfold State.createBroadcast
  try dsimp only
  with_reducible repeat' first
    | assumption | apply Runs.holdEntry | apply Runs.setHoe | apply Runs.inviteMember | apply Runs.settleBroadcast
    | apply Runs.foldl | intro _ _ _ | split

theorem State.Runs.fireBroadcast {s t : State} (h : s.Runs t) (number : Nat) : s.Runs (t.fireBroadcast number) := by
  unfold State.fireBroadcast
  try dsimp only
  with_reducible repeat' first
    | assumption | apply Runs.setTxns | apply Runs.settleBroadcast | apply Runs.foldl | intro _ _ _ | split

theorem State.Runs.afterPick {s t : State} (h : s.Runs t) (r : Request) (tool : Nat) : s.Runs (t.afterPick r tool) := by
  unfold State.afterPick
  with_reducible repeat' first | assumption | apply Runs.supplyData | apply Runs.endRequest | apply Runs.delivered | split

/-! #### Life -/

theorem State.Runs.afterRetired {s t : State} (h : s.Runs t) (n : Nat) : s.Runs (t.afterRetired n) := by
  unfold State.afterRetired
  with_reducible repeat' first | assumption | apply Runs.leavePutaway | apply Runs.settleMarks | apply Runs.gone

theorem State.Runs.spentAtLimit {s t : State} (h : s.Runs t) (n : Nat) : s.Runs (t.spentAtLimit n) := by
  unfold State.spentAtLimit
  with_reducible repeat' first | assumption | apply Runs.move | apply Runs.afterRetired | split

theorem State.Runs.lifeZero {s t : State} (h : s.Runs t) (n : Nat) : s.Runs (t.lifeZero n) := by
  unfold State.lifeZero
  with_reducible repeat' first | assumption | apply Runs.move | split

theorem State.Runs.prefetch {s t : State} (h : s.Runs t) (r : InstRec) : s.Runs (t.prefetch r) := by
  unfold State.prefetch
  with_reducible repeat' first | assumption | apply Runs.autoRequest | split

theorem State.Runs.warnTest {s t : State} (h : s.Runs t) (n : Nat) : s.Runs (t.warnTest n) := by
  unfold State.warnTest
  try dsimp only
  with_reducible repeat' first | assumption | apply Runs.setTool | apply Runs.report | apply Runs.prefetch | split

theorem State.Runs.replacement {s t : State} (h : s.Runs t) (r : InstRec) : s.Runs (t.replacement r) := by
  unfold State.replacement
  try dsimp only
  with_reducible repeat' first | assumption | apply Runs.autoRequest | split

theorem State.Runs.spentActions {s t : State} (h : s.Runs t) (n : Nat) (r : InstRec) (units : Nat) (late : Bool) :
    s.Runs (t.spentActions n r units late) := by
  unfold State.spentActions
  try dsimp only
  with_reducible repeat' first
    | assumption | apply Runs.setTool | apply Runs.askBlocked | apply Runs.startTxn | apply Runs.report
    | apply Runs.replacement | split

theorem State.Runs.zeroTest {s t : State} (h : s.Runs t) (n units : Nat) (late : Bool) : s.Runs (t.zeroTest n units late) := by
  unfold State.zeroTest
  with_reducible repeat' first
    | assumption | apply Runs.spentActions | apply Runs.lifeZero | apply Runs.announce | apply Runs.releaseToQueue
    | apply Runs.allocationPass | apply Runs.tryPutaway | apply Runs.spentAtLimit | split

theorem State.Runs.applyUsage {s t : State} (h : s.Runs t) (n units : Nat) (late : Bool) :
    s.Runs (t.applyUsage n units late) := by
  unfold State.applyUsage
  with_reducible repeat' first | assumption | apply Runs.modTool | apply Runs.warnTest | apply Runs.zeroTest

theorem State.Runs.usage {s t : State} (h : s.Runs t) (st n place units : Nat) : s.Runs (t.usage st n place units).1 := by
  unfold State.usage
  try dsimp only
  with_reducible repeat' first | assumption | apply Runs.applyUsage | split

theorem State.Runs.verifiedLife {s t : State} (h : s.Runs t) (n : Nat) : s.Runs (t.verifiedLife n) := by
  unfold State.verifiedLife
  with_reducible repeat' first | assumption | apply Runs.replacement | apply Runs.prefetch | split

/-! #### Pockets -/

theorem State.Runs.pick {s t : State} (h : s.Runs t) (c p n : Nat) : s.Runs (t.pick c p n) := by
  unfold State.pick
  try dsimp only
  with_reducible repeat' first
    | assumption | apply Runs.move | apply Runs.setPocket | apply Runs.changeRequest | apply Runs.afterPick
    | apply Runs.noticeIfFree | split

theorem State.Runs.latePick {s t : State} (h : s.Runs t) (c p n : Nat) (r : Request) : s.Runs (t.latePick c p n r) := by
  unfold State.latePick
  try dsimp only
  with_reducible repeat' first
    | assumption | apply Runs.move | apply Runs.setPocket | apply Runs.changeRequest | apply Runs.afterPick
    | apply Runs.noticeIfFree | split

theorem State.Runs.unsanctioned {s t : State} (h : s.Runs t) (c p n : Nat) : s.Runs (t.unsanctioned c p n) := by
  unfold State.unsanctioned
  try dsimp only
  with_reducible repeat' first
    | assumption | apply Runs.report | apply Runs.move | apply Runs.setPocket | apply Runs.noticeIfFree | split

theorem State.Runs.removed {s t : State} (h : s.Runs t) (c p : Nat) : s.Runs (t.removed c p) := by
  unfold State.removed
  try dsimp only
  with_reducible repeat' first
    | assumption | apply Runs.clearLatePick | apply Runs.pick | apply Runs.latePick | apply Runs.unsanctioned
    | apply Runs.setPocket | apply Runs.noticeIfFree | split

theorem State.Runs.unknownPlacement {s t : State} (h : s.Runs t) (c p : Nat) (tool : Option Nat) (custody : Option Custody) :
    s.Runs (t.unknownPlacement c p tool custody) := by
  unfold State.unknownPlacement
  try dsimp only
  with_reducible repeat' first | assumption | apply Runs.setPocket | apply Runs.report

theorem State.Runs.place {s t : State} (h : s.Runs t) (c p n : Nat) : s.Runs (t.place c p n) := by
  unfold State.place
  try dsimp only
  with_reducible repeat' first
    | assumption | apply Runs.forgetAssignment | apply Runs.unknownPlacement | apply Runs.move | apply Runs.setPocket
    | apply Runs.leavePutaway | apply Runs.announce | apply Runs.tryPutaway | split

theorem State.Runs.placed {s t : State} (h : s.Runs t) (c p : Nat) : s.Runs (t.placed c p) := by
  unfold State.placed
  with_reducible repeat' first | assumption | apply Runs.place | apply Runs.unknownPlacement | split

theorem State.Runs.faultNow {s t : State} (h : s.Runs t) (c p count : Nat) (before : PocketState) :
    s.Runs (t.faultNow c p count before) := by
  unfold State.faultNow
  try dsimp only
  with_reducible repeat' first | assumption | apply Runs.setPocket | apply Runs.report

theorem State.Runs.enterFault {s t : State} (h : s.Runs t) (c p count : Nat) : s.Runs (t.enterFault c p count) := by
  unfold State.enterFault
  try dsimp only
  with_reducible repeat' first
    | assumption | apply Runs.releaseToQueue | apply Runs.faultNow | apply Runs.afterRelease | apply Runs.forgetAssignment
    | apply Runs.tryPutaway | split

theorem State.Runs.recover {s t : State} (h : s.Runs t) (c p : Nat) : s.Runs (t.recover c p) := by
  unfold State.recover
  try dsimp only
  with_reducible repeat' first
    | assumption | apply Runs.setPocket | apply Runs.report | apply Runs.allocationPass | apply Runs.noticeIfFree | split

theorem State.Runs.presenceEvent {s t : State} (h : s.Runs t) (c p : Nat) (e : Presence) : s.Runs (t.presenceEvent c p e) := by
  unfold State.presenceEvent
  try dsimp only
  with_reducible repeat' first
    | assumption | apply Runs.placed | apply Runs.removed | apply Runs.setPocket | apply Runs.report | split

theorem State.Runs.debounce {s t : State} (h : s.Runs t) (c p : Nat) (seen : Option Presence) :
    s.Runs (t.debounce c p seen) := by
  unfold State.debounce
  try dsimp only
  with_reducible repeat' first | assumption | apply Runs.setPocket | apply Runs.presenceEvent | split

theorem State.Runs.inRangeCount {s t : State} (h : s.Runs t) (c p : Nat) : s.Runs (t.inRangeCount c p) := by
  unfold State.inRangeCount
  try dsimp only
  with_reducible repeat' first | assumption | apply Runs.recover | apply Runs.setPocket | split

theorem State.Runs.countPocket {s t : State} (h : s.Runs t) (c p count : Nat) : s.Runs (t.countPocket c p count) := by
  unfold State.countPocket
  try dsimp only
  with_reducible repeat' first
    | assumption | apply Runs.setPocket | apply Runs.enterFault | apply Runs.inRangeCount | apply Runs.debounce | split

theorem State.Runs.learnOn {s t : State} (h : s.Runs t) (c handle : Nat) (pockets learned refused failed : List Nat) :
    s.Runs (t.learnOn c handle pockets learned refused failed) := by
  unfold State.learnOn
  try dsimp only
  with_reducible repeat' first | assumption | apply Runs.setCab | apply Runs.report | split

theorem State.Runs.startAuto {s t : State} (h : s.Runs t) (c : Nat) : s.Runs (t.startAuto c) := by
  unfold State.startAuto
  with_reducible repeat' first | assumption | apply Runs.setCab | split

theorem State.Runs.restartBoundary {s t : State} (h : s.Runs t) (c : Nat) : s.Runs (t.restartBoundary c) := by
  unfold State.restartBoundary
  try dsimp only
  with_reducible repeat' first | assumption | apply Runs.setCab | apply Runs.startAuto

theorem State.Runs.takeSettings {s t : State} (h : s.Runs t) (c : Nat) (new : CabSettings) :
    s.Runs (t.takeSettings c new).1 := by
  unfold State.takeSettings
  try dsimp only
  with_reducible repeat' first | assumption | apply Runs.setPocket | apply Runs.setCab | apply Runs.foldl | intro _ _ _

theorem State.Runs.endPass {s t : State} (h : s.Runs t) (c : Nat) : s.Runs (t.endPass c) := by
  unfold State.endPass
  try dsimp only
  with_reducible repeat' first
    | assumption | apply Runs.setCab | apply Runs.takeSettings | apply Runs.learnOn | apply Runs.restartBoundary | split

theorem State.Runs.passOn {s t : State} (h : s.Runs t) (c : Nat) (pass : Pass) : s.Runs (t.passOn c pass) := by
  unfold State.passOn
  with_reducible repeat' first | assumption | apply Runs.setCab | apply Runs.endPass | apply Runs.report | split

theorem State.Runs.startSingle {s t : State} (h : s.Runs t) (c handle : Nat) : s.Runs (t.startSingle c handle) := by
  unfold State.startSingle
  with_reducible repeat' first | assumption | apply Runs.setCab | apply Runs.report | split

theorem State.Runs.takeCount {s t : State} (h : s.Runs t) (c cycles : Nat) : s.Runs (t.takeCount c cycles) := by
  unfold State.takeCount
  with_reducible repeat' first | assumption | apply Runs.countPocket | apply Runs.passOn | split

theorem State.Runs.takeLearn {s t : State} (h : s.Runs t) (c cycles : Nat) : s.Runs (t.takeLearn c cycles) := by
  unfold State.takeLearn
  try dsimp only
  with_reducible repeat' first
    | assumption | apply Runs.learnOn | apply Runs.setPocket | apply Runs.noticeIfFree | apply Runs.endPass | split

theorem State.Runs.fireBoundary {s t : State} (h : s.Runs t) (c : Nat) : s.Runs (t.fireBoundary c) := by
  unfold State.fireBoundary
  try dsimp only
  with_reducible repeat' first | assumption | apply Runs.setCab | apply Runs.startAuto | split

theorem State.Runs.departPocket {s t : State} (h : s.Runs t) (l : Location) (n : Nat) (cause : MarkCause) :
    s.Runs (t.departPocket l n cause) := by
  unfold State.departPocket
  try dsimp only
  with_reducible repeat' first | assumption | apply Runs.setPocket | apply Runs.noticeIfFree | split

theorem State.Runs.dropPocket {s t : State} (h : s.Runs t) (l : Location) (n : Nat) : s.Runs (t.dropPocket l n) := by
  unfold State.dropPocket
  try dsimp only
  with_reducible repeat' first | assumption | apply Runs.setPocket | apply Runs.noticeIfFree | split

theorem State.Runs.beginBoundaries {s t : State} (h : s.Runs t) (c : Nat) : s.Runs (t.beginBoundaries c) := by
  unfold State.beginBoundaries
  with_reducible repeat' first | assumption | apply Runs.restartBoundary | split

/-! #### StationMsgs -/

theorem State.Runs.verify {s t : State} (h : s.Runs t) (n : Nat) : s.Runs (t.verify n) := by
  unfold State.verify
  try dsimp only
  with_reducible repeat' first
    | assumption | apply Runs.setStation | apply Runs.move | apply Runs.deliverRequest | apply Runs.verifiedLife | split

theorem State.Runs.call {s t : State} (h : s.Runs t) (n type place : Nat) (prio : Priority) (offset minLife : Option Nat) :
    s.Runs (t.call n type place prio offset minLife).1 := by
  unfold State.call
  try dsimp only
  with_reducible repeat' first | assumption | apply Runs.merge | apply Runs.enter | split

theorem State.Runs.callCancel {s t : State} (h : s.Runs t) (n place type : Nat) : s.Runs (t.callCancel n place type).1 := by
  unfold State.callCancel
  try dsimp only
  with_reducible repeat' first | assumption | apply Runs.cancelRequest | split

theorem State.Runs.loaded {s t : State} (h : s.Runs t) (n tool place : Nat) : s.Runs (t.loaded n tool place).1 := by
  unfold State.loaded
  try dsimp only
  with_reducible repeat' first
    | assumption | apply Runs.move | apply Runs.setStation | apply Runs.verify | apply Runs.supplyData | split

theorem State.Runs.unload {s t : State} (h : s.Runs t) (n tool : Nat) (r : InstRec) (damaged : Bool) :
    s.Runs (t.unload n tool r damaged) := by
  unfold State.unload
  try dsimp only
  with_reducible repeat' first
    | assumption | apply Runs.setOwed | apply Runs.dropMagazine | apply Runs.cancelAt | apply Runs.transition
    | apply Runs.leftIssued | apply Runs.loseRequest | apply Runs.spentAtLimit | apply Runs.setIsc | apply Runs.tryPutaway
    | split

theorem State.Runs.unloaded {s t : State} (h : s.Runs t) (n tool place : Nat) (damaged : Bool) :
    s.Runs (t.unloaded n tool place damaged).1 := by
  unfold State.unloaded
  try dsimp only
  with_reducible repeat' first | assumption | apply Runs.loaded | apply Runs.unload | split

theorem State.Runs.confirmEntry {s t : State} (h : s.Runs t) (n tool place generation : Nat) (blocked : Bool) :
    s.Runs (t.confirmEntry n tool place generation blocked) := by
  unfold State.confirmEntry
  try dsimp only
  with_reducible repeat' first | assumption | apply Runs.setStation

theorem State.Runs.stored {s t : State} (h : s.Runs t) (n tool place generation : Nat) :
    s.Runs (t.stored n tool place generation).1 := by
  unfold State.stored
  try dsimp only
  with_reducible repeat' first | assumption | apply Runs.endTxn | apply Runs.confirmEntry | apply Runs.verify | split

theorem State.Runs.refusedData {s t : State} (h : s.Runs t) (n tool place : Nat) (code : RefusedCode) :
    s.Runs (t.refusedData n tool place code).1 := by
  unfold State.refusedData
  try dsimp only
  with_reducible repeat' first
    | assumption | apply Runs.endTxn | apply Runs.putTxn | apply Runs.returnTxn | apply Runs.startTxn | split

theorem State.Runs.holdAck {s t : State} (h : s.Runs t) (n type : Nat) : s.Runs (t.holdAck n type).1 := by
  unfold State.holdAck
  try dsimp only
  with_reducible repeat' first | assumption | apply Runs.endTxn | split

theorem State.Runs.stationEffect {s t : State} (h : s.Runs t) (n : Nat) (m : StationMsg) : s.Runs (t.stationEffect n m).1 := by
  unfold State.stationEffect
  try dsimp only
  with_reducible repeat' first
    | assumption | apply Runs.call | apply Runs.callCancel | apply Runs.usage | apply Runs.loaded | apply Runs.unloaded
    | apply Runs.stored | apply Runs.refusedData | apply Runs.holdAck | split

theorem State.Runs.stationMessage {s t : State} (h : s.Runs t) (n message : Nat) (body : List Byte) :
    s.Runs (t.stationMessage n message body) := by
  unfold State.stationMessage
  try dsimp only
  with_reducible repeat' first | assumption | apply Runs.stationEffect | apply Runs.stationReply | split

/-! ### Handoff -/

/-- What an operation of HOE leaves as it was: everything beside HOE, the mark of handoff owed of the instances (R163), and the
reports it hands to SVP. -/
def State.HandsOff (s t : State) : Prop :=
  (∃ rs, t.svp = s.svp.handed s.now rs) ∧
  (∀ m, t.tool m = s.tool m ∨ ∃ i o, s.tool m = some i ∧ t.tool m = some { i with owed := o }) ∧
  t = { s with trg := { types := s.trg.types, insts := t.trg.insts }, hoe := t.hoe, svp := t.svp }

theorem State.HandsOff.refl (s : State) : s.HandsOff s := ⟨⟨[], rfl⟩, fun _ => .inl rfl, rfl⟩

theorem State.HandsOff.trans {s t u : State} (h : s.HandsOff t) (k : t.HandsOff u) : s.HandsOff u := by
  obtain ⟨⟨rs, hr⟩, hm, ht⟩ := h
  obtain ⟨⟨qs, hq⟩, km, hu⟩ := k
  have hn : t.now = s.now := by rw [ht]; rfl
  refine ⟨⟨rs ++ qs, ?_⟩, fun m => ?_, ?_⟩
  · rw [hq, hr, hn, Svp.handed_append]
  · rcases hm m with h1 | ⟨i, o, h1, h2⟩ <;> rcases km m with k1 | ⟨j, p, k1, k2⟩
    · exact .inl (k1.trans h1)
    · exact .inr ⟨j, p, h1 ▸ k1, k2⟩
    · exact .inr ⟨i, o, h1, k1.trans h2⟩
    · obtain rfl : _ = j := by simpa [h2] using k1
      exact .inr ⟨i, p, h1, k2⟩
  · rw [hu, ht]

theorem State.HandsOff.foldl {α : Type} {s t : State} {f : State → α → State} {xs : List α} (h : s.HandsOff t)
    (k : ∀ (u : State) (x : α), s.HandsOff u → s.HandsOff (f u x)) : s.HandsOff (xs.foldl f t) := by
  induction xs generalizing t with
  | nil => exact h
  | cons x xs ih => exact ih (k t x h)

theorem State.HandsOff.report {s t : State} (h : s.HandsOff t) (r : Report) : s.HandsOff (t.report r) :=
  h.trans ⟨⟨[r], rfl⟩, fun _ => .inl rfl, rfl⟩

theorem State.HandsOff.setStation {s t : State} (h : s.HandsOff t) (n : Nat) (r : Station) : s.HandsOff (t.setStation n r) :=
  h.trans ⟨⟨[], rfl⟩, fun _ => .inl rfl, rfl⟩

theorem State.HandsOff.setHoe {s t : State} (h : s.HandsOff t) (r : Hoe) : s.HandsOff (t.setHoe r) :=
  h.trans ⟨⟨[], rfl⟩, fun _ => .inl rfl, rfl⟩

theorem State.HandsOff.setOwed {s t : State} (h : s.HandsOff t) (tool : Nat) (owed : Bool) : s.HandsOff (t.setOwed tool owed) := by
  refine h.trans ?_
  unfold State.setOwed State.modTool
  split
  · rename_i i hi
    refine ⟨⟨[], rfl⟩, fun m => ?_, rfl⟩
    rw [State.tool_setTool]
    split
    · rename_i hm
      exact .inr ⟨i, owed, hm ▸ hi, rfl⟩
    · exact .inl rfl
  · exact State.HandsOff.refl t

/-! #### Custody -/

theorem State.HandsOff.dropMagazine {s t : State} (h : s.HandsOff t) (station n : Nat) :
    s.HandsOff (t.dropMagazine station n) := by
  unfold State.dropMagazine
  try dsimp only
  with_reducible repeat' first | assumption | apply HandsOff.setStation

/-! #### Handoff -/

theorem State.HandsOff.setTxns {s t : State} (h : s.HandsOff t) (n : Nat) (q : List Txn) : s.HandsOff (t.setTxns n q) := by
  unfold State.setTxns
  with_reducible repeat' first | assumption | apply HandsOff.setStation

theorem State.HandsOff.putTxn {s t : State} (h : s.HandsOff t) (n : Nat) (t' : Txn) : s.HandsOff (t.putTxn n t') := by
  unfold State.putTxn
  with_reducible repeat' first | assumption | apply HandsOff.setTxns

theorem State.HandsOff.countTxn {s t : State} (h : s.HandsOff t) : s.HandsOff t.countTxn := by
  unfold State.countTxn
  with_reducible repeat' first | assumption | apply HandsOff.setHoe

theorem State.HandsOff.reportDone {s t : State} (h : s.HandsOff t) (b : Broadcast) : s.HandsOff (t.reportDone b) := by
  unfold State.reportDone
  with_reducible repeat' first | assumption | apply HandsOff.report

theorem State.HandsOff.setBroadcasts {s t : State} (h : s.HandsOff t) (bs : List (Option Broadcast)) :
    s.HandsOff (t.setBroadcasts bs) := by
  unfold State.setBroadcasts
  with_reducible repeat' first | assumption | apply HandsOff.setHoe

theorem State.HandsOff.putBroadcast {s t : State} (h : s.HandsOff t) (b : Broadcast) : s.HandsOff (t.putBroadcast b) := by
  unfold State.putBroadcast
  with_reducible repeat' first | assumption | apply HandsOff.setBroadcasts

theorem State.HandsOff.settleBroadcast {s t : State} (h : s.HandsOff t) (b : Broadcast) : s.HandsOff (t.settleBroadcast b) := by
  unfold State.settleBroadcast
  with_reducible repeat' first | assumption | apply HandsOff.putBroadcast | apply HandsOff.reportDone | split

theorem State.HandsOff.memberResult {s t : State} (h : s.HandsOff t) (number : Option Nat) (n : Nat) (code : MemberCode) :
    s.HandsOff (t.memberResult number n code) := by
  unfold State.memberResult
  with_reducible repeat' first | assumption | apply HandsOff.settleBroadcast | split

theorem State.HandsOff.setUnacked {s t : State} (h : s.HandsOff t) (n : Nat) (u : Table HoldEntry) :
    s.HandsOff (t.setUnacked n u) := by
  unfold State.setUnacked
  with_reducible repeat' first | assumption | apply HandsOff.setStation

theorem State.HandsOff.noticeEnded {s t : State} (h : s.HandsOff t) (n id : Nat) (kind : NoticeKind) (type : Nat) (state : TxnState) :
    s.HandsOff (t.noticeEnded n id kind type state) := by
  unfold State.noticeEnded
  try dsimp only
  with_reducible repeat' first | assumption | apply HandsOff.setUnacked | split

theorem State.HandsOff.finishTxn {s t : State} (h : s.HandsOff t) (n : Nat) (t' : Txn) (state : TxnState) (code : TxnCode) :
    s.HandsOff (t.finishTxn n t' state code) := by
  unfold State.finishTxn
  try dsimp only
  with_reducible repeat' first
    | assumption | apply HandsOff.report | apply HandsOff.setTxns | apply HandsOff.memberResult | apply HandsOff.noticeEnded
    | split

theorem State.HandsOff.supersede {s t : State} (h : s.HandsOff t) (n : Nat) (old : Txn) (kind : TxnKind) (broadcast : Option Nat) :
    s.HandsOff (t.supersede n old kind broadcast) := by
  unfold State.supersede
  try dsimp only
  with_reducible repeat' first | assumption | apply HandsOff.countTxn | apply HandsOff.setTxns | apply HandsOff.finishTxn

theorem State.HandsOff.enterTxn {s t : State} (h : s.HandsOff t) (n : Nat) (kind : TxnKind) (broadcast : Option Nat) :
    s.HandsOff (t.enterTxn n kind broadcast) := by
  unfold State.enterTxn
  with_reducible repeat' first | assumption | apply HandsOff.countTxn | apply HandsOff.setTxns

theorem State.HandsOff.askToolData {s t : State} (h : s.HandsOff t) (n place tool : Nat) :
    s.HandsOff (t.askToolData n place tool) := by
  unfold State.askToolData
  try dsimp only
  with_reducible repeat' first
    | assumption | apply HandsOff.setOwed | apply HandsOff.supersede | apply HandsOff.enterTxn | split

theorem State.HandsOff.askBlocked {s t : State} (h : s.HandsOff t) (n place tool : Nat) :
    s.HandsOff (t.askBlocked n place tool) := by
  unfold State.askBlocked
  with_reducible repeat' first | assumption | apply HandsOff.setOwed | apply HandsOff.enterTxn | split

theorem State.HandsOff.askUnblocked {s t : State} (h : s.HandsOff t) (n place tool : Nat) :
    s.HandsOff (t.askUnblocked n place tool) := by
  unfold State.askUnblocked
  with_reducible repeat' first | assumption | apply HandsOff.enterTxn | split

theorem State.HandsOff.enterOwedNotices {s t : State} (h : s.HandsOff t) (n : Nat) : s.HandsOff (t.enterOwedNotices n) := by
  unfold State.enterOwedNotices
  with_reducible repeat' first | assumption | apply HandsOff.enterTxn | apply HandsOff.foldl | intro _ _ _ | split

theorem State.HandsOff.fillFor {s t : State} (h : s.HandsOff t) (n tool : Nat) : s.HandsOff (t.fillFor n tool) := by
  unfold State.fillFor
  with_reducible repeat' first
    | assumption | apply HandsOff.setOwed | apply HandsOff.askBlocked | apply HandsOff.askToolData | split

theorem State.HandsOff.fillSpace {s t : State} (h : s.HandsOff t) (n : Nat) : s.HandsOff (t.fillSpace n) := by
  unfold State.fillSpace
  try dsimp only
  with_reducible repeat' first
    | assumption | apply HandsOff.enterOwedNotices | apply HandsOff.fillFor | apply HandsOff.foldl | intro _ _ _

theorem State.HandsOff.startTxn {s t : State} (h : s.HandsOff t) (n : Nat) : s.HandsOff (t.startTxn n) := by
  unfold State.startTxn
  with_reducible repeat' first | assumption | apply HandsOff.putTxn | split

theorem State.HandsOff.reaskBlocked {s t : State} (h : s.HandsOff t) (n : Nat) (t' : Txn) (state : TxnState) :
    s.HandsOff (t.reaskBlocked n t' state) := by
  unfold State.reaskBlocked
  with_reducible repeat' first | assumption | apply HandsOff.askBlocked | split

theorem State.HandsOff.endTxn {s t : State} (h : s.HandsOff t) (n : Nat) (t' : Txn) (state : TxnState) (code : TxnCode) :
    s.HandsOff (t.endTxn n t' state code) := by
  unfold State.endTxn
  with_reducible repeat' first
    | assumption | apply HandsOff.finishTxn | apply HandsOff.fillSpace | apply HandsOff.reaskBlocked | apply HandsOff.startTxn

theorem State.HandsOff.endQueued {s t : State} (h : s.HandsOff t) (n id : Nat) (state : TxnState) (code : TxnCode) :
    s.HandsOff (t.endQueued n id state code) := by
  unfold State.endQueued
  with_reducible repeat' first | assumption | apply HandsOff.endTxn | split

theorem State.HandsOff.cancelAt {s t : State} (h : s.HandsOff t) (n : Nat) (p : TxnKind → Bool) :
    s.HandsOff (t.cancelAt n p) := by
  unfold State.cancelAt
  with_reducible repeat' first | assumption | apply HandsOff.endQueued | apply HandsOff.foldl | intro _ _ _

theorem State.HandsOff.cancelAll {s t : State} (h : s.HandsOff t) (p : TxnKind → Bool) : s.HandsOff (t.cancelAll p) := by
  unfold State.cancelAll
  with_reducible repeat' first | assumption | apply HandsOff.cancelAt | apply HandsOff.foldl | intro _ _ _

theorem State.HandsOff.leftIssued {s t : State} (h : s.HandsOff t) (tool : Nat) : s.HandsOff (t.leftIssued tool) := by
  unfold State.leftIssued
  with_reducible repeat' first | assumption | apply HandsOff.cancelAll

theorem State.HandsOff.gone {s t : State} (h : s.HandsOff t) (tool : Nat) : s.HandsOff (t.gone tool) := by
  unfold State.gone
  with_reducible repeat' first | assumption | apply HandsOff.cancelAll

theorem State.HandsOff.supplyData {s t : State} (h : s.HandsOff t) (n place tool : Nat) :
    s.HandsOff (t.supplyData n place tool) := by
  unfold State.supplyData
  with_reducible repeat' first | assumption | apply HandsOff.askToolData | apply HandsOff.startTxn

theorem State.HandsOff.returnTxn {s t : State} (h : s.HandsOff t) (n : Nat) (t' : Txn) (behind : Txn → Bool) :
    s.HandsOff (t.returnTxn n t' behind) := by
  unfold State.returnTxn
  try dsimp only
  with_reducible repeat' first | assumption | apply HandsOff.endTxn | apply HandsOff.setTxns | split

theorem State.HandsOff.linkStopped {s t : State} (h : s.HandsOff t) (n : Nat) : s.HandsOff (t.linkStopped n) := by
  unfold State.linkStopped
  try dsimp only
  with_reducible repeat' first
    | assumption | apply HandsOff.endQueued | apply HandsOff.returnTxn | apply HandsOff.foldl | intro _ _ _ | split

theorem State.HandsOff.linkStarted {s t : State} (h : s.HandsOff t) (n : Nat) : s.HandsOff (t.linkStarted n) := by
  unfold State.linkStarted
  with_reducible repeat' first | assumption | apply HandsOff.enterOwedNotices | apply HandsOff.startTxn

theorem State.HandsOff.markNotice {s t : State} (h : s.HandsOff t) (n tool place : Nat) :
    s.HandsOff (t.markNotice n tool place) := by
  unfold State.markNotice
  try dsimp only
  with_reducible repeat' first | assumption | apply HandsOff.setStation | split

theorem State.HandsOff.delivered {s t : State} (h : s.HandsOff t) (n number : Nat) : s.HandsOff (t.delivered n number) := by
  unfold State.delivered
  with_reducible repeat' first | assumption | apply HandsOff.markNotice | apply HandsOff.endTxn | apply HandsOff.putTxn | split

theorem State.HandsOff.sendFailed {s t : State} (h : s.HandsOff t) (n number : Nat) : s.HandsOff (t.sendFailed n number) := by
  unfold State.sendFailed
  with_reducible repeat' first | assumption | apply HandsOff.endTxn | split

theorem State.HandsOff.fireHandoff {s t : State} (h : s.HandsOff t) (n : Nat) : s.HandsOff (t.fireHandoff n) := by
  unfold State.fireHandoff
  with_reducible repeat' first | assumption | apply HandsOff.endTxn | split

theorem State.HandsOff.fireHoldOff {s t : State} (h : s.HandsOff t) (n : Nat) : s.HandsOff (t.fireHoldOff n) := by
  unfold State.fireHoldOff
  with_reducible repeat' first | assumption | apply HandsOff.startTxn | split

theorem State.HandsOff.stationReply {s t : State} (h : s.HandsOff t) (n : Nat) (r : StationReply) :
    s.HandsOff (t.stationReply n r) := by
  unfold State.stationReply
  try dsimp only
  with_reducible repeat' first | assumption | apply HandsOff.setStation

theorem State.HandsOff.holdEntry {s t : State} (h : s.HandsOff t) (n type : Nat) (kind : NoticeKind) :
    s.HandsOff (t.holdEntry n type kind) := by
  unfold State.holdEntry
  with_reducible repeat' first
    | assumption | apply HandsOff.setUnacked | apply HandsOff.enterOwedNotices | apply HandsOff.startTxn

theorem State.HandsOff.inviteMember {s t : State} (h : s.HandsOff t) (number n type : Nat) (kind : NoticeKind) :
    s.HandsOff (t.inviteMember number n type kind) := by
  unfold State.inviteMember
  try dsimp only
  with_reducible repeat' first
    | assumption | apply HandsOff.putBroadcast | apply HandsOff.holdEntry | apply HandsOff.supersede | apply HandsOff.startTxn
    | apply HandsOff.enterTxn | split

theorem State.HandsOff.createBroadcast {s t : State} (h : s.HandsOff t) (kind : NoticeKind) (type : Nat) (members : List Nat) :
    s.HandsOff (t.createBroadcast kind type members).1 := by
  unfold State.createBroadcast
  try dsimp only
  with_reducible repeat' first
    | assumption | apply HandsOff.holdEntry | apply HandsOff.setHoe | apply HandsOff.inviteMember
    | apply HandsOff.settleBroadcast | apply HandsOff.foldl | intro _ _ _ | split

theorem State.HandsOff.fireBroadcast {s t : State} (h : s.HandsOff t) (number : Nat) : s.HandsOff (t.fireBroadcast number) := by
  unfold State.fireBroadcast
  try dsimp only
  with_reducible repeat' first
    | assumption | apply HandsOff.setTxns | apply HandsOff.settleBroadcast | apply HandsOff.foldl | intro _ _ _ | split

/-! ### Put-away -/

/-- What an operation of put-away leaves as it was: everything beside the pockets, ISC's assignments, waiting list and damaged
marks, and the reports it hands to SVP (R67 to R71). -/
def State.PutsAway (s t : State) : Prop :=
  (∃ rs, t.svp = s.svp.handed s.now rs) ∧
  t = { s with
    psc := { s.psc with pockets := t.psc.pockets }
    isc := { s.isc with assigned := t.isc.assigned, waiting := t.isc.waiting, damaged := t.isc.damaged }
    svp := t.svp }

theorem State.PutsAway.refl (s : State) : s.PutsAway s := ⟨⟨[], rfl⟩, rfl⟩

theorem State.PutsAway.trans {s t u : State} (h : s.PutsAway t) (k : t.PutsAway u) : s.PutsAway u := by
  obtain ⟨⟨rs, hr⟩, ht⟩ := h
  obtain ⟨⟨qs, hq⟩, hu⟩ := k
  have hn : t.now = s.now := by rw [ht]; rfl
  refine ⟨⟨rs ++ qs, ?_⟩, ?_⟩
  · rw [hq, hr, hn, Svp.handed_append]
  · rw [hu, ht]

theorem State.PutsAway.foldl {α : Type} {s t : State} {f : State → α → State} {xs : List α} (h : s.PutsAway t)
    (k : ∀ (u : State) (x : α), s.PutsAway u → s.PutsAway (f u x)) : s.PutsAway (xs.foldl f t) := by
  induction xs generalizing t with
  | nil => exact h
  | cons x xs ih => exact ih (k t x h)

theorem State.PutsAway.report {s t : State} (h : s.PutsAway t) (r : Report) : s.PutsAway (t.report r) :=
  h.trans ⟨⟨[r], rfl⟩, rfl⟩

theorem State.PutsAway.setPocket {s t : State} (h : s.PutsAway t) (c p : Nat) (r : Pocket) : s.PutsAway (t.setPocket c p r) :=
  h.trans ⟨⟨[], rfl⟩, rfl⟩

theorem State.PutsAway.setIsc {s t : State} (h : s.PutsAway t) (r : Isc)
    (hr : r = { t.isc with assigned := r.assigned, waiting := r.waiting, damaged := r.damaged }) : s.PutsAway (t.setIsc r) :=
  h.trans ⟨⟨[], rfl⟩, by rw [hr]; rfl⟩

/-! #### Putaway -/

theorem State.PutsAway.assign {s t : State} (h : s.PutsAway t) (n key : Nat) (z : Zone) : s.PutsAway (t.assign n key z) := by
  unfold State.assign
  try dsimp only
  with_reducible repeat' first | assumption | rfl | apply PutsAway.setPocket | apply PutsAway.setIsc

theorem State.PutsAway.tryPutaway {s t : State} (h : s.PutsAway t) (n : Nat) : s.PutsAway (t.tryPutaway n) := by
  unfold State.tryPutaway
  try dsimp only
  with_reducible repeat' first
    | assumption | rfl | apply PutsAway.assign | apply PutsAway.setIsc | apply PutsAway.report | split

theorem State.PutsAway.assignIfFree {s t : State} (h : s.PutsAway t) (n : Nat) : s.PutsAway (t.assignIfFree n) := by
  unfold State.assignIfFree
  try dsimp only
  with_reducible repeat' first | assumption | rfl | apply PutsAway.assign | split

theorem State.PutsAway.freeNotice {s t : State} (h : s.PutsAway t) : s.PutsAway t.freeNotice := by
  unfold State.freeNotice
  with_reducible repeat' first | assumption | rfl | apply PutsAway.assignIfFree | apply PutsAway.foldl | intro _ _ _

theorem State.PutsAway.noticeIfFree {s t : State} (h : s.PutsAway t) (c p : Nat) : s.PutsAway (t.noticeIfFree c p) := by
  unfold State.noticeIfFree
  with_reducible repeat' first | assumption | rfl | apply PutsAway.freeNotice | split

theorem State.PutsAway.vacateAssigned {s t : State} (h : s.PutsAway t) (a : Assignment) : s.PutsAway (t.vacateAssigned a) := by
  unfold State.vacateAssigned
  try dsimp only
  with_reducible repeat' first | assumption | rfl | apply PutsAway.setPocket | apply PutsAway.noticeIfFree | split

theorem State.PutsAway.forgetAssignment {s t : State} (h : s.PutsAway t) (n : Nat) : s.PutsAway (t.forgetAssignment n) := by
  unfold State.forgetAssignment
  try dsimp only
  with_reducible repeat' first | assumption | rfl | apply PutsAway.setIsc

theorem State.PutsAway.dropAssignment {s t : State} (h : s.PutsAway t) (n : Nat) : s.PutsAway (t.dropAssignment n) := by
  unfold State.dropAssignment
  with_reducible repeat' first | assumption | rfl | apply PutsAway.forgetAssignment | apply PutsAway.vacateAssigned | split

theorem State.PutsAway.leavePutaway {s t : State} (h : s.PutsAway t) (n : Nat) : s.PutsAway (t.leavePutaway n) := by
  unfold State.leavePutaway
  try dsimp only
  with_reducible repeat' first | assumption | rfl | apply PutsAway.setIsc | apply PutsAway.dropAssignment

/-! ### Issue -/

/-- What an operation of issue leaves as it was: everything beside TRG's instances, the pockets, ISC but for its settings, and the
reports it hands to SVP. -/
def State.Issues (s t : State) : Prop :=
  (∃ rs, t.svp = s.svp.handed s.now rs) ∧
  t = { s with
    trg := { types := s.trg.types, insts := t.trg.insts }
    psc := { s.psc with pockets := t.psc.pockets }
    isc := { t.isc with
      pickTimeout := s.isc.pickTimeout, expiryGrace := s.isc.expiryGrace, putawayTimeout := s.isc.putawayTimeout }
    svp := t.svp }

theorem State.Issues.refl (s : State) : s.Issues s := ⟨⟨[], rfl⟩, rfl⟩

theorem State.Issues.trans {s t u : State} (h : s.Issues t) (k : t.Issues u) : s.Issues u := by
  obtain ⟨⟨rs, hr⟩, ht⟩ := h
  obtain ⟨⟨qs, hq⟩, hu⟩ := k
  have hn : t.now = s.now := by rw [ht]; rfl
  refine ⟨⟨rs ++ qs, ?_⟩, ?_⟩
  · rw [hq, hr, hn, Svp.handed_append]
  · rw [hu, ht]

theorem State.Issues.foldl {α : Type} {s t : State} {f : State → α → State} {xs : List α} (h : s.Issues t)
    (k : ∀ (u : State) (x : α), s.Issues u → s.Issues (f u x)) : s.Issues (xs.foldl f t) := by
  induction xs generalizing t with
  | nil => exact h
  | cons x xs ih => exact ih (k t x h)

theorem State.Issues.report {s t : State} (h : s.Issues t) (r : Report) : s.Issues (t.report r) := h.trans ⟨⟨[r], rfl⟩, rfl⟩

theorem State.Issues.setTool {s t : State} (h : s.Issues t) (n : Nat) (r : InstRec) : s.Issues (t.setTool n r) :=
  h.trans ⟨⟨[], rfl⟩, rfl⟩

theorem State.Issues.setPocket {s t : State} (h : s.Issues t) (c p : Nat) (r : Pocket) : s.Issues (t.setPocket c p r) :=
  h.trans ⟨⟨[], rfl⟩, rfl⟩

theorem State.Issues.setIsc {s t : State} (h : s.Issues t) (r : Isc)
    (hr : r = { r with
      pickTimeout := t.isc.pickTimeout, expiryGrace := t.isc.expiryGrace, putawayTimeout := t.isc.putawayTimeout }) :
    s.Issues (t.setIsc r) := h.trans ⟨⟨[], rfl⟩, by rw [hr]; rfl⟩

/-! #### Custody -/

theorem State.Issues.transition {s t : State} (h : s.Issues t) (n : Nat) (r : InstRec) (m : Move) (also : InstRec → InstRec) :
    s.Issues (t.transition n r m also) := by
  unfold State.transition
  with_reducible repeat' first | assumption | rfl | apply Issues.setTool | apply Issues.report

theorem State.Issues.move {s t : State} (h : s.Issues t) (n : Nat) (r : InstRec) (m : Move) : s.Issues (t.move n r m) := by
  unfold State.move
  with_reducible repeat' first | assumption | rfl | apply Issues.transition

theorem State.Issues.settleMarkAt {s t : State} (h : s.Issues t) (n key : Nat) : s.Issues (t.settleMarkAt n key) := by
  unfold State.settleMarkAt
  try dsimp only
  with_reducible repeat' first | assumption | rfl | apply Issues.setPocket | apply Issues.report | split

theorem State.Issues.settleMarks {s t : State} (h : s.Issues t) (n : Nat) : s.Issues (t.settleMarks n) := by
  unfold State.settleMarks
  with_reducible repeat' first | assumption | rfl | apply Issues.settleMarkAt | apply Issues.foldl | intro _ _ _

/-! #### Putaway -/

theorem State.Issues.assign {s t : State} (h : s.Issues t) (n key : Nat) (z : Zone) : s.Issues (t.assign n key z) := by
  unfold State.assign
  try dsimp only
  with_reducible repeat' first | assumption | rfl | apply Issues.setPocket | apply Issues.setIsc

theorem State.Issues.tryPutaway {s t : State} (h : s.Issues t) (n : Nat) : s.Issues (t.tryPutaway n) := by
  unfold State.tryPutaway
  try dsimp only
  with_reducible repeat' first | assumption | rfl | apply Issues.assign | apply Issues.setIsc | apply Issues.report | split

theorem State.Issues.assignIfFree {s t : State} (h : s.Issues t) (n : Nat) : s.Issues (t.assignIfFree n) := by
  unfold State.assignIfFree
  try dsimp only
  with_reducible repeat' first | assumption | rfl | apply Issues.assign | split

theorem State.Issues.freeNotice {s t : State} (h : s.Issues t) : s.Issues t.freeNotice := by
  unfold State.freeNotice
  with_reducible repeat' first | assumption | rfl | apply Issues.assignIfFree | apply Issues.foldl | intro _ _ _

theorem State.Issues.noticeIfFree {s t : State} (h : s.Issues t) (c p : Nat) : s.Issues (t.noticeIfFree c p) := by
  unfold State.noticeIfFree
  with_reducible repeat' first | assumption | rfl | apply Issues.freeNotice | split

theorem State.Issues.vacateAssigned {s t : State} (h : s.Issues t) (a : Assignment) : s.Issues (t.vacateAssigned a) := by
  unfold State.vacateAssigned
  try dsimp only
  with_reducible repeat' first | assumption | rfl | apply Issues.setPocket | apply Issues.noticeIfFree | split

theorem State.Issues.forgetAssignment {s t : State} (h : s.Issues t) (n : Nat) : s.Issues (t.forgetAssignment n) := by
  unfold State.forgetAssignment
  try dsimp only
  with_reducible repeat' first | assumption | rfl | apply Issues.setIsc

theorem State.Issues.dropAssignment {s t : State} (h : s.Issues t) (n : Nat) : s.Issues (t.dropAssignment n) := by
  unfold State.dropAssignment
  with_reducible repeat' first | assumption | rfl | apply Issues.forgetAssignment | apply Issues.vacateAssigned | split

theorem State.Issues.leavePutaway {s t : State} (h : s.Issues t) (n : Nat) : s.Issues (t.leavePutaway n) := by
  unfold State.leavePutaway
  try dsimp only
  with_reducible repeat' first | assumption | rfl | apply Issues.setIsc | apply Issues.dropAssignment

/-! #### Requests -/

theorem State.Issues.setQueue {s t : State} (h : s.Issues t) (q : List Request) : s.Issues (t.setQueue q) := by
  unfold State.setQueue
  try dsimp only
  with_reducible repeat' first | assumption | rfl | apply Issues.setIsc

theorem State.Issues.putRequest {s t : State} (h : s.Issues t) (r : Request) : s.Issues (t.putRequest r) := by
  unfold State.putRequest
  with_reducible repeat' first | assumption | rfl | apply Issues.setQueue

theorem State.Issues.replaceRequest {s t : State} (h : s.Issues t) (r : Request) : s.Issues (t.replaceRequest r) := by
  unfold State.replaceRequest
  with_reducible repeat' first | assumption | rfl | apply Issues.setQueue

theorem State.Issues.endRequest {s t : State} (h : s.Issues t) (r : Request) (state : ReqState) (cause : ReqCause) :
    s.Issues (t.endRequest r state cause) := by
  unfold State.endRequest
  try dsimp only
  with_reducible repeat' first | assumption | rfl | apply Issues.report | apply Issues.setQueue

theorem State.Issues.changeRequest {s t : State} (h : s.Issues t) (r : Request) (cause : ReqCause) :
    s.Issues (t.changeRequest r cause) := by
  unfold State.changeRequest
  with_reducible repeat' first | assumption | rfl | apply Issues.putRequest | apply Issues.report

theorem State.Issues.enterWaiting {s t : State} (h : s.Issues t) (r : Request) (cause : ReqCause) :
    s.Issues (t.enterWaiting r cause) := by
  unfold State.enterWaiting
  try dsimp only
  with_reducible repeat' first | assumption | rfl | apply Issues.changeRequest | apply Issues.report | split

theorem State.Issues.reserve {s t : State} (h : s.Issues t) (r : Request) (n : Nat) (i : InstRec) :
    s.Issues (t.reserve r n i) := by
  unfold State.reserve
  try dsimp only
  with_reducible repeat' first
    | assumption | rfl | apply Issues.move | apply Issues.putRequest | apply Issues.setPocket | apply Issues.leavePutaway
    | apply Issues.report | split

theorem State.Issues.allocateFor {s t : State} (h : s.Issues t) (number : Nat) : s.Issues (t.allocateFor number) := by
  unfold State.allocateFor
  with_reducible repeat' first | assumption | rfl | apply Issues.reserve | apply Issues.enterWaiting | split

theorem State.Issues.allocationPass {s t : State} (h : s.Issues t) : s.Issues t.allocationPass := by
  unfold State.allocationPass
  with_reducible repeat' first | assumption | rfl | apply Issues.allocateFor | apply Issues.foldl | intro _ _ _ | split

theorem State.Issues.announce {s t : State} (h : s.Issues t) (n : Nat) : s.Issues (t.announce n) := by
  unfold State.announce
  with_reducible repeat' first | assumption | rfl | apply Issues.allocationPass | apply Issues.tryPutaway | split

theorem State.Issues.releaseTool {s t : State} (h : s.Issues t) (n : Nat) (redirected : Bool) :
    s.Issues (t.releaseTool n redirected) := by
  unfold State.releaseTool
  try dsimp only
  with_reducible repeat' first
    | assumption | rfl | apply Issues.move | apply Issues.setTool | apply Issues.report | apply Issues.setPocket | split

theorem State.Issues.afterRelease {s t : State} (h : s.Issues t) (n : Nat) : s.Issues (t.afterRelease n) := by
  unfold State.afterRelease
  with_reducible repeat' first | assumption | rfl | apply Issues.allocationPass | apply Issues.tryPutaway

theorem State.Issues.releaseToQueue {s t : State} (h : s.Issues t) (n : Nat) (redirected : Bool) :
    s.Issues (t.releaseToQueue n redirected) := by
  unfold State.releaseToQueue
  with_reducible repeat' first | assumption | rfl | apply Issues.releaseTool | apply Issues.changeRequest | split

theorem State.Issues.pickTimesOut {s t : State} (h : s.Issues t) (r : Request) (n : Nat) : s.Issues (t.pickTimesOut r n) := by
  unfold State.pickTimesOut
  try dsimp only
  with_reducible repeat' first
    | assumption | rfl | apply Issues.releaseTool | apply Issues.endRequest | apply Issues.changeRequest | apply Issues.setIsc
    | apply Issues.afterRelease | split

theorem State.Issues.firePick {s t : State} (h : s.Issues t) (number : Nat) : s.Issues (t.firePick number) := by
  unfold State.firePick
  with_reducible repeat' first | assumption | rfl | apply Issues.pickTimesOut | split

theorem State.Issues.enterAs {s t : State} (h : s.Issues t) (q : NewRequest) (number : Nat) :
    s.Issues (t.enterAs q number) := by
  unfold State.enterAs
  try dsimp only
  with_reducible repeat' first | assumption | rfl | apply Issues.setIsc | apply Issues.report

theorem State.Issues.evict {s t : State} (h : s.Issues t) (r : Request) : s.Issues (t.evict r) := by
  unfold State.evict
  try dsimp only
  with_reducible repeat' first | assumption | rfl | apply Issues.releaseTool | apply Issues.endRequest | split

theorem State.Issues.enter {s t : State} (h : s.Issues t) (q : NewRequest) : s.Issues (t.enter q).1 := by
  unfold State.enter
  try dsimp only
  with_reducible repeat' first
    | assumption | rfl | apply Issues.enterAs | apply Issues.allocationPass | apply Issues.evict | apply Issues.afterRelease
    | split

theorem State.Issues.merge {s t : State} (h : s.Issues t) (r : Request) (q : NewRequest) : s.Issues (t.merge r q) := by
  unfold State.merge
  try dsimp only
  with_reducible repeat' first
    | assumption | rfl | apply Issues.replaceRequest | apply Issues.report | apply Issues.releaseToQueue
    | apply Issues.afterRelease | apply Issues.allocationPass | split

theorem State.Issues.autoRequest {s t : State} (h : s.Issues t) (station place type : Nat) (prio : Priority) :
    s.Issues (t.autoRequest station place type prio) := by
  unfold State.autoRequest
  dsimp only
  split
  · exact h.merge _ _
  · split <;> rename_i he <;> have e := congrArg Prod.fst he <;> dsimp only at e <;> rw [← e]
    · exact h.enter _
    · exact (h.enter _).report _
    · exact (h.enter _).report _

theorem State.Issues.loseRequest {s t : State} (h : s.Issues t) (link : Option Nat) : s.Issues (t.loseRequest link) := by
  unfold State.loseRequest
  with_reducible repeat' first | assumption | rfl | apply Issues.endRequest | split

theorem State.Issues.deliverRequest {s t : State} (h : s.Issues t) (link : Option Nat) : s.Issues (t.deliverRequest link) := by
  unfold State.deliverRequest
  with_reducible repeat' first | assumption | rfl | apply Issues.endRequest | split

theorem State.Issues.cancelRequest {s t : State} (h : s.Issues t) (r : Request) (cause : ReqCause) :
    s.Issues (t.cancelRequest r cause) := by
  unfold State.cancelRequest
  with_reducible repeat' first
    | assumption | rfl | apply Issues.releaseTool | apply Issues.endRequest | apply Issues.afterRelease | split

theorem State.Issues.expiryTest {s t : State} (h : s.Issues t) : s.Issues t.expiryTest := by
  unfold State.expiryTest
  with_reducible repeat' first | assumption | rfl | apply Issues.endRequest | apply Issues.foldl | intro _ _ _

theorem State.Issues.clearLatePick {s t : State} (h : s.Issues t) (key : Nat) : s.Issues (t.clearLatePick key) := by
  unfold State.clearLatePick
  try dsimp only
  with_reducible repeat' first | assumption | rfl | apply Issues.setIsc

theorem State.Issues.clearLatePicksOf {s t : State} (h : s.Issues t) (n : Nat) : s.Issues (t.clearLatePicksOf n) := by
  unfold State.clearLatePicksOf
  try dsimp only
  with_reducible repeat' first | assumption | rfl | apply Issues.setIsc

theorem State.Issues.putawayTimesOut {s t : State} (h : s.Issues t) (n : Nat) (a : Assignment) :
    s.Issues (t.putawayTimesOut n a) := by
  unfold State.putawayTimesOut
  try dsimp only
  with_reducible repeat' first
    | assumption | rfl | apply Issues.forgetAssignment | apply Issues.vacateAssigned | apply Issues.move
    | apply Issues.leavePutaway | apply Issues.report | split

theorem State.Issues.firePutaway {s t : State} (h : s.Issues t) (n : Nat) : s.Issues (t.firePutaway n) := by
  unfold State.firePutaway
  with_reducible repeat' first | assumption | rfl | apply Issues.putawayTimesOut | split

end Sys2Proof.Machine
end

