-- ==== Sys2Proof/Laws/Canonical.lean ====
section
/-! SUPPORT. Every shared operation of the register, the crib, issue, handoff and life keeps the tables of instances and pockets in
canonical form; one lemma for each operation. -/

namespace Sys2Proof.Machine

open State

/-- The tables of instances and pockets are in canonical form. -/
def State.TablesSorted (s : State) : Prop := tableSorted s.trg.insts = true ∧ tableSorted s.psc.pockets = true

theorem State.TablesSorted.foldl {α : Type} {t : State} {f : State → α → State} {xs : List α} (h : t.TablesSorted)
    (k : ∀ (u : State) (x : α), u.TablesSorted → (f u x).TablesSorted) : (xs.foldl f t).TablesSorted := by
  induction xs generalizing t with
  | nil => exact h
  | cons x xs ih => exact ih (k t x h)

theorem State.TablesSorted.report {t : State} (h : t.TablesSorted) (r : Report) : (t.report r).TablesSorted := h

theorem State.TablesSorted.setIsc {t : State} (h : t.TablesSorted) (r : Isc) : (t.setIsc r).TablesSorted := h

theorem State.TablesSorted.setHoe {t : State} (h : t.TablesSorted) (r : Hoe) : (t.setHoe r).TablesSorted := h

theorem State.TablesSorted.setCab {t : State} (h : t.TablesSorted) (c : Nat) (r : Cabinet) : (t.setCab c r).TablesSorted := h

theorem State.TablesSorted.setStation {t : State} (h : t.TablesSorted) (n : Nat) (r : Station) :
    (t.setStation n r).TablesSorted := h

theorem State.TablesSorted.setTool {t : State} (h : t.TablesSorted) (n : Nat) (r : InstRec) : (t.setTool n r).TablesSorted :=
  ⟨tableSorted_tset n r h.1, h.2⟩

theorem State.TablesSorted.delTool {t : State} (h : t.TablesSorted) (n : Nat) : (t.delTool n).TablesSorted :=
  ⟨tableSorted_tdel n h.1, h.2⟩

theorem State.TablesSorted.setPocket {t : State} (h : t.TablesSorted) (c p : Nat) (r : Pocket) :
    (t.setPocket c p r).TablesSorted := ⟨h.1, tableSorted_dset _ r h.2⟩

theorem State.TablesSorted.modTool {t : State} (h : t.TablesSorted) (n : Nat) (f : InstRec → InstRec) :
    (t.modTool n f).TablesSorted := by
  unfold State.modTool
  split
  · exact h.setTool _ _
  · exact h

/-! #### Custody -/

theorem State.TablesSorted.transition {t : State} (h : t.TablesSorted) (n : Nat) (r : InstRec) (m : Move) (also : InstRec → InstRec) :
    (t.transition n r m also).TablesSorted := by
  unfold State.transition
  with_reducible repeat' first | assumption | apply TablesSorted.setTool | apply TablesSorted.report

theorem State.TablesSorted.move {t : State} (h : t.TablesSorted) (n : Nat) (r : InstRec) (m : Move) :
    (t.move n r m).TablesSorted := by
  unfold State.move
  with_reducible repeat' first | assumption | apply TablesSorted.transition

theorem State.TablesSorted.settleMarkAt {t : State} (h : t.TablesSorted) (n key : Nat) :
    (t.settleMarkAt n key).TablesSorted := by
  unfold State.settleMarkAt
  try dsimp only
  with_reducible repeat' first | assumption | apply TablesSorted.setPocket | apply TablesSorted.report | split

theorem State.TablesSorted.settleMarks {t : State} (h : t.TablesSorted) (n : Nat) : (t.settleMarks n).TablesSorted := by
  unfold State.settleMarks
  with_reducible repeat' first | assumption | apply TablesSorted.settleMarkAt | apply TablesSorted.foldl | intro _ _ _

theorem State.TablesSorted.dropMagazine {t : State} (h : t.TablesSorted) (station n : Nat) :
    (t.dropMagazine station n).TablesSorted := by
  unfold State.dropMagazine
  try dsimp only
  with_reducible repeat' first | assumption | apply TablesSorted.setStation

/-! #### Putaway -/

theorem State.TablesSorted.assign {t : State} (h : t.TablesSorted) (n key : Nat) (z : Zone) :
    (t.assign n key z).TablesSorted := by
  unfold State.assign
  try dsimp only
  with_reducible repeat' first | assumption | apply TablesSorted.setPocket | apply TablesSorted.setIsc

theorem State.TablesSorted.tryPutaway {t : State} (h : t.TablesSorted) (n : Nat) : (t.tryPutaway n).TablesSorted := by
  unfold State.tryPutaway
  try dsimp only
  with_reducible repeat' first
    | assumption | apply TablesSorted.assign | apply TablesSorted.setIsc | apply TablesSorted.report | split

theorem State.TablesSorted.assignIfFree {t : State} (h : t.TablesSorted) (n : Nat) : (t.assignIfFree n).TablesSorted := by
  unfold State.assignIfFree
  try dsimp only
  with_reducible repeat' first | assumption | apply TablesSorted.assign | split

theorem State.TablesSorted.freeNotice {t : State} (h : t.TablesSorted) : t.freeNotice.TablesSorted := by
  unfold State.freeNotice
  with_reducible repeat' first | assumption | apply TablesSorted.assignIfFree | apply TablesSorted.foldl | intro _ _ _

theorem State.TablesSorted.noticeIfFree {t : State} (h : t.TablesSorted) (c p : Nat) : (t.noticeIfFree c p).TablesSorted := by
  unfold State.noticeIfFree
  with_reducible repeat' first | assumption | apply TablesSorted.freeNotice | split

theorem State.TablesSorted.vacateAssigned {t : State} (h : t.TablesSorted) (a : Assignment) :
    (t.vacateAssigned a).TablesSorted := by
  unfold State.vacateAssigned
  try dsimp only
  with_reducible repeat' first | assumption | apply TablesSorted.setPocket | apply TablesSorted.noticeIfFree | split

theorem State.TablesSorted.forgetAssignment {t : State} (h : t.TablesSorted) (n : Nat) :
    (t.forgetAssignment n).TablesSorted := by
  unfold State.forgetAssignment
  try dsimp only
  with_reducible repeat' first | assumption | apply TablesSorted.setIsc

theorem State.TablesSorted.dropAssignment {t : State} (h : t.TablesSorted) (n : Nat) : (t.dropAssignment n).TablesSorted := by
  unfold State.dropAssignment
  with_reducible repeat' first | assumption | apply TablesSorted.forgetAssignment | apply TablesSorted.vacateAssigned | split

theorem State.TablesSorted.leavePutaway {t : State} (h : t.TablesSorted) (n : Nat) : (t.leavePutaway n).TablesSorted := by
  unfold State.leavePutaway
  try dsimp only
  with_reducible repeat' first | assumption | apply TablesSorted.setIsc | apply TablesSorted.dropAssignment

/-! #### Requests -/

theorem State.TablesSorted.setQueue {t : State} (h : t.TablesSorted) (q : List Request) : (t.setQueue q).TablesSorted := by
  unfold State.setQueue
  try dsimp only
  with_reducible repeat' first | assumption | apply TablesSorted.setIsc

theorem State.TablesSorted.putRequest {t : State} (h : t.TablesSorted) (r : Request) : (t.putRequest r).TablesSorted := by
  unfold State.putRequest
  with_reducible repeat' first | assumption | apply TablesSorted.setQueue

theorem State.TablesSorted.replaceRequest {t : State} (h : t.TablesSorted) (r : Request) :
    (t.replaceRequest r).TablesSorted := by
  unfold State.replaceRequest
  with_reducible repeat' first | assumption | apply TablesSorted.setQueue

theorem State.TablesSorted.endRequest {t : State} (h : t.TablesSorted) (r : Request) (state : ReqState) (cause : ReqCause) :
    (t.endRequest r state cause).TablesSorted := by
  unfold State.endRequest
  try dsimp only
  with_reducible repeat' first | assumption | apply TablesSorted.report | apply TablesSorted.setQueue

theorem State.TablesSorted.changeRequest {t : State} (h : t.TablesSorted) (r : Request) (cause : ReqCause) :
    (t.changeRequest r cause).TablesSorted := by
  unfold State.changeRequest
  with_reducible repeat' first | assumption | apply TablesSorted.putRequest | apply TablesSorted.report

theorem State.TablesSorted.enterWaiting {t : State} (h : t.TablesSorted) (r : Request) (cause : ReqCause) :
    (t.enterWaiting r cause).TablesSorted := by
  unfold State.enterWaiting
  try dsimp only
  with_reducible repeat' first | assumption | apply TablesSorted.changeRequest | apply TablesSorted.report | split

theorem State.TablesSorted.reserve {t : State} (h : t.TablesSorted) (r : Request) (n : Nat) (i : InstRec) :
    (t.reserve r n i).TablesSorted := by
  unfold State.reserve
  try dsimp only
  with_reducible repeat' first
    | assumption | apply TablesSorted.move | apply TablesSorted.putRequest | apply TablesSorted.setPocket
    | apply TablesSorted.leavePutaway | apply TablesSorted.report | split

theorem State.TablesSorted.allocateFor {t : State} (h : t.TablesSorted) (number : Nat) :
    (t.allocateFor number).TablesSorted := by
  unfold State.allocateFor
  with_reducible repeat' first | assumption | apply TablesSorted.reserve | apply TablesSorted.enterWaiting | split

theorem State.TablesSorted.allocationPass {t : State} (h : t.TablesSorted) : t.allocationPass.TablesSorted := by
  unfold State.allocationPass
  with_reducible repeat' first | assumption | apply TablesSorted.allocateFor | apply TablesSorted.foldl | intro _ _ _ | split

theorem State.TablesSorted.announce {t : State} (h : t.TablesSorted) (n : Nat) : (t.announce n).TablesSorted := by
  unfold State.announce
  with_reducible repeat' first | assumption | apply TablesSorted.allocationPass | apply TablesSorted.tryPutaway | split

theorem State.TablesSorted.releaseTool {t : State} (h : t.TablesSorted) (n : Nat) (redirected : Bool) :
    (t.releaseTool n redirected).TablesSorted := by
  unfold State.releaseTool
  try dsimp only
  with_reducible repeat' first
    | assumption | apply TablesSorted.move | apply TablesSorted.setTool | apply TablesSorted.report
    | apply TablesSorted.setPocket | split

theorem State.TablesSorted.afterRelease {t : State} (h : t.TablesSorted) (n : Nat) : (t.afterRelease n).TablesSorted := by
  unfold State.afterRelease
  with_reducible repeat' first | assumption | apply TablesSorted.allocationPass | apply TablesSorted.tryPutaway

theorem State.TablesSorted.releaseToQueue {t : State} (h : t.TablesSorted) (n : Nat) (redirected : Bool) :
    (t.releaseToQueue n redirected).TablesSorted := by
  unfold State.releaseToQueue
  with_reducible repeat' first | assumption | apply TablesSorted.releaseTool | apply TablesSorted.changeRequest | split

theorem State.TablesSorted.pickTimesOut {t : State} (h : t.TablesSorted) (r : Request) (n : Nat) :
    (t.pickTimesOut r n).TablesSorted := by
  unfold State.pickTimesOut
  try dsimp only
  with_reducible repeat' first
    | assumption | apply TablesSorted.releaseTool | apply TablesSorted.endRequest | apply TablesSorted.changeRequest
    | apply TablesSorted.setIsc | apply TablesSorted.afterRelease | split

theorem State.TablesSorted.firePick {t : State} (h : t.TablesSorted) (number : Nat) : (t.firePick number).TablesSorted := by
  unfold State.firePick
  with_reducible repeat' first | assumption | apply TablesSorted.pickTimesOut | split

theorem State.TablesSorted.enterAs {t : State} (h : t.TablesSorted) (q : NewRequest) (number : Nat) :
    (t.enterAs q number).TablesSorted := by
  unfold State.enterAs
  try dsimp only
  with_reducible repeat' first | assumption | apply TablesSorted.setIsc | apply TablesSorted.report

theorem State.TablesSorted.evict {t : State} (h : t.TablesSorted) (r : Request) : (t.evict r).TablesSorted := by
  unfold State.evict
  try dsimp only
  with_reducible repeat' first | assumption | apply TablesSorted.releaseTool | apply TablesSorted.endRequest | split

theorem State.TablesSorted.enter {t : State} (h : t.TablesSorted) (q : NewRequest) : (t.enter q).1.TablesSorted := by
  unfold State.enter
  try dsimp only
  with_reducible repeat' first
    | assumption | apply TablesSorted.enterAs | apply TablesSorted.allocationPass | apply TablesSorted.evict
    | apply TablesSorted.afterRelease | split

theorem State.TablesSorted.merge {t : State} (h : t.TablesSorted) (r : Request) (q : NewRequest) :
    (t.merge r q).TablesSorted := by
  unfold State.merge
  try dsimp only
  with_reducible repeat' first
    | assumption | apply TablesSorted.replaceRequest | apply TablesSorted.report | apply TablesSorted.releaseToQueue
    | apply TablesSorted.afterRelease | apply TablesSorted.allocationPass | split

theorem State.TablesSorted.autoRequest {t : State} (h : t.TablesSorted) (station place type : Nat) (prio : Priority) :
    (t.autoRequest station place type prio).TablesSorted := by
  unfold State.autoRequest
  dsimp only
  split
  · exact h.merge _ _
  · split <;> rename_i he <;> have e := congrArg Prod.fst he <;> dsimp only at e <;> rw [← e]
    · exact h.enter _
    · exact (h.enter _).report _
    · exact (h.enter _).report _

theorem State.TablesSorted.loseRequest {t : State} (h : t.TablesSorted) (link : Option Nat) :
    (t.loseRequest link).TablesSorted := by
  unfold State.loseRequest
  with_reducible repeat' first | assumption | apply TablesSorted.endRequest | split

theorem State.TablesSorted.deliverRequest {t : State} (h : t.TablesSorted) (link : Option Nat) :
    (t.deliverRequest link).TablesSorted := by
  unfold State.deliverRequest
  with_reducible repeat' first | assumption | apply TablesSorted.endRequest | split

theorem State.TablesSorted.cancelRequest {t : State} (h : t.TablesSorted) (r : Request) (cause : ReqCause) :
    (t.cancelRequest r cause).TablesSorted := by
  unfold State.cancelRequest
  with_reducible repeat' first
    | assumption | apply TablesSorted.releaseTool | apply TablesSorted.endRequest | apply TablesSorted.afterRelease | split

theorem State.TablesSorted.expiryTest {t : State} (h : t.TablesSorted) : t.expiryTest.TablesSorted := by
  unfold State.expiryTest
  with_reducible repeat' first | assumption | apply TablesSorted.endRequest | apply TablesSorted.foldl | intro _ _ _

theorem State.TablesSorted.clearLatePick {t : State} (h : t.TablesSorted) (key : Nat) : (t.clearLatePick key).TablesSorted := by
  unfold State.clearLatePick
  try dsimp only
  with_reducible repeat' first | assumption | apply TablesSorted.setIsc

theorem State.TablesSorted.clearLatePicksOf {t : State} (h : t.TablesSorted) (n : Nat) :
    (t.clearLatePicksOf n).TablesSorted := by
  unfold State.clearLatePicksOf
  try dsimp only
  with_reducible repeat' first | assumption | apply TablesSorted.setIsc

theorem State.TablesSorted.putawayTimesOut {t : State} (h : t.TablesSorted) (n : Nat) (a : Assignment) :
    (t.putawayTimesOut n a).TablesSorted := by
  unfold State.putawayTimesOut
  try dsimp only
  with_reducible repeat' first
    | assumption | apply TablesSorted.forgetAssignment | apply TablesSorted.vacateAssigned | apply TablesSorted.move
    | apply TablesSorted.leavePutaway | apply TablesSorted.report | split

theorem State.TablesSorted.firePutaway {t : State} (h : t.TablesSorted) (n : Nat) : (t.firePutaway n).TablesSorted := by
  unfold State.firePutaway
  with_reducible repeat' first | assumption | apply TablesSorted.putawayTimesOut | split

/-! #### Handoff -/

theorem State.TablesSorted.setTxns {t : State} (h : t.TablesSorted) (n : Nat) (q : List Txn) :
    (t.setTxns n q).TablesSorted := by
  unfold State.setTxns
  with_reducible repeat' first | assumption | apply TablesSorted.setStation

theorem State.TablesSorted.putTxn {t : State} (h : t.TablesSorted) (n : Nat) (t' : Txn) : (t.putTxn n t').TablesSorted := by
  unfold State.putTxn
  with_reducible repeat' first | assumption | apply TablesSorted.setTxns

theorem State.TablesSorted.countTxn {t : State} (h : t.TablesSorted) : t.countTxn.TablesSorted := by
  unfold State.countTxn
  with_reducible repeat' first | assumption | apply TablesSorted.setHoe

theorem State.TablesSorted.reportDone {t : State} (h : t.TablesSorted) (b : Broadcast) : (t.reportDone b).TablesSorted := by
  unfold State.reportDone
  with_reducible repeat' first | assumption | apply TablesSorted.report

theorem State.TablesSorted.setBroadcasts {t : State} (h : t.TablesSorted) (bs : List (Option Broadcast)) :
    (t.setBroadcasts bs).TablesSorted := by
  unfold State.setBroadcasts
  with_reducible repeat' first | assumption | apply TablesSorted.setHoe

theorem State.TablesSorted.putBroadcast {t : State} (h : t.TablesSorted) (b : Broadcast) : (t.putBroadcast b).TablesSorted := by
  unfold State.putBroadcast
  with_reducible repeat' first | assumption | apply TablesSorted.setBroadcasts

theorem State.TablesSorted.settleBroadcast {t : State} (h : t.TablesSorted) (b : Broadcast) :
    (t.settleBroadcast b).TablesSorted := by
  unfold State.settleBroadcast
  with_reducible repeat' first | assumption | apply TablesSorted.putBroadcast | apply TablesSorted.reportDone | split

theorem State.TablesSorted.memberResult {t : State} (h : t.TablesSorted) (number : Option Nat) (n : Nat) (code : MemberCode) :
    (t.memberResult number n code).TablesSorted := by
  unfold State.memberResult
  with_reducible repeat' first | assumption | apply TablesSorted.settleBroadcast | split

theorem State.TablesSorted.setUnacked {t : State} (h : t.TablesSorted) (n : Nat) (u : Table HoldEntry) :
    (t.setUnacked n u).TablesSorted := by
  unfold State.setUnacked
  with_reducible repeat' first | assumption | apply TablesSorted.setStation

theorem State.TablesSorted.noticeEnded {t : State} (h : t.TablesSorted) (n id : Nat) (kind : NoticeKind) (type : Nat) (state : TxnState) :
    (t.noticeEnded n id kind type state).TablesSorted := by
  unfold State.noticeEnded
  try dsimp only
  with_reducible repeat' first | assumption | apply TablesSorted.setUnacked | split

theorem State.TablesSorted.finishTxn {t : State} (h : t.TablesSorted) (n : Nat) (t' : Txn) (state : TxnState) (code : TxnCode) :
    (t.finishTxn n t' state code).TablesSorted := by
  unfold State.finishTxn
  try dsimp only
  with_reducible repeat' first
    | assumption | apply TablesSorted.report | apply TablesSorted.setTxns | apply TablesSorted.memberResult
    | apply TablesSorted.noticeEnded | split

theorem State.TablesSorted.supersede {t : State} (h : t.TablesSorted) (n : Nat) (old : Txn) (kind : TxnKind) (broadcast : Option Nat) :
    (t.supersede n old kind broadcast).TablesSorted := by
  unfold State.supersede
  try dsimp only
  with_reducible repeat' first
    | assumption | apply TablesSorted.countTxn | apply TablesSorted.setTxns | apply TablesSorted.finishTxn

theorem State.TablesSorted.enterTxn {t : State} (h : t.TablesSorted) (n : Nat) (kind : TxnKind) (broadcast : Option Nat) :
    (t.enterTxn n kind broadcast).TablesSorted := by
  unfold State.enterTxn
  with_reducible repeat' first | assumption | apply TablesSorted.countTxn | apply TablesSorted.setTxns

theorem State.TablesSorted.setOwed {t : State} (h : t.TablesSorted) (tool : Nat) (owed : Bool) :
    (t.setOwed tool owed).TablesSorted := by
  unfold State.setOwed
  with_reducible repeat' first | assumption | apply TablesSorted.modTool

theorem State.TablesSorted.askToolData {t : State} (h : t.TablesSorted) (n place tool : Nat) :
    (t.askToolData n place tool).TablesSorted := by
  unfold State.askToolData
  try dsimp only
  with_reducible repeat' first
    | assumption | apply TablesSorted.setOwed | apply TablesSorted.supersede | apply TablesSorted.enterTxn | split

theorem State.TablesSorted.askBlocked {t : State} (h : t.TablesSorted) (n place tool : Nat) :
    (t.askBlocked n place tool).TablesSorted := by
  unfold State.askBlocked
  with_reducible repeat' first | assumption | apply TablesSorted.setOwed | apply TablesSorted.enterTxn | split

theorem State.TablesSorted.askUnblocked {t : State} (h : t.TablesSorted) (n place tool : Nat) :
    (t.askUnblocked n place tool).TablesSorted := by
  unfold State.askUnblocked
  with_reducible repeat' first | assumption | apply TablesSorted.enterTxn | split

theorem State.TablesSorted.enterOwedNotices {t : State} (h : t.TablesSorted) (n : Nat) :
    (t.enterOwedNotices n).TablesSorted := by
  unfold State.enterOwedNotices
  with_reducible repeat' first | assumption | apply TablesSorted.enterTxn | apply TablesSorted.foldl | intro _ _ _ | split

theorem State.TablesSorted.fillFor {t : State} (h : t.TablesSorted) (n tool : Nat) : (t.fillFor n tool).TablesSorted := by
  unfold State.fillFor
  with_reducible repeat' first
    | assumption | apply TablesSorted.setOwed | apply TablesSorted.askBlocked | apply TablesSorted.askToolData | split

theorem State.TablesSorted.fillSpace {t : State} (h : t.TablesSorted) (n : Nat) : (t.fillSpace n).TablesSorted := by
  unfold State.fillSpace
  try dsimp only
  with_reducible repeat' first
    | assumption | apply TablesSorted.enterOwedNotices | apply TablesSorted.fillFor | apply TablesSorted.foldl | intro _ _ _

theorem State.TablesSorted.startTxn {t : State} (h : t.TablesSorted) (n : Nat) : (t.startTxn n).TablesSorted := by
  unfold State.startTxn
  with_reducible repeat' first | assumption | apply TablesSorted.putTxn | split

theorem State.TablesSorted.reaskBlocked {t : State} (h : t.TablesSorted) (n : Nat) (t' : Txn) (state : TxnState) :
    (t.reaskBlocked n t' state).TablesSorted := by
  unfold State.reaskBlocked
  with_reducible repeat' first | assumption | apply TablesSorted.askBlocked | split

theorem State.TablesSorted.endTxn {t : State} (h : t.TablesSorted) (n : Nat) (t' : Txn) (state : TxnState) (code : TxnCode) :
    (t.endTxn n t' state code).TablesSorted := by
  unfold State.endTxn
  with_reducible repeat' first
    | assumption | apply TablesSorted.finishTxn | apply TablesSorted.fillSpace | apply TablesSorted.reaskBlocked
    | apply TablesSorted.startTxn

theorem State.TablesSorted.endQueued {t : State} (h : t.TablesSorted) (n id : Nat) (state : TxnState) (code : TxnCode) :
    (t.endQueued n id state code).TablesSorted := by
  unfold State.endQueued
  with_reducible repeat' first | assumption | apply TablesSorted.endTxn | split

theorem State.TablesSorted.cancelAt {t : State} (h : t.TablesSorted) (n : Nat) (p : TxnKind → Bool) :
    (t.cancelAt n p).TablesSorted := by
  unfold State.cancelAt
  with_reducible repeat' first | assumption | apply TablesSorted.endQueued | apply TablesSorted.foldl | intro _ _ _

theorem State.TablesSorted.cancelAll {t : State} (h : t.TablesSorted) (p : TxnKind → Bool) : (t.cancelAll p).TablesSorted := by
  unfold State.cancelAll
  with_reducible repeat' first | assumption | apply TablesSorted.cancelAt | apply TablesSorted.foldl | intro _ _ _

theorem State.TablesSorted.leftIssued {t : State} (h : t.TablesSorted) (tool : Nat) : (t.leftIssued tool).TablesSorted := by
  unfold State.leftIssued
  with_reducible repeat' first | assumption | apply TablesSorted.cancelAll

theorem State.TablesSorted.gone {t : State} (h : t.TablesSorted) (tool : Nat) : (t.gone tool).TablesSorted := by
  unfold State.gone
  with_reducible repeat' first | assumption | apply TablesSorted.cancelAll

theorem State.TablesSorted.supplyData {t : State} (h : t.TablesSorted) (n place tool : Nat) :
    (t.supplyData n place tool).TablesSorted := by
  unfold State.supplyData
  with_reducible repeat' first | assumption | apply TablesSorted.askToolData | apply TablesSorted.startTxn

theorem State.TablesSorted.returnTxn {t : State} (h : t.TablesSorted) (n : Nat) (t' : Txn) (behind : Txn → Bool) :
    (t.returnTxn n t' behind).TablesSorted := by
  unfold State.returnTxn
  try dsimp only
  with_reducible repeat' first | assumption | apply TablesSorted.endTxn | apply TablesSorted.setTxns | split

theorem State.TablesSorted.linkStopped {t : State} (h : t.TablesSorted) (n : Nat) : (t.linkStopped n).TablesSorted := by
  unfold State.linkStopped
  try dsimp only
  with_reducible repeat' first
    | assumption | apply TablesSorted.endQueued | apply TablesSorted.returnTxn | apply TablesSorted.foldl | intro _ _ _
    | split

theorem State.TablesSorted.linkStarted {t : State} (h : t.TablesSorted) (n : Nat) : (t.linkStarted n).TablesSorted := by
  unfold State.linkStarted
  with_reducible repeat' first | assumption | apply TablesSorted.enterOwedNotices | apply TablesSorted.startTxn

theorem State.TablesSorted.markNotice {t : State} (h : t.TablesSorted) (n tool place : Nat) :
    (t.markNotice n tool place).TablesSorted := by
  unfold State.markNotice
  try dsimp only
  with_reducible repeat' first | assumption | apply TablesSorted.setStation | split

theorem State.TablesSorted.delivered {t : State} (h : t.TablesSorted) (n number : Nat) :
    (t.delivered n number).TablesSorted := by
  unfold State.delivered
  with_reducible repeat' first
    | assumption | apply TablesSorted.markNotice | apply TablesSorted.endTxn | apply TablesSorted.putTxn | split

theorem State.TablesSorted.sendFailed {t : State} (h : t.TablesSorted) (n number : Nat) :
    (t.sendFailed n number).TablesSorted := by
  unfold State.sendFailed
  with_reducible repeat' first | assumption | apply TablesSorted.endTxn | split

theorem State.TablesSorted.fireHandoff {t : State} (h : t.TablesSorted) (n : Nat) : (t.fireHandoff n).TablesSorted := by
  unfold State.fireHandoff
  with_reducible repeat' first | assumption | apply TablesSorted.endTxn | split

theorem State.TablesSorted.fireHoldOff {t : State} (h : t.TablesSorted) (n : Nat) : (t.fireHoldOff n).TablesSorted := by
  unfold State.fireHoldOff
  with_reducible repeat' first | assumption | apply TablesSorted.startTxn | split

theorem State.TablesSorted.stationReply {t : State} (h : t.TablesSorted) (n : Nat) (r : StationReply) :
    (t.stationReply n r).TablesSorted := by
  unfold State.stationReply
  try dsimp only
  with_reducible repeat' first | assumption | apply TablesSorted.setStation

theorem State.TablesSorted.holdEntry {t : State} (h : t.TablesSorted) (n type : Nat) (kind : NoticeKind) :
    (t.holdEntry n type kind).TablesSorted := by
  unfold State.holdEntry
  with_reducible repeat' first
    | assumption | apply TablesSorted.setUnacked | apply TablesSorted.enterOwedNotices | apply TablesSorted.startTxn

theorem State.TablesSorted.inviteMember {t : State} (h : t.TablesSorted) (number n type : Nat) (kind : NoticeKind) :
    (t.inviteMember number n type kind).TablesSorted := by
  unfold State.inviteMember
  try dsimp only
  with_reducible repeat' first
    | assumption | apply TablesSorted.putBroadcast | apply TablesSorted.holdEntry | apply TablesSorted.supersede
    | apply TablesSorted.startTxn | apply TablesSorted.enterTxn | split

theorem State.TablesSorted.createBroadcast {t : State} (h : t.TablesSorted) (kind : NoticeKind) (type : Nat) (members : List Nat) :
    (t.createBroadcast kind type members).1.TablesSorted := by
  unfold State.createBroadcast
  try dsimp only
  with_reducible repeat' first
    | assumption | apply TablesSorted.holdEntry | apply TablesSorted.setHoe | apply TablesSorted.inviteMember
    | apply TablesSorted.settleBroadcast | apply TablesSorted.foldl | intro _ _ _ | split

theorem State.TablesSorted.fireBroadcast {t : State} (h : t.TablesSorted) (number : Nat) :
    (t.fireBroadcast number).TablesSorted := by
  unfold State.fireBroadcast
  try dsimp only
  with_reducible repeat' first
    | assumption | apply TablesSorted.setTxns | apply TablesSorted.settleBroadcast | apply TablesSorted.foldl | intro _ _ _
    | split

theorem State.TablesSorted.afterPick {t : State} (h : t.TablesSorted) (r : Request) (tool : Nat) :
    (t.afterPick r tool).TablesSorted := by
  unfold State.afterPick
  with_reducible repeat' first
    | assumption | apply TablesSorted.supplyData | apply TablesSorted.endRequest | apply TablesSorted.delivered | split

/-! #### Life -/

theorem State.TablesSorted.afterRetired {t : State} (h : t.TablesSorted) (n : Nat) : (t.afterRetired n).TablesSorted := by
  unfold State.afterRetired
  with_reducible repeat' first
    | assumption | apply TablesSorted.leavePutaway | apply TablesSorted.settleMarks | apply TablesSorted.gone

theorem State.TablesSorted.spentAtLimit {t : State} (h : t.TablesSorted) (n : Nat) : (t.spentAtLimit n).TablesSorted := by
  unfold State.spentAtLimit
  with_reducible repeat' first | assumption | apply TablesSorted.move | apply TablesSorted.afterRetired | split

theorem State.TablesSorted.lifeZero {t : State} (h : t.TablesSorted) (n : Nat) : (t.lifeZero n).TablesSorted := by
  unfold State.lifeZero
  with_reducible repeat' first | assumption | apply TablesSorted.move | split

theorem State.TablesSorted.prefetch {t : State} (h : t.TablesSorted) (r : InstRec) : (t.prefetch r).TablesSorted := by
  unfold State.prefetch
  with_reducible repeat' first | assumption | apply TablesSorted.autoRequest | split

theorem State.TablesSorted.warnTest {t : State} (h : t.TablesSorted) (n : Nat) : (t.warnTest n).TablesSorted := by
  unfold State.warnTest
  try dsimp only
  with_reducible repeat' first
    | assumption | apply TablesSorted.setTool | apply TablesSorted.report | apply TablesSorted.prefetch | split

theorem State.TablesSorted.replacement {t : State} (h : t.TablesSorted) (r : InstRec) : (t.replacement r).TablesSorted := by
  unfold State.replacement
  try dsimp only
  with_reducible repeat' first | assumption | apply TablesSorted.autoRequest | split

theorem State.TablesSorted.spentActions {t : State} (h : t.TablesSorted) (n : Nat) (r : InstRec) (units : Nat) (late : Bool) :
    (t.spentActions n r units late).TablesSorted := by
  unfold State.spentActions
  try dsimp only
  with_reducible repeat' first
    | assumption | apply TablesSorted.setTool | apply TablesSorted.askBlocked | apply TablesSorted.startTxn
    | apply TablesSorted.report | apply TablesSorted.replacement | split

theorem State.TablesSorted.zeroTest {t : State} (h : t.TablesSorted) (n units : Nat) (late : Bool) :
    (t.zeroTest n units late).TablesSorted := by
  unfold State.zeroTest
  with_reducible repeat' first
    | assumption | apply TablesSorted.spentActions | apply TablesSorted.lifeZero | apply TablesSorted.announce
    | apply TablesSorted.releaseToQueue | apply TablesSorted.allocationPass | apply TablesSorted.tryPutaway
    | apply TablesSorted.spentAtLimit | split

theorem State.TablesSorted.applyUsage {t : State} (h : t.TablesSorted) (n units : Nat) (late : Bool) :
    (t.applyUsage n units late).TablesSorted := by
  unfold State.applyUsage
  with_reducible repeat' first
    | assumption | apply TablesSorted.modTool | apply TablesSorted.warnTest | apply TablesSorted.zeroTest

theorem State.TablesSorted.usage {t : State} (h : t.TablesSorted) (st n place units : Nat) :
    (t.usage st n place units).1.TablesSorted := by
  unfold State.usage
  try dsimp only
  with_reducible repeat' first | assumption | apply TablesSorted.applyUsage | split

theorem State.TablesSorted.verifiedLife {t : State} (h : t.TablesSorted) (n : Nat) : (t.verifiedLife n).TablesSorted := by
  unfold State.verifiedLife
  with_reducible repeat' first | assumption | apply TablesSorted.replacement | apply TablesSorted.prefetch | split

/-! #### Pockets -/

theorem State.TablesSorted.pick {t : State} (h : t.TablesSorted) (c p n : Nat) : (t.pick c p n).TablesSorted := by
  unfold State.pick
  try dsimp only
  with_reducible repeat' first
    | assumption | apply TablesSorted.move | apply TablesSorted.setPocket | apply TablesSorted.changeRequest
    | apply TablesSorted.afterPick | apply TablesSorted.noticeIfFree | split

theorem State.TablesSorted.latePick {t : State} (h : t.TablesSorted) (c p n : Nat) (r : Request) :
    (t.latePick c p n r).TablesSorted := by
  unfold State.latePick
  try dsimp only
  with_reducible repeat' first
    | assumption | apply TablesSorted.move | apply TablesSorted.setPocket | apply TablesSorted.changeRequest
    | apply TablesSorted.afterPick | apply TablesSorted.noticeIfFree | split

theorem State.TablesSorted.unsanctioned {t : State} (h : t.TablesSorted) (c p n : Nat) :
    (t.unsanctioned c p n).TablesSorted := by
  unfold State.unsanctioned
  try dsimp only
  with_reducible repeat' first
    | assumption | apply TablesSorted.report | apply TablesSorted.move | apply TablesSorted.setPocket
    | apply TablesSorted.noticeIfFree | split

theorem State.TablesSorted.removed {t : State} (h : t.TablesSorted) (c p : Nat) : (t.removed c p).TablesSorted := by
  unfold State.removed
  try dsimp only
  with_reducible repeat' first
    | assumption | apply TablesSorted.clearLatePick | apply TablesSorted.pick | apply TablesSorted.latePick
    | apply TablesSorted.unsanctioned | apply TablesSorted.setPocket | apply TablesSorted.noticeIfFree | split

theorem State.TablesSorted.unknownPlacement {t : State} (h : t.TablesSorted) (c p : Nat) (tool : Option Nat) (custody : Option Custody) :
    (t.unknownPlacement c p tool custody).TablesSorted := by
  unfold State.unknownPlacement
  try dsimp only
  with_reducible repeat' first | assumption | apply TablesSorted.setPocket | apply TablesSorted.report

theorem State.TablesSorted.place {t : State} (h : t.TablesSorted) (c p n : Nat) : (t.place c p n).TablesSorted := by
  unfold State.place
  try dsimp only
  with_reducible repeat' first
    | assumption | apply TablesSorted.forgetAssignment | apply TablesSorted.unknownPlacement | apply TablesSorted.move
    | apply TablesSorted.setPocket | apply TablesSorted.leavePutaway | apply TablesSorted.announce
    | apply TablesSorted.tryPutaway | split

theorem State.TablesSorted.placed {t : State} (h : t.TablesSorted) (c p : Nat) : (t.placed c p).TablesSorted := by
  unfold State.placed
  with_reducible repeat' first | assumption | apply TablesSorted.place | apply TablesSorted.unknownPlacement | split

theorem State.TablesSorted.faultNow {t : State} (h : t.TablesSorted) (c p count : Nat) (before : PocketState) :
    (t.faultNow c p count before).TablesSorted := by
  unfold State.faultNow
  try dsimp only
  with_reducible repeat' first | assumption | apply TablesSorted.setPocket | apply TablesSorted.report

theorem State.TablesSorted.enterFault {t : State} (h : t.TablesSorted) (c p count : Nat) :
    (t.enterFault c p count).TablesSorted := by
  unfold State.enterFault
  try dsimp only
  with_reducible repeat' first
    | assumption | apply TablesSorted.releaseToQueue | apply TablesSorted.faultNow | apply TablesSorted.afterRelease
    | apply TablesSorted.forgetAssignment | apply TablesSorted.tryPutaway | split

theorem State.TablesSorted.recover {t : State} (h : t.TablesSorted) (c p : Nat) : (t.recover c p).TablesSorted := by
  unfold State.recover
  try dsimp only
  with_reducible repeat' first
    | assumption | apply TablesSorted.setPocket | apply TablesSorted.report | apply TablesSorted.allocationPass
    | apply TablesSorted.noticeIfFree | split

theorem State.TablesSorted.presenceEvent {t : State} (h : t.TablesSorted) (c p : Nat) (e : Presence) :
    (t.presenceEvent c p e).TablesSorted := by
  unfold State.presenceEvent
  try dsimp only
  with_reducible repeat' first
    | assumption | apply TablesSorted.placed | apply TablesSorted.removed | apply TablesSorted.setPocket
    | apply TablesSorted.report | split

theorem State.TablesSorted.debounce {t : State} (h : t.TablesSorted) (c p : Nat) (seen : Option Presence) :
    (t.debounce c p seen).TablesSorted := by
  unfold State.debounce
  try dsimp only
  with_reducible repeat' first | assumption | apply TablesSorted.setPocket | apply TablesSorted.presenceEvent | split

theorem State.TablesSorted.inRangeCount {t : State} (h : t.TablesSorted) (c p : Nat) : (t.inRangeCount c p).TablesSorted := by
  unfold State.inRangeCount
  try dsimp only
  with_reducible repeat' first | assumption | apply TablesSorted.recover | apply TablesSorted.setPocket | split

theorem State.TablesSorted.countPocket {t : State} (h : t.TablesSorted) (c p count : Nat) :
    (t.countPocket c p count).TablesSorted := by
  unfold State.countPocket
  try dsimp only
  with_reducible repeat' first
    | assumption | apply TablesSorted.setPocket | apply TablesSorted.enterFault | apply TablesSorted.inRangeCount
    | apply TablesSorted.debounce | split

theorem State.TablesSorted.learnOn {t : State} (h : t.TablesSorted) (c handle : Nat) (pockets learned refused failed : List Nat) :
    (t.learnOn c handle pockets learned refused failed).TablesSorted := by
  unfold State.learnOn
  try dsimp only
  with_reducible repeat' first | assumption | apply TablesSorted.setCab | apply TablesSorted.report | split

theorem State.TablesSorted.startAuto {t : State} (h : t.TablesSorted) (c : Nat) : (t.startAuto c).TablesSorted := by
  unfold State.startAuto
  with_reducible repeat' first | assumption | apply TablesSorted.setCab | split

theorem State.TablesSorted.restartBoundary {t : State} (h : t.TablesSorted) (c : Nat) : (t.restartBoundary c).TablesSorted := by
  unfold State.restartBoundary
  try dsimp only
  with_reducible repeat' first | assumption | apply TablesSorted.setCab | apply TablesSorted.startAuto

theorem State.TablesSorted.takeSettings {t : State} (h : t.TablesSorted) (c : Nat) (new : CabSettings) :
    (t.takeSettings c new).1.TablesSorted := by
  unfold State.takeSettings
  try dsimp only
  with_reducible repeat' first
    | assumption | apply TablesSorted.setPocket | apply TablesSorted.setCab | apply TablesSorted.foldl | intro _ _ _

theorem State.TablesSorted.endPass {t : State} (h : t.TablesSorted) (c : Nat) : (t.endPass c).TablesSorted := by
  unfold State.endPass
  try dsimp only
  with_reducible repeat' first
    | assumption | apply TablesSorted.setCab | apply TablesSorted.takeSettings | apply TablesSorted.learnOn
    | apply TablesSorted.restartBoundary | split

theorem State.TablesSorted.passOn {t : State} (h : t.TablesSorted) (c : Nat) (pass : Pass) :
    (t.passOn c pass).TablesSorted := by
  unfold State.passOn
  with_reducible repeat' first
    | assumption | apply TablesSorted.setCab | apply TablesSorted.endPass | apply TablesSorted.report | split

theorem State.TablesSorted.startSingle {t : State} (h : t.TablesSorted) (c handle : Nat) :
    (t.startSingle c handle).TablesSorted := by
  unfold State.startSingle
  with_reducible repeat' first | assumption | apply TablesSorted.setCab | apply TablesSorted.report | split

theorem State.TablesSorted.takeCount {t : State} (h : t.TablesSorted) (c cycles : Nat) :
    (t.takeCount c cycles).TablesSorted := by
  unfold State.takeCount
  with_reducible repeat' first | assumption | apply TablesSorted.countPocket | apply TablesSorted.passOn | split

theorem State.TablesSorted.takeLearn {t : State} (h : t.TablesSorted) (c cycles : Nat) :
    (t.takeLearn c cycles).TablesSorted := by
  unfold State.takeLearn
  try dsimp only
  with_reducible repeat' first
    | assumption | apply TablesSorted.learnOn | apply TablesSorted.setPocket | apply TablesSorted.noticeIfFree
    | apply TablesSorted.endPass | split

theorem State.TablesSorted.fireBoundary {t : State} (h : t.TablesSorted) (c : Nat) : (t.fireBoundary c).TablesSorted := by
  unfold State.fireBoundary
  try dsimp only
  with_reducible repeat' first | assumption | apply TablesSorted.setCab | apply TablesSorted.startAuto | split

theorem State.TablesSorted.departPocket {t : State} (h : t.TablesSorted) (l : Location) (n : Nat) (cause : MarkCause) :
    (t.departPocket l n cause).TablesSorted := by
  unfold State.departPocket
  try dsimp only
  with_reducible repeat' first | assumption | apply TablesSorted.setPocket | apply TablesSorted.noticeIfFree | split

theorem State.TablesSorted.dropPocket {t : State} (h : t.TablesSorted) (l : Location) (n : Nat) :
    (t.dropPocket l n).TablesSorted := by
  unfold State.dropPocket
  try dsimp only
  with_reducible repeat' first | assumption | apply TablesSorted.setPocket | apply TablesSorted.noticeIfFree | split

theorem State.TablesSorted.beginBoundaries {t : State} (h : t.TablesSorted) (c : Nat) : (t.beginBoundaries c).TablesSorted := by
  unfold State.beginBoundaries
  with_reducible repeat' first | assumption | apply TablesSorted.restartBoundary | split

/-! #### StationMsgs -/

theorem State.TablesSorted.verify {t : State} (h : t.TablesSorted) (n : Nat) : (t.verify n).TablesSorted := by
  unfold State.verify
  try dsimp only
  with_reducible repeat' first
    | assumption | apply TablesSorted.setStation | apply TablesSorted.move | apply TablesSorted.deliverRequest
    | apply TablesSorted.verifiedLife | split

theorem State.TablesSorted.call {t : State} (h : t.TablesSorted) (n type place : Nat) (prio : Priority) (offset minLife : Option Nat) :
    (t.call n type place prio offset minLife).1.TablesSorted := by
  unfold State.call
  try dsimp only
  with_reducible repeat' first | assumption | apply TablesSorted.merge | apply TablesSorted.enter | split

theorem State.TablesSorted.callCancel {t : State} (h : t.TablesSorted) (n place type : Nat) :
    (t.callCancel n place type).1.TablesSorted := by
  unfold State.callCancel
  try dsimp only
  with_reducible repeat' first | assumption | apply TablesSorted.cancelRequest | split

theorem State.TablesSorted.loaded {t : State} (h : t.TablesSorted) (n tool place : Nat) :
    (t.loaded n tool place).1.TablesSorted := by
  unfold State.loaded
  try dsimp only
  with_reducible repeat' first
    | assumption | apply TablesSorted.move | apply TablesSorted.setStation | apply TablesSorted.verify
    | apply TablesSorted.supplyData | split

theorem State.TablesSorted.unload {t : State} (h : t.TablesSorted) (n tool : Nat) (r : InstRec) (damaged : Bool) :
    (t.unload n tool r damaged).TablesSorted := by
  unfold State.unload
  try dsimp only
  with_reducible repeat' first
    | assumption | apply TablesSorted.setOwed | apply TablesSorted.dropMagazine | apply TablesSorted.cancelAt
    | apply TablesSorted.transition | apply TablesSorted.leftIssued | apply TablesSorted.loseRequest
    | apply TablesSorted.spentAtLimit | apply TablesSorted.setIsc | apply TablesSorted.tryPutaway | split

theorem State.TablesSorted.unloaded {t : State} (h : t.TablesSorted) (n tool place : Nat) (damaged : Bool) :
    (t.unloaded n tool place damaged).1.TablesSorted := by
  unfold State.unloaded
  try dsimp only
  with_reducible repeat' first | assumption | apply TablesSorted.loaded | apply TablesSorted.unload | split

theorem State.TablesSorted.confirmEntry {t : State} (h : t.TablesSorted) (n tool place generation : Nat) (blocked : Bool) :
    (t.confirmEntry n tool place generation blocked).TablesSorted := by
  unfold State.confirmEntry
  try dsimp only
  with_reducible repeat' first | assumption | apply TablesSorted.setStation

theorem State.TablesSorted.stored {t : State} (h : t.TablesSorted) (n tool place generation : Nat) :
    (t.stored n tool place generation).1.TablesSorted := by
  unfold State.stored
  try dsimp only
  with_reducible repeat' first
    | assumption | apply TablesSorted.endTxn | apply TablesSorted.confirmEntry | apply TablesSorted.verify | split

theorem State.TablesSorted.refusedData {t : State} (h : t.TablesSorted) (n tool place : Nat) (code : RefusedCode) :
    (t.refusedData n tool place code).1.TablesSorted := by
  unfold State.refusedData
  try dsimp only
  with_reducible repeat' first
    | assumption | apply TablesSorted.endTxn | apply TablesSorted.putTxn | apply TablesSorted.returnTxn
    | apply TablesSorted.startTxn | split

theorem State.TablesSorted.holdAck {t : State} (h : t.TablesSorted) (n type : Nat) : (t.holdAck n type).1.TablesSorted := by
  unfold State.holdAck
  try dsimp only
  with_reducible repeat' first | assumption | apply TablesSorted.endTxn | split

theorem State.TablesSorted.stationEffect {t : State} (h : t.TablesSorted) (n : Nat) (m : StationMsg) :
    (t.stationEffect n m).1.TablesSorted := by
  unfold State.stationEffect
  try dsimp only
  with_reducible repeat' first
    | assumption | apply TablesSorted.call | apply TablesSorted.callCancel | apply TablesSorted.usage
    | apply TablesSorted.loaded | apply TablesSorted.unloaded | apply TablesSorted.stored | apply TablesSorted.refusedData
    | apply TablesSorted.holdAck | split

theorem State.TablesSorted.stationMessage {t : State} (h : t.TablesSorted) (n message : Nat) (body : List Byte) :
    (t.stationMessage n message body).TablesSorted := by
  unfold State.stationMessage
  try dsimp only
  with_reducible repeat' first | assumption | apply TablesSorted.stationEffect | apply TablesSorted.stationReply | split

end Sys2Proof.Machine
end

