-- ==== Sys2Proof/Laws/Idle.lean ====
section
/-! SUPPORT. What stands in the lists that a step on an empty queue goes through: the stations, the cabinets and the heads, and the
events that have come. -/

namespace Sys2Proof.Machine

/-- An event that joins the queue where a condition holds (log entry 2). -/
theorem mem_onlyIf {c : Bool} {i j : Instr} : i ∈ onlyIf c j ↔ c = true ∧ i = j := by
  cases c <;> simp [onlyIf]

theorem mem_allStations {n : Nat} : n ∈ allStations ↔ 1 ≤ n ∧ n ≤ 32 := by
  simp only [allStations, List.mem_map, List.mem_range]
  exact ⟨fun ⟨_, _, _⟩ => by omega, fun h => ⟨n - 1, by omega, by omega⟩⟩

theorem mem_allCabinets {n : Nat} : n ∈ allCabinets ↔ 1 ≤ n ∧ n ≤ 12 := by
  simp only [allCabinets, List.mem_map, List.mem_range]
  exact ⟨fun ⟨_, _, _⟩ => by omega, fun h => ⟨n - 1, by omega, by omega⟩⟩

theorem mem_bothHeads (h : HeadId) : h ∈ bothHeads := by cases h <;> simp [bothHeads]

/-- The lowest station that a test picks. -/
theorem find_allStations {n : Nat} {p : Nat → Bool} (h1 : 1 ≤ n) (h2 : n ≤ 32) (h : p n = true)
    (hl : ∀ m, 1 ≤ m → m < n → p m = false) : allStations.find? p = some n := by
  rw [List.find?_eq_some_iff_append]
  refine ⟨h, (List.range (n - 1)).map (· + 1), (List.range (32 - n)).map (· + (n + 1)), ?_, ?_⟩
  · interval_cases n <;> decide
  · intro a ha
    simp only [List.mem_map, List.mem_range] at ha
    obtain ⟨b, hb, rfl⟩ := ha
    simp [hl (b + 1) (by omega) (by omega)]

end Sys2Proof.Machine
end

