-- ==== Sys2Proof/Laws/LineFrames.lean ====
section
/-! SUPPORT. What the shared operations of a link, of a head and of the clock may change at all, one lemma for each operation, and what
a scale temperature and the revertive setting do. -/

namespace Sys2Proof.Machine

open State

/-! ### Links -/

/-- What an operation on a link leaves as it was: everything beside the link, TRG's instances, PSC, ISC, HOE and the reports it
hands to SVP. -/
def State.RunsLink (n : Nat) (s t : State) : Prop :=
  (∃ rs, t.svp = s.svp.handed s.now rs) ∧ (∀ m, m ≠ n → t.link m = s.link m) ∧
  t = { s with
    trg := { types := s.trg.types, insts := t.trg.insts }, psc := t.psc, isc := t.isc, slc := t.slc, hoe := t.hoe, svp := t.svp }

theorem State.RunsLink.refl (n : Nat) (s : State) : RunsLink n s s := ⟨⟨[], rfl⟩, fun _ _ => rfl, rfl⟩

theorem State.RunsLink.trans {n : Nat} {s t u : State} (h : RunsLink n s t) (k : RunsLink n t u) : RunsLink n s u := by
  obtain ⟨⟨rs, hr⟩, hl, ht⟩ := h
  obtain ⟨⟨qs, hq⟩, kl, hu⟩ := k
  have hn : t.now = s.now := by rw [ht]; rfl
  refine ⟨⟨rs ++ qs, ?_⟩, fun m hm => (kl m hm).trans (hl m hm), ?_⟩
  · rw [hq, hr, hn, Svp.handed_append]
  · rw [hu, ht]

/-- An operation that runs within the register, the crib, issue and handoff leaves the links alone. -/
theorem State.RunsLink.runs {n : Nat} {s t u : State} (h : RunsLink n s t) (k : t.Runs u) : RunsLink n s u := by
  refine h.trans ⟨k.1, fun m _ => ?_, ?_⟩
  · rw [k.2]
    rfl
  · rw [k.2]

theorem State.RunsLink.foldl {α : Type} {n : Nat} {s t : State} {f : State → α → State} {xs : List α} (h : RunsLink n s t)
    (k : ∀ (u : State) (x : α), RunsLink n s u → RunsLink n s (f u x)) : RunsLink n s (xs.foldl f t) := by
  induction xs generalizing t with
  | nil => exact h
  | cons x xs ih => exact ih (k t x h)

theorem State.RunsLink.setLink {n : Nat} {s t : State} (h : RunsLink n s t) (r : Link) : RunsLink n s (t.setLink n r) := by
  refine h.trans ⟨⟨[], rfl⟩, fun m hm => ?_, rfl⟩
  rw [State.link_setLink, if_neg hm]

theorem State.RunsLink.report {n : Nat} {s t : State} (h : RunsLink n s t) (r : Report) :
    RunsLink n s (t.report r) := h.runs ((State.Runs.refl t).report r)

theorem State.RunsLink.linkStopped {n : Nat} {s t : State} (h : RunsLink n s t) :
    RunsLink n s (t.linkStopped n) := h.runs ((State.Runs.refl t).linkStopped n)

theorem State.RunsLink.linkStarted {n : Nat} {s t : State} (h : RunsLink n s t) :
    RunsLink n s (t.linkStarted n) := h.runs ((State.Runs.refl t).linkStarted n)

theorem State.RunsLink.sendFailed {n : Nat} {s t : State} (h : RunsLink n s t) (number : Nat) :
    RunsLink n s (t.sendFailed n number) := h.runs ((State.Runs.refl t).sendFailed n number)

theorem State.RunsLink.delivered {n : Nat} {s t : State} (h : RunsLink n s t) (number : Nat) :
    RunsLink n s (t.delivered n number) := h.runs ((State.Runs.refl t).delivered n number)

theorem State.RunsLink.stationMessage {n : Nat} {s t : State} (h : RunsLink n s t) (message : Nat) (body : List Byte) :
    RunsLink n s (t.stationMessage n message body) := h.runs ((State.Runs.refl t).stationMessage n message body)

theorem State.RunsLink.offer {n : Nat} {s t u : State} {b : List Byte} {o : BlockOrigin} (h : RunsLink n s t)
    (k : t.offer n = some (b, o, u)) : RunsLink n s u := by
  refine h.runs ?_
  unfold State.offer at k
  dsimp only at k
  split at k
  · obtain ⟨_, _, rfl⟩ : _ ∧ _ ∧ _ = u := by simpa using k
    exact (State.Runs.refl t).setStation _ _
  · split at k
    · split at k
      · cases k
      · obtain ⟨_, _, rfl⟩ : _ ∧ _ ∧ _ = u := by simpa using k
        exact (State.Runs.refl t).putTxn _ _
    · cases k

/-! #### Links -/

theorem State.RunsLink.modLink {n : Nat} {s t : State} (h : RunsLink n s t) (f : Link → Link) :
    RunsLink n s (t.modLink n f) := by
  unfold State.modLink
  with_reducible repeat' first | assumption | apply RunsLink.setLink

theorem State.RunsLink.changeLink {n : Nat} {s t : State} (h : RunsLink n s t) (after : LinkState) (cause : LinkCause) (f : Link → Link) :
    RunsLink n s (t.changeLink n after cause f) := by
  unfold State.changeLink
  try dsimp only
  with_reducible repeat' first
    | assumption | apply RunsLink.setLink | apply RunsLink.report | apply RunsLink.linkStopped | apply RunsLink.linkStarted
    | split

theorem State.RunsLink.toSearching {n : Nat} {s t : State} (h : RunsLink n s t) (cause : LinkCause) :
    RunsLink n s (t.toSearching n cause) := by
  unfold State.toSearching
  with_reducible repeat' first | assumption | apply RunsLink.changeLink

theorem State.RunsLink.toEcho {n : Nat} {s t : State} (h : RunsLink n s t) (cause : LinkCause) :
    RunsLink n s (t.toEcho n cause) := by
  unfold State.toEcho
  with_reducible repeat' first | assumption | apply RunsLink.changeLink

theorem State.RunsLink.fireLinkSilence {n : Nat} {s t : State} (h : RunsLink n s t) : RunsLink n s (t.fireLinkSilence n) := by
  unfold State.fireLinkSilence
  with_reducible repeat' first | assumption | apply RunsLink.changeLink | split

theorem State.RunsLink.fireAcquire {n : Nat} {s t : State} (h : RunsLink n s t) : RunsLink n s (t.fireAcquire n) := by
  unfold State.fireAcquire
  with_reducible repeat' first | assumption | apply RunsLink.changeLink | apply RunsLink.toEcho | split

theorem State.RunsLink.densityTest {n : Nat} {s t : State} (h : RunsLink n s t) : RunsLink n s (t.densityTest n) := by
  unfold State.densityTest
  with_reducible repeat' first | assumption | apply RunsLink.toSearching | split

theorem State.RunsLink.failEntry {n : Nat} {s t : State} (h : RunsLink n s t) (e : Outstanding) :
    RunsLink n s (t.failEntry n e) := by
  unfold State.failEntry
  try dsimp only
  with_reducible repeat' first | assumption | apply RunsLink.modLink | apply RunsLink.sendFailed | split

theorem State.RunsLink.confirmEntry' {n : Nat} {s t : State} (h : RunsLink n s t) (e : Outstanding) :
    RunsLink n s (t.confirmEntry' n e) := by
  unfold State.confirmEntry'
  try dsimp only
  with_reducible repeat' first | assumption | apply RunsLink.modLink | apply RunsLink.delivered | split

theorem State.RunsLink.settleVerdict {n : Nat} {s t : State} (h : RunsLink n s t) (position : Nat) (good : Bool) :
    RunsLink n s (t.settleVerdict n position good) := by
  unfold State.settleVerdict
  with_reducible repeat' first | assumption | apply RunsLink.confirmEntry' | apply RunsLink.failEntry | split

theorem State.RunsLink.takeData {n : Nat} {s t : State} (h : RunsLink n s t) (b : List Byte) :
    RunsLink n s (t.takeData n b) := by
  unfold State.takeData
  try dsimp only
  with_reducible repeat' first | assumption | apply RunsLink.setLink | apply RunsLink.stationMessage | split

theorem State.RunsLink.takeChecked {n : Nat} {s t : State} (h : RunsLink n s t) (b : List Byte) :
    RunsLink n s (t.takeChecked n b) := by
  unfold State.takeChecked
  try dsimp only
  with_reducible repeat' first | assumption | apply RunsLink.settleVerdict | apply RunsLink.takeData | split

theorem State.RunsLink.judgeEcho {n : Nat} {s t : State} (h : RunsLink n s t) (b : List Byte) :
    RunsLink n s (t.judgeEcho n b).1 := by
  unfold State.judgeEcho
  try dsimp only
  with_reducible repeat' first | assumption | apply RunsLink.confirmEntry' | apply RunsLink.failEntry | split

theorem State.RunsLink.takeEcho {n : Nat} {s t : State} (h : RunsLink n s t) (b : List Byte) :
    RunsLink n s (t.takeEcho n b) := by
  unfold State.takeEcho
  try dsimp only
  with_reducible repeat' first
    | assumption | apply RunsLink.modLink | apply RunsLink.takeData | apply RunsLink.judgeEcho | apply RunsLink.densityTest
    | split

theorem State.RunsLink.brokenBlock {n : Nat} {s t : State} (h : RunsLink n s t) (position : Nat) (b : List Byte) :
    RunsLink n s (t.brokenBlock n position b) := by
  unfold State.brokenBlock
  try dsimp only
  with_reducible repeat' first
    | assumption | apply RunsLink.modLink | apply RunsLink.densityTest | apply RunsLink.toSearching | split

theorem State.RunsLink.goodBlock {n : Nat} {s t : State} (h : RunsLink n s t) (b : List Byte) :
    RunsLink n s (t.goodBlock n b) := by
  unfold State.goodBlock
  try dsimp only
  with_reducible repeat' first
    | assumption | apply RunsLink.setLink | apply RunsLink.changeLink | apply RunsLink.densityTest | apply RunsLink.takeChecked
    | split

theorem State.RunsLink.takeBlock {n : Nat} {s t : State} (h : RunsLink n s t) (b : List Byte) :
    RunsLink n s (t.takeBlock n b) := by
  unfold State.takeBlock
  try dsimp only
  with_reducible repeat' first
    | assumption | apply RunsLink.fireAcquire | apply RunsLink.setLink | apply RunsLink.modLink | apply RunsLink.takeEcho
    | apply RunsLink.goodBlock | apply RunsLink.brokenBlock | split

theorem State.RunsLink.align {n : Nat} {s t : State} (h : RunsLink n s t) : RunsLink n s (t.align n) := by
  unfold State.align
  try dsimp only
  with_reducible repeat' first
    | assumption | apply RunsLink.setLink | apply RunsLink.changeLink | apply RunsLink.takeEcho | split

theorem State.RunsLink.pump {n : Nat} {s t : State} (h : RunsLink n s t) (turns : Nat) : RunsLink n s (t.pump n turns) := by
  induction turns generalizing t with
  | zero => exact h
  | succ k ih =>
    unfold State.pump
    dsimp only
    with_reducible repeat' first
      | assumption | apply RunsLink.align | apply RunsLink.modLink | apply RunsLink.takeBlock | apply RunsLink.setLink | apply ih
      | split

theorem State.RunsLink.linkBytes {n : Nat} {s t : State} (h : RunsLink n s t) (bytes : List Byte) :
    RunsLink n s (t.linkBytes n bytes) := by
  unfold State.linkBytes
  try dsimp only
  with_reducible repeat' first | assumption | apply RunsLink.modLink | apply RunsLink.changeLink | apply RunsLink.pump | split

theorem State.RunsLink.fireOutstanding {n : Nat} {s t : State} (h : RunsLink n s t) : RunsLink n s (t.fireOutstanding n) := by
  unfold State.fireOutstanding
  with_reducible repeat' first | assumption | apply RunsLink.failEntry | apply RunsLink.foldl | intro _ _ _

theorem State.RunsLink.fireEchoHeld {n : Nat} {s t : State} (h : RunsLink n s t) : RunsLink n s (t.fireEchoHeld n) := by
  unfold State.fireEchoHeld
  with_reducible repeat' first | assumption | apply RunsLink.modLink | split

theorem State.RunsLink.chooseBlock {n : Nat} {s t : State} (h : RunsLink n s t) : RunsLink n s (t.chooseBlock n).1 := by
  have resend : ∀ x, t.resendOldest n = some x → RunsLink n s x.1 := by
    intro x hx
    unfold State.resendOldest at hx
    dsimp only at hx
    split at hx
    · obtain rfl := Option.some.inj hx
      exact h.setLink _
    · cases hx
  have send : ∀ room x, t.sendNew n room = some x → RunsLink n s x.1 := by
    intro room x hx
    unfold State.sendNew at hx
    dsimp only at hx
    split at hx
    · split at hx
      · rename_i ho
        obtain rfl := Option.some.inj hx
        exact (h.offer ho).setLink _
      · cases hx
    · cases hx
  have echo : ∀ x, t.sendEcho n = some x → RunsLink n s x.1 := by
    intro x hx
    unfold State.sendEcho at hx
    dsimp only at hx
    split at hx
    · split at hx
      · obtain rfl := Option.some.inj hx
        exact h.setLink _
      · cases hx
    · cases hx
  unfold State.chooseBlock
  split
  · cases hr : t.resendOldest n with
    | some x => simpa [hr] using resend x hr
    | none =>
      cases hs : t.sendNew n 4 with
      | some x => simpa [hr, hs] using send 4 x hs
      | none => simpa [hr, hs] using h
  · cases he : t.sendEcho n with
    | some x => simpa [he] using echo x he
    | none =>
      cases hr : t.resendOldest n with
      | some x => simpa [he, hr] using resend x hr
      | none =>
        cases hs : t.sendNew n 1 with
        | some x => simpa [he, hr, hs] using send 1 x hs
        | none => simpa [he, hr, hs] using h
  · exact h

theorem State.RunsLink.sendBlock {n : Nat} {s t : State} (h : RunsLink n s t) : RunsLink n s (t.sendBlock n) := by
  unfold State.sendBlock
  try dsimp only
  with_reducible repeat' first | assumption | apply RunsLink.chooseBlock | apply RunsLink.setLink

theorem State.RunsLink.firePeriod {n : Nat} {s t : State} (h : RunsLink n s t) : RunsLink n s (t.firePeriod n) := by
  unfold State.firePeriod
  with_reducible repeat' first
    | assumption | apply RunsLink.fireOutstanding | apply RunsLink.fireEchoHeld | apply RunsLink.sendBlock | split

/-! ### Heads -/

/-- What an operation of MSU on a head leaves as it was: everything beside the head and what goes out on its line, TRG's instances,
PSC, ISC, HOE and the reports it hands to SVP. -/
def State.RunsHead (k : HeadId) (s t : State) : Prop :=
  (∃ rs, t.svp = s.svp.handed s.now rs) ∧ (∀ j, j ≠ k → t.head j = s.head j) ∧
  t = { s with
    trg := { types := s.trg.types, insts := t.trg.insts }, psc := t.psc, isc := t.isc, hoe := t.hoe, svp := t.svp
    msu := t.msu, lines := t.lines } ∧
  t.lines.sv = s.lines.sv ∧ t.lines.svBytes = s.lines.svBytes

theorem State.RunsHead.refl (k : HeadId) (s : State) : RunsHead k s s := ⟨⟨[], rfl⟩, fun _ _ => rfl, rfl, rfl, rfl⟩

theorem State.RunsHead.trans {k : HeadId} {s t u : State} (h : RunsHead k s t) (g : RunsHead k t u) : RunsHead k s u := by
  obtain ⟨⟨rs, hr⟩, hl, ht, hv⟩ := h
  obtain ⟨⟨qs, hq⟩, gl, hu, gv⟩ := g
  have hn : t.now = s.now := by rw [ht]; rfl
  refine ⟨⟨rs ++ qs, ?_⟩, fun j hj => (gl j hj).trans (hl j hj), ?_, gv.1.trans hv.1, gv.2.trans hv.2⟩
  · rw [hq, hr, hn, Svp.handed_append]
  · rw [hu, ht]

/-- An operation that runs within the register, the crib, issue and handoff leaves the heads alone. -/
theorem State.RunsHead.runs {k : HeadId} {s t u : State} (h : RunsHead k s t) (g : t.Runs u) : RunsHead k s u := by
  refine h.trans ⟨g.1, fun j _ => ?_, ?_, ?_⟩
  · rw [g.2]
    cases j <;> rfl
  · rw [g.2]
  · rw [g.2]
    exact ⟨rfl, rfl⟩

theorem State.RunsHead.setHead {k : HeadId} {s t : State} (h : RunsHead k s t) (r : Head) : RunsHead k s (t.setHead k r) := by
  refine h.trans ⟨⟨[], ?_⟩, fun j hj => ?_, ?_, ?_⟩
  · cases k <;> rfl
  · rw [State.head_setHead, if_neg hj]
  · cases k <;> rfl
  · cases k <;> exact ⟨rfl, rfl⟩

theorem State.RunsHead.sendHead {k : HeadId} {s t : State} (h : RunsHead k s t) (frame : List Byte) :
    RunsHead k s (t.sendHead k frame) := by
  refine h.trans ⟨⟨[], ?_⟩, fun j _ => ?_, ?_, ?_⟩
  · cases k <;> rfl
  · cases k <;> cases j <;> rfl
  · cases k <;> rfl
  · cases k <;> exact ⟨rfl, rfl⟩

theorem State.RunsHead.report {k : HeadId} {s t : State} (h : RunsHead k s t) (r : Report) :
    RunsHead k s (t.report r) := h.runs ((State.Runs.refl t).report r)

theorem State.RunsHead.transition {k : HeadId} {s t : State} (h : RunsHead k s t) (n : Nat) (r : InstRec) (m : Move) (also : InstRec → InstRec) :
    RunsHead k s (t.transition n r m also) := h.runs ((State.Runs.refl t).transition n r m also)

theorem State.RunsHead.settleMarks {k : HeadId} {s t : State} (h : RunsHead k s t) (n : Nat) :
    RunsHead k s (t.settleMarks n) := h.runs ((State.Runs.refl t).settleMarks n)

theorem State.RunsHead.announce {k : HeadId} {s t : State} (h : RunsHead k s t) (n : Nat) :
    RunsHead k s (t.announce n) := h.runs ((State.Runs.refl t).announce n)

/-! #### Sessions -/

theorem State.RunsHead.sendSession {k : HeadId} {s t : State} (h : RunsHead k s t) : RunsHead k s (t.sendSession k) := by
  unfold State.sendSession
  with_reducible repeat' first | assumption | apply RunsHead.sendHead

theorem State.RunsHead.sendResult {k : HeadId} {s t : State} (h : RunsHead k s t) (r : Result) :
    RunsHead k s (t.sendResult k r) := by
  unfold State.sendResult
  with_reducible repeat' first | assumption | apply RunsHead.sendHead

theorem State.RunsHead.testZero {k : HeadId} {s t : State} (h : RunsHead k s t) (cause : ZeroReason) :
    RunsHead k s (t.testZero k cause) := by
  unfold State.testZero
  try dsimp only
  with_reducible repeat' first | assumption | apply RunsHead.setHead | apply RunsHead.report | split

theorem State.RunsHead.setScaleTemp {k : HeadId} {s t : State} (h : RunsHead k s t) (t' : Int) :
    RunsHead k s (t.setScaleTemp k t') := by
  unfold State.setScaleTemp
  with_reducible repeat' first | assumption | apply RunsHead.setHead | apply RunsHead.testZero

/-- R78, R80: what a scale temperature does: the head's temperature and validity, and the ZERO_STATE of a change of validity. -/
theorem State.setScaleTemp_eq (s : State) (h : HeadId) (temp : Int) :
    let warm : Head := { s.head h with scaleTemp := some temp }
    let tested : Head := { warm with zeroOk := warm.zeroValid s.tick }
    s.setScaleTemp h temp =
      (s.setHead h tested).setSvp (s.svp.handed s.now ((s.head h).zeroChange tested h s.tick)) := by
  intro warm tested
  have hw : (s.setHead h warm).head h = warm := by rw [State.head_setHead, if_pos rfl]
  have ht : (s.setHead h warm).tick = s.tick := by cases h <;> rfl
  show (s.setHead h warm).testZero h .temperature = _
  unfold State.testZero Head.zeroChange
  simp only [hw, ht]
  by_cases hv : warm.zeroValid s.tick = (s.head h).zeroOk
  · have same : tested = warm := by
      show ({ warm with zeroOk := warm.zeroValid s.tick } : Head) = warm
      rw [hv]
    rw [if_pos (show warm.zeroValid s.tick = warm.zeroOk from hv), if_pos (show tested.zeroOk = (s.head h).zeroOk from hv), same]
    cases h <;> rfl
  · rw [if_neg (show ¬ warm.zeroValid s.tick = warm.zeroOk from hv), if_neg (show ¬ tested.zeroOk = (s.head h).zeroOk from hv)]
    have reason : (if warm.zeroValid s.tick = true then ZeroReason.temperature else warm.lapseReason s.tick) =
        (match warm.zero with
          | none => ZeroReason.removed
          | some z => if s.tick ≤ z.tick + warm.settings.zeroLife * 3600000 then .temperature else .age) := by
      unfold Head.zeroValid Head.lapseReason Head.ageOk
      cases warm.zero with
      | none => rfl
      | some z => by_cases hz : s.tick ≤ z.tick + warm.settings.zeroLife * 3600000 <;> simp [hz]
    rw [reason]
    cases h <;> rfl

theorem State.RunsHead.idleSession {k : HeadId} {s t : State} (h : RunsHead k s t) : RunsHead k s (t.idleSession k) := by
  unfold State.idleSession
  with_reducible repeat' first | assumption | apply RunsHead.setHead | apply RunsHead.sendSession

theorem State.RunsHead.closeMeasure {k : HeadId} {s t : State} (h : RunsHead k s t) (x : Session) (n : Nat) (cause : CloseCause) (acted : Option Verdict) (m : Move) (also : InstRec → InstRec) :
    RunsHead k s (t.closeMeasure k x n cause acted m also) := by
  unfold State.closeMeasure
  try dsimp only
  with_reducible repeat' first
    | assumption | apply RunsHead.idleSession | apply RunsHead.transition | apply RunsHead.report | apply RunsHead.settleMarks
    | apply RunsHead.announce | split

theorem State.RunsHead.abandonSession {k : HeadId} {s t : State} (h : RunsHead k s t) (cause : CloseCause) :
    RunsHead k s (t.abandonSession k cause) := by
  unfold State.abandonSession
  with_reducible repeat' first
    | assumption | apply RunsHead.closeMeasure | apply RunsHead.idleSession | apply RunsHead.report | split

theorem State.RunsHead.testAvailable {k : HeadId} {s t : State} (h : RunsHead k s t) (before : Bool) :
    RunsHead k s (t.testAvailable k before) := by
  unfold State.testAvailable
  try dsimp only
  with_reducible repeat' first | assumption | apply RunsHead.report | apply RunsHead.abandonSession | split

theorem State.RunsHead.takeStatus {k : HeadId} {s t : State} (h : RunsHead k s t) (ready : Bool) (temp : Int) :
    RunsHead k s (t.takeStatus k ready temp) := by
  unfold State.takeStatus
  try dsimp only
  with_reducible repeat' first
    | assumption | apply RunsHead.setHead | apply RunsHead.testAvailable | apply RunsHead.setScaleTemp
    | apply RunsHead.sendSession | split

theorem State.RunsHead.fireSilence {k : HeadId} {s t : State} (h : RunsHead k s t) : RunsHead k s (t.fireSilence k) := by
  unfold State.fireSilence
  try dsimp only
  with_reducible repeat' first | assumption | apply RunsHead.setHead | apply RunsHead.testAvailable | split

theorem State.RunsHead.fireLapse {k : HeadId} {s t : State} (h : RunsHead k s t) : RunsHead k s (t.fireLapse k) := by
  unfold State.fireLapse
  with_reducible repeat' first | assumption | apply RunsHead.testZero | split

theorem State.RunsHead.setSession {k : HeadId} {s t : State} (h : RunsHead k s t) (x : Session) :
    RunsHead k s (t.setSession k x) := by
  unfold State.setSession
  with_reducible repeat' first | assumption | apply RunsHead.setHead

theorem State.RunsHead.setZero {k : HeadId} {s t : State} (h : RunsHead k s t) (x : Session) (cs : List (Nat × Capture)) (temp : Int) :
    RunsHead k s (t.setZero k x cs temp) := by
  unfold State.setZero
  try dsimp only
  with_reducible repeat' first
    | assumption | apply RunsHead.setHead | apply RunsHead.sendHead | apply RunsHead.idleSession | apply RunsHead.report
    | apply RunsHead.testZero

theorem State.RunsHead.judge {k : HeadId} {s t : State} (h : RunsHead k s t) (x : Session) (tool : Nat) (cs : List (Nat × Capture)) :
    RunsHead k s (t.judge k x tool cs) := by
  unfold State.judge
  try dsimp only
  with_reducible repeat' first
    | assumption | apply RunsHead.setSession | apply RunsHead.sendResult | apply RunsHead.sendSession | apply RunsHead.report
    | split

theorem State.RunsHead.captureLimit {k : HeadId} {s t : State} (h : RunsHead k s t) (x : Session) :
    RunsHead k s (t.captureLimit k x) := by
  unfold State.captureLimit
  try dsimp only
  with_reducible repeat' first
    | assumption | apply RunsHead.setSession | apply RunsHead.sendResult | apply RunsHead.sendSession | apply RunsHead.report
    | apply RunsHead.idleSession | split

theorem State.RunsHead.storeCapture {k : HeadId} {s t : State} (h : RunsHead k s t) (x : Session) (c : Capture) :
    RunsHead k s (t.storeCapture k x c) := by
  unfold State.storeCapture
  try dsimp only
  with_reducible repeat' first
    | assumption | apply RunsHead.setSession | apply RunsHead.sendSession | apply RunsHead.judge | apply RunsHead.setZero
    | split

theorem State.RunsHead.takeCapture {k : HeadId} {s t : State} (h : RunsHead k s t) (z x : BitVec 24) (spindle scaleTemp toolTemp : BitVec 16) (flags : Byte) :
    RunsHead k s (t.takeCapture k z x spindle scaleTemp toolTemp flags) := by
  unfold State.takeCapture
  try dsimp only
  with_reducible repeat' first
    | assumption | apply RunsHead.setHead | apply RunsHead.setScaleTemp | apply RunsHead.sendSession
    | apply RunsHead.storeCapture | apply RunsHead.captureLimit | split

theorem State.RunsHead.headPayload {k : HeadId} {s t u : State} (h : RunsHead k s t) {p : List Byte}
    (hp : t.headPayload k p = some u) : RunsHead k s u := by
  unfold State.headPayload at hp
  repeat' split at hp
  all_goals first
    | (cases hp; done)
    | (obtain rfl := Option.some.inj hp
       with_reducible first | apply RunsHead.takeCapture | apply RunsHead.takeStatus
       exact h)

theorem State.RunsHead.headPump {k : HeadId} {s t : State} (h : RunsHead k s t) (turns : Nat) :
    RunsHead k s (t.headPump k turns) := by
  induction turns generalizing t with
  | zero => exact h
  | succ n ih =>
    unfold State.headPump
    dsimp only
    repeat' first
      | with_reducible exact h
      | with_reducible apply ih
      | with_reducible apply RunsHead.setHead
      | (rename_i hp; exact (h.setHead _).headPayload hp)
      | split

/-! #### Port -/

theorem State.RunsHead.fireHeadBytes {k : HeadId} {s t : State} (h : RunsHead k s t) : RunsHead k s (t.fireHeadBytes k) := by
  unfold State.fireHeadBytes
  with_reducible repeat' first | assumption | apply RunsHead.setHead | split

theorem State.RunsHead.headBytes {k : HeadId} {s t : State} (h : RunsHead k s t) (bs : List Byte) :
    RunsHead k s (t.headBytes k bs) := by
  unfold State.headBytes
  try dsimp only
  with_reducible repeat' first
    | assumption | apply RunsHead.fireHeadBytes | apply RunsHead.setHead | apply RunsHead.headPump | split

theorem State.RunsHead.headFramed {k : HeadId} {s t : State} (h : RunsHead k s t) : RunsHead k s (t.headFramed k) := by
  unfold State.headFramed
  with_reducible repeat' first | assumption | apply RunsHead.setHead

theorem State.RunsHead.headFailed {k : HeadId} {s t : State} (h : RunsHead k s t) (frame : List Byte) :
    RunsHead k s (t.headFailed k frame) := by
  unfold State.headFailed
  with_reducible repeat' first | assumption | apply RunsHead.headPump | apply RunsHead.setHead

/-! ### The clock -/

/-- What an operation of HCK leaves as it was: everything beside HCK, the requests that expire (R65), and the reports it hands to
SVP, each at the hall time it is made at. -/
def State.RunsClock (s t : State) : Prop :=
  (∃ rs : List (HallTime × Report), t.svp = rs.foldl (fun v e => v.report e.1 e.2) s.svp) ∧
  t.isc.queue.Sublist s.isc.queue ∧ t.tick = s.tick ∧
  t = { s with hck := t.hck, isc := { s.isc with queue := t.isc.queue }, svp := t.svp }

theorem State.RunsClock.refl (s : State) : s.RunsClock s := ⟨⟨[], rfl⟩, List.Sublist.refl _, rfl, rfl⟩

theorem State.RunsClock.trans {s t u : State} (h : s.RunsClock t) (k : t.RunsClock u) : s.RunsClock u := by
  obtain ⟨⟨rs, hr⟩, hl, hn, ht⟩ := h
  obtain ⟨⟨qs, hq⟩, kl, kn, hu⟩ := k
  refine ⟨⟨rs ++ qs, ?_⟩, kl.trans hl, kn.trans hn, ?_⟩
  · rw [hq, hr, List.foldl_append]
  · rw [hu, ht]

theorem State.RunsClock.report {s t : State} (h : s.RunsClock t) (r : Report) : s.RunsClock (t.report r) :=
  h.trans ⟨⟨[(t.now, r)], rfl⟩, List.Sublist.refl _, rfl, rfl⟩

theorem State.RunsClock.setHck {s t : State} (h : s.RunsClock t) (r : Hck) (hr : r.tick = t.hck.tick) :
    s.RunsClock (t.setHck r) := h.trans ⟨⟨[], rfl⟩, List.Sublist.refl _, hr, rfl⟩

theorem State.RunsClock.setPath {s t : State} (h : s.RunsClock t) (l : PulseLine) (p : Path) : s.RunsClock (t.setPath l p) := by
  refine h.trans ⟨⟨[], ?_⟩, ?_, ?_, ?_⟩ <;> cases l <;> rfl

theorem State.RunsClock.endRequest {s t : State} (h : s.RunsClock t) (r : Request) (state : ReqState) (cause : ReqCause) :
    s.RunsClock (t.endRequest r state cause) :=
  h.trans ⟨⟨[(t.now, _)], rfl⟩, List.filter_sublist, rfl, rfl⟩

theorem State.RunsClock.foldl {α : Type} {s t : State} {f : State → α → State} {xs : List α} (h : s.RunsClock t)
    (k : ∀ (u : State) (x : α), s.RunsClock u → s.RunsClock (f u x)) : s.RunsClock (xs.foldl f t) := by
  induction xs generalizing t with
  | nil => exact h
  | cons x xs ih => exact ih (k t x h)

theorem Hck.selected_tick (h : Hck) : h.selected.tick = h.tick := by
  unfold Hck.selected
  dsimp only
  split <;> rfl

/-! #### Requests -/

theorem State.RunsClock.expiryTest {s t : State} (h : s.RunsClock t) : s.RunsClock t.expiryTest := by
  unfold State.expiryTest
  with_reducible repeat' first
    | assumption | rfl | exact Hck.selected_tick _ | apply RunsClock.endRequest | apply RunsClock.foldl | intro _ _ _

/-! #### Clock -/

theorem State.RunsClock.reportTime {s t : State} (h : s.RunsClock t) (before : TimeState) (diff : Option Int) (cause : TimeCause) :
    s.RunsClock (t.reportTime before diff cause) := by
  unfold State.reportTime
  with_reducible repeat' first | assumption | rfl | exact Hck.selected_tick _ | apply RunsClock.report

theorem State.RunsClock.timeTakes {s t : State} (h : s.RunsClock t) (second : Nat) (lastDiscipline : Option Int) :
    s.RunsClock (t.timeTakes second lastDiscipline) := by
  unfold State.timeTakes
  try dsimp only
  with_reducible repeat' first
    | assumption | rfl | exact Hck.selected_tick _ | apply RunsClock.setHck | apply RunsClock.reportTime
    | apply RunsClock.expiryTest

theorem State.RunsClock.settlePending {s t : State} (h : s.RunsClock t) : s.RunsClock t.settlePending := by
  unfold State.settlePending
  with_reducible repeat' first | assumption | rfl | exact Hck.selected_tick _ | apply RunsClock.timeTakes | split

theorem State.RunsClock.selection {s t : State} (h : s.RunsClock t) (cause : TimeCause) (always : Bool) :
    s.RunsClock (t.selection cause always) := by
  unfold State.selection
  try dsimp only
  with_reducible repeat' first
    | assumption | rfl | exact Hck.selected_tick _ | apply RunsClock.setHck | apply RunsClock.reportTime
    | apply RunsClock.settlePending | split

theorem State.RunsClock.stepPath {s t : State} (h : s.RunsClock t) (l : PulseLine) (p : Path) :
    s.RunsClock (t.stepPath l p) := by
  unfold State.stepPath
  try dsimp only
  with_reducible repeat' first
    | assumption | rfl | exact Hck.selected_tick _ | apply RunsClock.setPath | apply RunsClock.selection | split

theorem State.RunsClock.reportShift {s t : State} (h : s.RunsClock t) (shift : Int) : s.RunsClock (t.reportShift shift) := by
  unfold State.reportShift
  with_reducible repeat' first
    | assumption | rfl | exact Hck.selected_tick _ | apply RunsClock.setHck | apply RunsClock.reportTime | split

theorem State.RunsClock.discipline {s t : State} (h : s.RunsClock t) : s.RunsClock t.discipline := by
  unfold State.discipline
  try dsimp only
  with_reducible repeat' first
    | assumption | rfl | exact Hck.selected_tick _ | apply RunsClock.setHck | apply RunsClock.reportShift
    | apply RunsClock.timeTakes | apply RunsClock.expiryTest | split

theorem State.RunsClock.pulse {s t : State} (h : s.RunsClock t) (l : PulseLine) : s.RunsClock (t.pulse l) := by
  unfold State.pulse
  try dsimp only
  with_reducible repeat' first
    | assumption | rfl | exact Hck.selected_tick _ | apply RunsClock.stepPath | apply RunsClock.discipline | split

theorem State.RunsClock.fireDeadline {s t : State} (h : s.RunsClock t) (l : PulseLine) : s.RunsClock (t.fireDeadline l) := by
  unfold State.fireDeadline
  with_reducible repeat' first | assumption | rfl | exact Hck.selected_tick _ | apply RunsClock.stepPath | split

theorem State.RunsClock.setTime {s t : State} (h : s.RunsClock t) (second : Nat) : s.RunsClock (t.setTime second).1 := by
  unfold State.setTime
  try dsimp only
  with_reducible repeat' first
    | assumption | rfl | exact Hck.selected_tick _ | apply RunsClock.setHck | apply RunsClock.timeTakes
    | apply RunsClock.reportTime | split

theorem State.RunsClock.retime {s t : State} (h : s.RunsClock t) (l : PulseLine) : s.RunsClock (t.retime l) := by
  unfold State.retime
  try dsimp only
  with_reducible repeat' first
    | assumption | rfl | exact Hck.selected_tick _ | apply RunsClock.setPath | apply RunsClock.fireDeadline

theorem State.RunsClock.setTolerance {s t : State} (h : s.RunsClock t) (tol : Nat) : s.RunsClock (t.setTolerance tol) := by
  unfold State.setTolerance
  with_reducible repeat' first | assumption | rfl | exact Hck.selected_tick _ | apply RunsClock.setHck | apply RunsClock.retime

theorem State.RunsClock.setRevertive {s t : State} (h : s.RunsClock t) (revertive : Bool) :
    s.RunsClock (t.setRevertive revertive) := by
  unfold State.setRevertive
  with_reducible repeat' first
    | assumption | rfl | exact Hck.selected_tick _ | apply RunsClock.setHck | apply RunsClock.selection | split

/-- R65: the expiry test leaves the clock alone. -/
@[simp] theorem State.expiryTest_hck (s : State) : s.expiryTest.hck = s.hck := by
  unfold State.expiryTest
  generalize s.isc.queue.filter _ = gone
  induction gone generalizing s with
  | nil => rfl
  | cons r gone ih => rw [List.foldl_cons, ih]; rfl

/-- R65: the expiry test hands SVP its reports at the hall time it is made at, and changes SVP in nothing else. -/
theorem State.expiryTest_svp (s : State) : ∃ rs, s.expiryTest.svp = s.svp.handed s.now rs := by
  unfold State.expiryTest
  generalize s.isc.queue.filter _ = gone
  induction gone generalizing s with
  | nil => exact ⟨[], rfl⟩
  | cons r gone ih =>
    obtain ⟨rs, h⟩ := ih (s.endRequest r .expired .expired)
    exact ⟨_ :: rs, h⟩

/-- R180, R183: what the revertive setting does: it is set, and where its change changes the state by the selection's table, the change
is reported and, at a change to FREE_RUN, a pending second takes effect. -/
theorem State.setRevertive_eq (s : State) (revertive : Bool) :
    let after := if s.hck.state = .unset ∨ revertive = s.hck.revertive then s.hck.state
      else selectPath s.hck.state (s.hck.primary.status == .usable) (s.hck.secondary.status == .usable) revertive
    s.setRevertive revertive =
      if after = s.hck.state then s.setHck { s.hck with revertive := revertive }
      else
        ((s.setHck { s.hck with revertive := revertive, state := after, shiftOwed := after.locked }).reportTime s.hck.state none
          .state).settlePending := by
  intro after
  unfold State.setRevertive
  by_cases hr : revertive = s.hck.revertive
  · have : after = s.hck.state := if_pos (Or.inr hr)
    rw [if_pos hr, if_pos this, hr]
    rfl
  · rw [if_neg hr]
    by_cases hu : s.hck.state = .unset
    · have : after = s.hck.state := if_pos (Or.inl hu)
      rw [if_pos this]
      simp [State.selection, State.setHck, hu]
    · have ha : after = selectPath s.hck.state (s.hck.primary.status == .usable) (s.hck.secondary.status == .usable) revertive :=
        if_neg (by simp [hu, hr])
      clear_value after
      subst ha
      split
      · rename_i hs
        simp [State.selection, State.setHck, Hck.selected, hs]
      · rename_i hs
        have clock : ∀ (x : State) (before : TimeState) (diff : Option Int) (cause : TimeCause),
            (x.reportTime before diff cause).hck = x.hck := fun _ _ _ _ => rfl
        simp [State.selection, State.setHck, Hck.selected, hu, hs, clock]

end Sys2Proof.Machine
end

