-- ==== Sys2Proof/Laws/Passing.lean ====
section
/-! SUPPORT. What an allocation pass (R55 to R58) may do to an instance, and what a free-pocket notice and put-away (R37, R67, R68)
may do to a pocket. -/

namespace Sys2Proof.Machine

open State

/-! ### Passed by -/

theorem InstRec.PassedBy.refl (i : InstRec) : i.PassedBy i := .inl rfl

theorem InstRec.PassedBy.trans {i j k : InstRec} (h : i.PassedBy j) (g : j.PassedBy k) : i.PassedBy k := by
  rcases h with h | ⟨hc, h, hl⟩
  · rcases g with g | ⟨gc, g, gl⟩
    · exact .inl (by rw [g, h])
    · refine .inr ⟨?_, ?_, gl⟩
      · rw [h] at gc
        exact gc
      · rw [g, h]
  · rcases g with g | ⟨gc, g, gl⟩
    · refine .inr ⟨hc, ?_, ?_⟩
      · rw [g, h]
      · rw [g]
        exact hl
    · rw [h] at gc
      simp at gc

theorem State.AllPassedBy.refl (s : State) : s.AllPassedBy s := fun _ => ⟨id, fun i hi => ⟨i, hi, .refl i⟩⟩

theorem State.AllPassedBy.trans {s t u : State} (h : s.AllPassedBy t) (g : t.AllPassedBy u) : s.AllPassedBy u := by
  intro m
  refine ⟨fun hm => (g m).1 ((h m).1 hm), fun i hi => ?_⟩
  obtain ⟨j, hj, hij⟩ := (h m).2 i hi
  obtain ⟨k, hk, hjk⟩ := (g m).2 j hj
  exact ⟨k, hk, hij.trans hjk⟩

theorem State.AllPassedBy.of_trg {s t : State} (h : t.trg = s.trg) : s.AllPassedBy t := by
  intro m
  have : t.tool m = s.tool m := by simp only [State.tool, h]
  exact ⟨fun hm => this.trans hm, fun i hi => ⟨i, this.trans hi, .refl i⟩⟩

theorem Pocket.PassedBy.refl (p : Pocket) : p.PassedBy p := .inl rfl

theorem Pocket.PassedBy.trans {p q r : Pocket} (h : p.PassedBy q) (g : q.PassedBy r) : p.PassedBy r := by
  rcases h with rfl | ⟨hs, h⟩
  · exact g
  · rcases g with rfl | ⟨gs, _⟩
    · exact .inr ⟨hs, h⟩
    · rw [h] at gs
      cases gs

/-- Every pocket is passed by. -/
def State.PocketsPassedBy (s t : State) : Prop := ∀ c p, (s.pocket c p).PassedBy (t.pocket c p)

theorem State.PocketsPassedBy.refl (s : State) : s.PocketsPassedBy s := fun _ _ => .refl _

theorem State.PocketsPassedBy.trans {s t u : State} (h : s.PocketsPassedBy t) (g : t.PocketsPassedBy u) : s.PocketsPassedBy u :=
  fun c p => (h c p).trans (g c p)

/-! ### What an operation leaves -/

theorem State.PutsAway.trg_eq {s t : State} (h : s.PutsAway t) : t.trg = s.trg := by rw [h.2]

theorem State.PutsAway.hoe_eq {s t : State} (h : s.PutsAway t) : t.hoe = s.hoe := by rw [h.2]

theorem State.Issues.hoe_eq {s t : State} (h : s.Issues t) : t.hoe = s.hoe := by rw [h.2]

theorem State.Issues.types_eq {s t : State} (h : s.Issues t) : t.trg.types = s.trg.types := by rw [h.2]

theorem State.HandsOff.psc_eq {s t : State} (h : s.HandsOff t) : t.psc = s.psc := by rw [h.2.2]

theorem State.HandsOff.isc_eq {s t : State} (h : s.HandsOff t) : t.isc = s.isc := by rw [h.2.2]

/-- HOE passes every instance by. -/
theorem State.HandsOff.passes {s t : State} (h : s.HandsOff t) : s.AllPassedBy t := by
  intro m
  rcases h.2.1 m with hm | ⟨i, o, hi, hm⟩
  · exact ⟨fun hn => hm.trans hn, fun i hi => ⟨i, hm.trans hi, .refl i⟩⟩
  · refine ⟨fun hn => ?_, fun j hj => ⟨_, hm, .inl ?_⟩⟩
    · rw [hn] at hi
      cases hi
    · rw [hi] at hj
      cases hj
      rfl

/-! ### Allocation -/

/-- A fold that keeps what it has or takes the next element ends with one of the list or with what it began with. -/
theorem foldl_choice_mem {α : Type} {f : Option α → α → Option α} (hf : ∀ a e, f a e = some e ∨ f a e = a) (xs : List α)
    (a : Option α) {x : α} (h : xs.foldl f a = some x) : x ∈ xs ∨ a = some x := by
  induction xs generalizing a with
  | nil => exact .inr h
  | cons e rest ih =>
    rcases ih _ h with hm | hm
    · exact .inl (List.mem_cons_of_mem _ hm)
    · rcases hf a e with he | he <;> rw [he] at hm
      · cases hm
        exact .inl List.mem_cons_self
      · exact .inr hm

/-- R56: the instance chosen stands in the register and is a candidate. -/
theorem State.chooseCandidate_spec {s : State} {r : Request} {n : Nat} {i : InstRec} (h : s.chooseCandidate r = some (n, i)) :
    (n, i) ∈ s.trg.insts ∧ ∃ t, s.type r.type = some t ∧ s.isCandidate r t i = true := by
  unfold State.chooseCandidate at h
  split at h
  · cases h
  · rename_i t ht
    rcases foldl_choice_mem (fun a e => by cases a <;> dsimp only <;> [exact .inl rfl; (split <;> simp)]) _ none h with hm | hm
    · rw [List.mem_filter] at hm
      exact ⟨hm.1, t, ht, hm.2⟩
    · cases hm

/-- R56: a candidate is READY in a pocket or STAGED at the bench. -/
theorem State.isCandidate_custody {s : State} {r : Request} {t : TypeRec} {i : InstRec} (h : s.isCandidate r t i = true) :
    (i.custody = .ready ∧ ∃ c p, i.loc = .pocket c p) ∨ (i.custody = .staged ∧ i.loc = .bench) := by
  unfold State.isCandidate at h
  rw [Bool.and_eq_true] at h
  obtain ⟨-, h⟩ := h
  split at h
  · rename_i c p hc hl
    exact .inl ⟨hc, c, p, hl⟩
  · rename_i hc hl
    exact .inr ⟨hc, hl⟩
  · cases h

/-- R57: what reserving an instance does to the register. -/
theorem State.reserve_trg (s : State) (r : Request) (n : Nat) (i : InstRec) :
    (s.reserve r n i).trg = { s.trg with
      insts := tset s.trg.insts n { i with
        custody := .reserved, link := some r.number, qcause := none, owed := if i.custody = .issued then false else i.owed } } := by
  have moved : ∀ (m : Move), m.custody = .reserved → m.link = some r.number → m.loc = i.loc →
      i.moved m = { i with
        custody := .reserved, link := some r.number, qcause := none, owed := if i.custody = .issued then false else i.owed } := by
    intro m hc hk hl
    have : redirect Custody.reserved i.life = .reserved := by unfold redirect; split <;> rfl
    simp [InstRec.moved, hc, this, hk, hl]
  unfold State.reserve
  dsimp only
  split
  · simp only [State.report_trg, State.setPocket_trg]
    rw [show ∀ (t : State) (q : Request), (t.putRequest q).trg = t.trg from fun _ _ => rfl]
    simp only [State.move, State.transition, State.report_trg, State.setTool_trg, id]
    rw [moved _ rfl rfl rfl]
  · simp only [State.report_trg]
    rw [((State.PutsAway.refl _).leavePutaway n).trg_eq]
    rw [show ∀ (t : State) (q : Request), (t.putRequest q).trg = t.trg from fun _ _ => rfl]
    simp only [State.move, State.transition, State.report_trg, State.setTool_trg, id]
    rw [moved _ rfl rfl rfl]

theorem State.enterWaiting_trg (s : State) (r : Request) (cause : ReqCause) : (s.enterWaiting r cause).trg = s.trg := by
  unfold State.enterWaiting
  dsimp only
  split
  · split <;> rfl
  · rfl

/-- What an allocation for one request does to the instances: nothing, or one candidate is reserved (R55 to R58). -/
theorem State.allocateFor_passes {s : State} (h : tableSorted s.trg.insts = true) (number : Nat) :
    s.AllPassedBy (s.allocateFor number) ∧ tableSorted (s.allocateFor number).trg.insts = true := by
  unfold State.allocateFor
  split
  · exact ⟨.refl s, h⟩
  · rename_i r _
    split
    · split
      · rename_i n i hc
        obtain ⟨hm, t, -, hi⟩ := State.chooseCandidate_spec hc
        have hi := State.isCandidate_custody hi
        have hn : s.tool n = some i := tget_of_mem h hm
        have hic : i.custody ≠ .issued := by rcases hi with ⟨hi, _⟩ | ⟨hi, _⟩ <;> rw [hi] <;> decide
        refine ⟨fun m => ?_, ?_⟩
        · have ht : (s.reserve r n i).tool m = if m = n then some { i with
              custody := .reserved, link := some r.number, qcause := none, owed := i.owed } else s.tool m := by
            simp only [State.tool, State.reserve_trg, tget_tset, if_neg hic]
          rw [ht]
          split
          · rename_i he
            subst he
            refine ⟨fun hx => ?_, fun j hj => ⟨_, rfl, .inr ⟨?_, ?_, rfl⟩⟩⟩
            · rw [hx] at hn
              cases hn
            · rw [hn] at hj
              cases hj
              exact hi.imp And.left And.left
            · rw [hn] at hj
              cases hj
              rfl
          · exact ⟨id, fun j hj => ⟨j, hj, .refl j⟩⟩
        · rw [State.reserve_trg]
          exact tableSorted_tset _ _ h
      · split
        · have ht := s.enterWaiting_trg r .noStock
          exact ⟨.of_trg ht, by rw [ht]; exact h⟩
        · exact ⟨.refl s, h⟩
    · exact ⟨.refl s, h⟩

/-- What an allocation pass does to the instances: it reserves some that stand READY or STAGED (R55 to R58). -/
theorem State.allocationPass_passes {s : State} (h : tableSorted s.trg.insts = true) :
    s.AllPassedBy s.allocationPass ∧ tableSorted s.allocationPass.trg.insts = true := by
  have fold : ∀ (xs : List Nat) (t : State), tableSorted t.trg.insts = true →
      t.AllPassedBy (xs.foldl (fun s n => s.allocateFor n) t) ∧
        tableSorted (xs.foldl (fun s n => s.allocateFor n) t).trg.insts = true := by
    intro xs
    induction xs with
    | nil => exact fun t ht => ⟨.refl t, ht⟩
    | cons x xs ih =>
      intro t ht
      have hx := State.allocateFor_passes ht x
      have hy := ih _ hx.2
      exact ⟨hx.1.trans hy.1, hy.2⟩
  unfold State.allocationPass
  split
  · exact fold _ _ h
  · exact ⟨.refl s, h⟩

/-- In LOADING there is no allocation pass (R55). -/
theorem State.allocationPass_loading {s : State} (h : s.running = false) : s.allocationPass = s := by
  simp [State.allocationPass, h]

/-! ### Put-away -/

/-- R68: the pocket chosen for put-away stands EMPTY. -/
theorem State.suitablePocket_empty {s : State} (h : tableSorted s.psc.pockets = true) {z : Zone} {home : Option Nat} {key : Nat}
    (hk : s.suitablePocket z home = some key) :
    (dget Pocket.reset s.psc.pockets key).state = .empty ∧ (dget Pocket.reset s.psc.pockets key).suitable z = true := by
  have hm : key ∈ (s.psc.pockets.filter (fun e => e.2.suitable z)).map (·.1) := by
    unfold State.suitablePocket at hk
    dsimp only at hk
    split at hk
    · rename_i k hf
      cases hk
      cases home with
      | none => cases hf
      | some c => exact List.mem_of_find?_eq_some hf
    · exact List.mem_of_head? hk
  obtain ⟨e, he, rfl⟩ := List.mem_map.1 hm
  obtain ⟨hin, hs⟩ := List.mem_filter.1 he
  have hd : dget Pocket.reset s.psc.pockets e.1 = e.2 := by simp [dget, tget_of_mem h hin]
  rw [hd]
  refine ⟨?_, hs⟩
  simp only [Pocket.suitable, Bool.and_eq_true, beq_iff_eq] at hs
  tauto

/-- R68: an assignment turns the EMPTY pocket it takes to EXPECT_PLACE. -/
theorem State.assign_passes {s : State} {key : Nat} (h : (dget Pocket.reset s.psc.pockets key).state = .empty) (n : Nat) (z : Zone) :
    s.PocketsPassedBy (s.assign n key z) := by
  intro c p
  have hkey : pocketKey (keyCabinet key) (keyPocket key) = key := by unfold pocketKey keyCabinet keyPocket; omega
  have hp : (s.assign n key z).pocket c p =
      if pocketKey c p = key then { dget Pocket.reset s.psc.pockets key with state := .expectPlace } else s.pocket c p := by
    have := State.pocket_setPocket s (keyCabinet key) (keyPocket key) c p
      { s.pocket (keyCabinet key) (keyPocket key) with state := .expectPlace }
    rw [hkey] at this
    simp only [State.pocket, hkey] at this
    simp only [State.assign, State.pocket, State.setIsc_psc, hkey]
    exact this
  rw [hp]
  split
  · rename_i hc
    refine .inr ⟨?_, ?_⟩ <;> simp only [State.pocket, hc]
    exact h
  · exact .refl _

theorem State.tryPutaway_passes {s : State} (h : tableSorted s.psc.pockets = true) (n : Nat) :
    s.PocketsPassedBy (s.tryPutaway n) := by
  unfold State.tryPutaway
  split
  · split
    · exact .refl s
    · dsimp only
      split
      · rename_i hk
        exact State.assign_passes (State.suitablePocket_empty h hk).1 _ _
      · split
        · exact .refl s
        · exact fun _ _ => .refl _
  · exact .refl s

theorem State.assignIfFree_passes {s : State} (h : tableSorted s.psc.pockets = true) (n : Nat) :
    s.PocketsPassedBy (s.assignIfFree n) ∧ tableSorted (s.assignIfFree n).psc.pockets = true := by
  unfold State.assignIfFree
  split
  · split
    · exact ⟨.refl s, h⟩
    · dsimp only
      split
      · rename_i hk
        exact ⟨State.assign_passes (State.suitablePocket_empty h hk).1 _ _, tableSorted_dset _ _ h⟩
      · exact ⟨.refl s, h⟩
  · exact ⟨.refl s, h⟩

/-- A free-pocket notice assigns EMPTY pockets, and changes no other (R37, R67). -/
theorem State.freeNotice_passes {s : State} (h : tableSorted s.psc.pockets = true) :
    s.PocketsPassedBy s.freeNotice ∧ tableSorted s.freeNotice.psc.pockets = true := by
  have fold : ∀ (xs : List Nat) (t : State), tableSorted t.psc.pockets = true →
      t.PocketsPassedBy (xs.foldl (fun s n => s.assignIfFree n) t) ∧
        tableSorted (xs.foldl (fun s n => s.assignIfFree n) t).psc.pockets = true := by
    intro xs
    induction xs with
    | nil => exact fun t ht => ⟨.refl t, ht⟩
    | cons x xs ih =>
      intro t ht
      have hx := State.assignIfFree_passes ht x
      have hy := ih _ hx.2
      exact ⟨hx.1.trans hy.1, hy.2⟩
  exact fold _ _ h

theorem State.noticeIfFree_passes {s : State} (h : tableSorted s.psc.pockets = true) (c p : Nat) :
    s.PocketsPassedBy (s.noticeIfFree c p) ∧ tableSorted (s.noticeIfFree c p).psc.pockets = true := by
  unfold State.noticeIfFree
  split
  · exact State.freeNotice_passes h
  · exact ⟨.refl s, h⟩

end Sys2Proof.Machine
end

