-- ==== Sys2Proof/Laws/Placing.lean ====
section
/-! SUPPORT. What LOAD_INSTANCE may do to the places of an instance: the old location vacated, the new one taken up (R15, R42, R43). -/

namespace Sys2Proof.Machine

/-- R43: a pocket that drops its instance. -/
theorem Pocket.drop_eq (p : Pocket) : p.drop = { p with
    tool := none
    state := if p.state = .fault ∨ p.state = .disabled then p.state else if p.sensed = .present then .unknown else .empty } := by
  unfold Pocket.drop
  cases p.state <;> simp

/-- A location that a body spells names a pocket that exists (R11). -/
theorem locationOf_pocket {kind sub a b c p : Nat} (h : locationOf kind sub a b = some (.pocket c p)) :
    1 ≤ c ∧ c ≤ 12 ∧ 1 ≤ p ∧ p ≤ 64 := by
  unfold locationOf at h
  split at h <;> simp_all [headOf]
  · rw [← h.2.1, ← h.2.2]; omega

/-! ### The old location is vacated -/

/-- R42: without a departure mark that names the instance there is none to settle. -/
theorem State.settleMarks_none {s : State} {n : Nat} (h : ∀ c p, 1 ≤ p → p ≤ 64 → ∀ m ∈ (s.pocket c p).mark, m.tool ≠ n) :
    s.settleMarks n = s := by
  unfold State.settleMarks
  generalize s.psc.pockets.map (·.1) = ks
  induction ks with
  | nil => rfl
  | cons k ks ih =>
    have : s.settleMarkAt n k = s := by
      unfold State.settleMarkAt
      simp only
      rw [if_neg]
      intro hc
      rw [Option.map_eq_some_iff] at hc
      obtain ⟨m, hm, e⟩ := hc
      exact h _ _ (by unfold keyPocket; omega) (by unfold keyPocket; omega) m hm e
    rw [List.foldl_cons, this]; exact ih

/-- R67: a free-pocket notice finds nothing to do while nothing waits. -/
theorem State.noticeIfFree_none {s : State} (h : s.isc.waiting = []) (c p : Nat) : s.noticeIfFree c p = s := by
  unfold State.noticeIfFree State.freeNotice State.waitingOrder
  rw [h]
  simp [sortBy]

/-- What an instance's departure from the crib leaves as it was: all but the pockets and put-away, with NOT_TAKEN reports alone, and
no pocket names another instance than before. -/
structure State.Leaves (n : Nat) (s t : State) : Prop where
  same : t = { s with psc := t.psc, isc := t.isc, svp := t.svp }
  cabinets : t.psc.cabinets = s.psc.cabinets
  queue : t.isc.queue = s.isc.queue
  svp : ∃ rs, t.svp = s.svp.handed s.now rs ∧ ∀ x ∈ rs, ∃ c p, x = .discrepancy .notTaken c p (some n) none
  tool : ∀ c p, (t.pocket c p).tool = (s.pocket c p).tool ∨ ((s.pocket c p).tool = some n ∧ (t.pocket c p).tool = none)

theorem State.Leaves.refl (n : Nat) (s : State) : State.Leaves n s s := ⟨rfl, rfl, rfl, ⟨[], rfl, by simp⟩, fun _ _ => .inl rfl⟩

theorem State.Leaves.trans {n : Nat} {s t u : State} (h : State.Leaves n s t) (k : State.Leaves n t u) : State.Leaves n s u := by
  refine ⟨?_, k.cabinets.trans h.cabinets, k.queue.trans h.queue, ?_, ?_⟩
  · rw [k.same, h.same]
  · obtain ⟨rs, e, hr⟩ := h.svp
    obtain ⟨qs, e', hq⟩ := k.svp
    have hn : t.now = s.now := by rw [h.same]; rfl
    refine ⟨rs ++ qs, by rw [e', e, Svp.handed_append, hn], fun x hx => ?_⟩
    exact (List.mem_append.mp hx).elim (hr x) (hq x)
  · intro c p
    rcases h.tool c p with a | ⟨a, b⟩
    · rcases k.tool c p with d | ⟨d, e⟩
      · exact .inl (d.trans a)
      · exact .inr ⟨a ▸ d, e⟩
    · rcases k.tool c p with d | ⟨d, _⟩
      · exact .inr ⟨a, d.trans b⟩
      · rw [b] at d; cases d

theorem State.Leaves.foldl {α : Type} {n : Nat} {f : State → α → State} (xs : List α) (h : ∀ s x, State.Leaves n s (f s x))
    (s : State) : State.Leaves n s (xs.foldl f s) := by
  induction xs generalizing s with
  | nil => exact .refl _ _
  | cons x xs ih => exact (h s x).trans (ih _)

theorem State.Leaves.setPocket {n : Nat} (s : State) (c p : Nat) (r : Pocket)
    (h : r.tool = (s.pocket c p).tool ∨ ((s.pocket c p).tool = some n ∧ r.tool = none)) :
    State.Leaves n s (s.setPocket c p r) := by
  refine ⟨rfl, rfl, rfl, ⟨[], rfl, by simp⟩, fun d q => ?_⟩
  rw [State.pocket_setPocket]
  split
  · rename_i e
    have : s.pocket d q = s.pocket c p := by unfold State.pocket; rw [e]
    rw [this]; exact h
  · exact .inl rfl

theorem State.Leaves.setIsc {n : Nat} (s : State) (r : Isc) (h : r.queue = s.isc.queue) : State.Leaves n s (s.setIsc r) :=
  ⟨rfl, rfl, h, ⟨[], rfl, by simp⟩, fun _ _ => .inl rfl⟩

theorem State.Leaves.notTaken {n : Nat} (s : State) (c p : Nat) :
    State.Leaves n s (s.report (.discrepancy .notTaken c p (some n) none)) :=
  ⟨rfl, rfl, rfl, ⟨[_], rfl, by simp⟩, fun _ _ => .inl rfl⟩

theorem State.Leaves.settleMarks (n : Nat) (s : State) : State.Leaves n s (s.settleMarks n) := by
  refine .foldl _ (fun s k => ?_) s
  unfold State.settleMarkAt
  simp only
  split
  · split
    · exact .setPocket _ _ _ _ (.inl rfl)
    · refine .trans (.setPocket _ _ _ _ ?_) (.notTaken _ _ _); exact .inl rfl
  · exact .refl _ _

theorem State.Leaves.noticeIfFree {n : Nat} (s : State) (c p : Nat) : State.Leaves n s (s.noticeIfFree c p) := by
  unfold State.noticeIfFree
  split
  · refine .foldl _ (fun s m => ?_) s
    unfold State.assignIfFree
    split
    · split
      · exact .refl _ _
      · simp only
        split
        · unfold State.assign
          refine .trans (.setPocket _ _ _ _ ?_) (.setIsc _ _ ?_)
          · exact .inl rfl
          · rfl
        · exact .refl _ _
    · exact .refl _ _
  · exact .refl _ _

theorem State.Leaves.dropPocket {n : Nat} (s : State) (l : Location) : State.Leaves n s (s.dropPocket l n) := by
  unfold State.dropPocket
  split
  · split
    · rename_i h; exact (State.Leaves.setPocket _ _ _ _ (.inr ⟨h, by rw [Pocket.drop_eq]⟩)).trans (.noticeIfFree _ _ _)
    · exact .refl _ _
  · exact .refl _ _

/-- R15: a record at no station is vacated within the crib. -/
theorem State.Leaves.vacate {n : Nat} {s : State} (h : ∀ st p, (s.tool n).map (·.loc) ≠ some (.station st p)) :
    State.Leaves n s (s.vacate n) := by
  unfold State.vacate
  split
  · exact .refl _ _
  · rename_i old ho
    simp only
    split
    · exact (State.Leaves.settleMarks n s).trans (.dropPocket _ _)
    · rename_i st p e; exact absurd (by rw [ho]; simp [e]) (h st p)
    · exact .settleMarks n s

/-- R15: a record at a station loses its magazine entry there. -/
theorem State.vacate_station {s : State} {n st p : Nat} (h : (s.tool n).map (·.loc) = some (.station st p)) :
    s.vacate n = (s.settleMarks n).dropMagazine st n := by
  unfold State.vacate
  split
  · rename_i ho; rw [ho] at h; cases h
  · rename_i old ho; rw [ho] at h
    have : old.loc = .station st p := by simpa using h
    simp only [this]

/-- R15: the old pocket no longer names the instance. -/
theorem State.vacate_pocket {s : State} {n c p : Nat} (h : (s.tool n).map (·.loc) = some (.pocket c p)) :
    ((s.vacate n).pocket c p).tool ≠ some n := by
  have hd : ∀ u : State, ((u.dropPocket (.pocket c p) n).pocket c p).tool ≠ some n := by
    intro u
    unfold State.dropPocket
    simp only
    split
    · have e : (u.pocket c p).drop.tool = none := by rw [Pocket.drop_eq]
      have := (State.Leaves.noticeIfFree (n := n) (u.setPocket c p (u.pocket c p).drop) c p).tool c p
      rw [State.pocket_setPocket_self, e] at this
      rcases this with h | ⟨h, _⟩
      · rw [h]; simp
      · cases h
    · assumption
  unfold State.vacate
  split
  · rename_i ho; rw [ho] at h; cases h
  · rename_i old ho; rw [ho] at h
    have : old.loc = .pocket c p := by simpa using h
    simp only [this]
    exact hd _

/-! ### The new location is taken up -/

/-- R15: the record is written, and a pocket or a magazine place takes the instance up; nothing else changes. -/
theorem State.takeUp_does (w : State) (n : Nat) (r : InstRec) (h : allowedPair r.custody r.loc = true)
    (hl : loadable r.custody r.loc = true) :
    w.takeUp n r = { w with trg := (w.takeUp n r).trg, psc := (w.takeUp n r).psc, hoe := (w.takeUp n r).hoe } ∧
    (w.takeUp n r).trg.types = w.trg.types ∧ (w.takeUp n r).psc.cabinets = w.psc.cabinets ∧
    (w.takeUp n r).hoe = { w.hoe with stations := (w.takeUp n r).hoe.stations } ∧
    (∀ m, (w.takeUp n r).tool m = if m = n then
      some (match r.loc with
        | .toStation _ _ => { r with owed := true }
        | _ => r) else w.tool m) ∧
    (∀ c p, (w.takeUp n r).pocket c p = match r.loc with
      | .pocket d q => if pocketKey c p = pocketKey d q then (w.pocket d q).loadedWith n else w.pocket c p
      | _ => w.pocket c p) ∧
    (∀ x, (w.takeUp n r).station x = { w.station x with
      magazine := match r.loc with
        | .station st p =>
          if st = x then
            tset (w.station x).magazine p { tool := n, active := true, confirmed := some r.generation, spentNotice := false }
          else (w.station x).magazine
        | _ => (w.station x).magazine }) := by
  cases hloc : r.loc with
  | pocket c p =>
    have e : w.takeUp n r = (w.setTool n r).setPocket c p ((w.pocket c p).loadedWith n) := by
      unfold State.takeUp; simp only [hloc]
    rw [e]
    exact ⟨rfl, rfl, rfl, rfl, fun m => State.tool_setTool w n m r, fun d q => by rw [State.pocket_setPocket]; rfl, fun _ => rfl⟩
  | station st p =>
    have hc : r.custody = .loaded := by
      rw [hloc] at h hl
      cases hc : r.custody <;> simp [hc, allowedPair, loadable] at h hl ⊢
    have e : w.takeUp n r = (w.setTool n r).setStation st { w.station st with
        magazine := tset (w.station st).magazine p
          { tool := n, active := true, confirmed := some r.generation, spentNotice := false } } := by
      unfold State.takeUp; simp only [hloc, hc]; rfl
    rw [e]
    refine ⟨rfl, rfl, rfl, rfl, fun m => State.tool_setTool w n m r, fun _ _ => rfl, fun x => ?_⟩
    rw [State.station_setStation]
    by_cases hx : x = st
    · subst hx; simp
    · simp [hx, Ne.symm hx]; rfl
  | toStation st p =>
    have hc : r.custody = .issued := by
      rw [hloc] at h hl
      cases hc : r.custody <;> simp [hc, allowedPair, loadable] at h hl ⊢
    have e : w.takeUp n r = w.setTool n { r with owed := true } := by
      unfold State.takeUp; simp only [hloc, hc]
    rw [e]
    exact ⟨rfl, rfl, rfl, rfl, fun m => by rw [State.tool_setTool, hloc], fun _ _ => rfl, fun _ => rfl⟩
  | _ =>
    have e : w.takeUp n r = w.setTool n r := by
      unfold State.takeUp; simp only [hloc]
    rw [e]
    exact ⟨rfl, rfl, rfl, rfl, fun m => State.tool_setTool w n m r, fun _ _ => rfl, fun _ => rfl⟩

end Sys2Proof.Machine
end

