-- ==== Sys2Proof/WellFormed.lean ====
section
/-! DEFINITION. Which commands name things the part has and carry what a frame can carry. -/

namespace Sys2Proof

/-- A cabinet number of the part (00_scope.md, Capacities). -/
def cabinetOk (c : Nat) : Bool := decide (1 ≤ c ∧ c ≤ 12)

/-- A pocket number of a cabinet (00_scope.md, Capacities). -/
def pocketOk (p : Nat) : Bool := decide (1 ≤ p ∧ p ≤ 64)

/-- A station number of the part (00_scope.md, Capacities). -/
def stationOk (s : Nat) : Bool := decide (1 ≤ s ∧ s ≤ 32)

/-- A body that a supervisory frame can carry (R189). -/
def bodyOk (body : List Byte) : Bool := decide (body.length ≤ 250)

/-- The command names lines, records and bodies that exist. -/
def Instr.wf (i : Instr) : Bool :=
  match i with
  | .powerOn _ _ => true
  | .resetN => true
  | .supervisoryFrame _ => true
  | .frameByteTimeout => true
  | .unknownKindFrame _ _ body => bodyOk body
  | .frameSent => true
  | .resetEffect => true
  | .loadType _ body => bodyOk body
  | .deleteType _ body => bodyOk body
  | .readType _ body => bodyOk body
  | .register _ body => bodyOk body
  | .loadInstance _ body => bodyOk body
  | .quarantineTool _ body => bodyOk body
  | .clearQuarantine _ body => bodyOk body
  | .retire _ body => bodyOk body
  | .delete _ body => bodyOk body
  | .readInstance _ body => bodyOk body
  | .listInstances _ body => bodyOk body
  | .setCabinet _ body => bodyOk body
  | .setPockets _ body => bodyOk body
  | .learnEmpty _ body => bodyOk body
  | .scanOnce _ body => bodyOk body
  | .identify _ body => bodyOk body
  | .readPocket _ body => bodyOk body
  | .readCabinet _ body => bodyOk body
  | .issue _ body => bodyOk body
  | .cancel _ body => bodyOk body
  | .handOut _ body => bodyOk body
  | .benchReturn _ body => bodyOk body
  | .setIssue _ body => bodyOk body
  | .nextToMeasure _ body => bodyOk body
  | .readRequest _ body => bodyOk body
  | .listRequests _ body => bodyOk body
  | .readPutaway _ body => bodyOk body
  | .setCurve _ body => bodyOk body
  | .setHead _ body => bodyOk body
  | .zeroHead _ body => bodyOk body
  | .measureBegin _ body => bodyOk body
  | .measureEnd _ body => bodyOk body
  | .measureAbort _ body => bodyOk body
  | .readHead _ body => bodyOk body
  | .regrindOut _ body => bodyOk body
  | .regrindBack _ body => bodyOk body
  | .setLink _ body => bodyOk body
  | .linkRestart _ body => bodyOk body
  | .readLink _ body => bodyOk body
  | .setStation _ body => bodyOk body
  | .setGroup _ body => bodyOk body
  | .typeHold _ body => bodyOk body
  | .typeRelease _ body => bodyOk body
  | .sendData _ body => bodyOk body
  | .readHandoff _ body => bodyOk body
  | .readGroups _ body => bodyOk body
  | .readBroadcast _ body => bodyOk body
  | .setTime _ body => bodyOk body
  | .setClock _ body => bodyOk body
  | .readTime _ body => bodyOk body
  | .start _ body => bodyOk body
  | .reset _ body => bodyOk body
  | .reportEnable _ body => bodyOk body
  | .readPort _ body => bodyOk body
  | .scanInterval c => cabinetOk c
  | .pocketCount c _ => cabinetOk c
  | .learnMeasurement c _ => cabinetOk c
  | .pickTimeout r => decide (1 ≤ r ∧ r ≤ 255)
  | .latePickEnd c p => cabinetOk c && pocketOk p
  | .putawayTimeout t => decide (1 ≤ t ∧ t ≤ 2048)
  | .headStatus _ _ _ => true
  | .capture _ _ _ _ _ _ _ => true
  | .headFrameByteTimeout _ => true
  | .headSilence _ => true
  | .zeroAgeLapse _ => true
  | .handoffTimeout s => stationOk s
  | .holdOffExpiry s => stationOk s
  | .broadcastExpiry n => decide (1 ≤ n ∧ n ≤ 255)
  | .stationBlock s _ => stationOk s
  | .acquireTimeout s => stationOk s
  | .linkSilence s => stationOk s
  | .blockPeriod s => stationOk s
  | .outstandingTimeout s => stationOk s
  | .echoHeldTimeout s => stationOk s
  | .ppsPulse _ => true
  | .stepDeadline _ => true
  | .hallSecond => true
  | .headFrameDiscarded _ _ => true

end Sys2Proof
end

