-- ==== Sys2Proof/Tests/Slice0.lean ====
section
/-! SUPPORT. Tests: the smoke of WellFormed, worked values of the spec, and for every statement with hypotheses a concrete state and
operands that meet them, clause by clause, with what the command then leaves. -/

open Sys2Proof Sys2Proof.Machine

namespace Sys2Proof.Tests

set_option Elab.async false

/-! ### Small states -/

/-- The state a command leaves; the reset state where it stops. -/
def after (o : Host.Outcome State Fault Refusal) : State :=
  match o with
  | .next s => s
  | _ => State.reset

/-- The code of the last reply made. -/
def replied (o : Host.Outcome State Fault Refusal) : Option ReplyCode :=
  ((after o).svp.buffer.getLast?.bind (·.reply)).map (·.2.code)

/-- The data of the last reply made. -/
def data (o : Host.Outcome State Fault Refusal) : Option ReplyData :=
  ((after o).svp.buffer.getLast?.bind (·.reply)).map (·.2.data)

/-- The reports a command left in the queue. -/
def reports (o : Host.Outcome State Fault Refusal) : List Report := (after o).svp.reports.map (·.report)

/-- The state after reset, RUNNING. -/
def running : State := { State.reset with svp := { State.reset.svp with mode := .running } }

def typeA : TypeRec :=
  { cls := .lengthRadius, adjustable := false, nominalLength := 1800000, nominalRadius := 250000, lengthBand := ⟨-100, 100⟩,
    radiusBand := ⟨-50, 50⟩, adjustBand := none, runoutLimit := 80, expansion := 1150, adapter := 2, lifeUnit := .seconds,
    budget := 5400, warnLevel := 100, governed := .length, regrindStep := 500, regrindLimit := 2, keepOnReturn := true,
    autoPrefetch := false, autoReplace := false, home := none, held := false }

def tool (c : Custody) (l : Location) : InstRec :=
  { type := 5, custody := c, loc := l
    meas := some { length := 1800010, radius := 250010, runout := 20, time := ⟨1000, 0⟩, head := .a, thermalLimited := false }
    generation := 3, life := 4000, warned := false, spent := false, marks := 0, link := none, qcause := none, owed := false
    last := none }

/-- RUNNING with type 5 and instance 7 of it. -/
def hall (r : InstRec) : State := (running.setType 5 typeA).setTool 7 r

/-- The same in LOADING. -/
def store (r : InstRec) : State := (State.reset.setType 5 typeA).setTool 7 r

/-- The same part, so many ticks after power-on. -/
def clockAt (n : Nat) (s : State) : State := { s with hck := { s.hck with tick := n } }

/-- A command frame may carry at most 250 bytes of body: one byte more. -/
def long : List Byte := List.replicate 251 0

/-! ### WellFormed refuses an ill-formed command of each kind -/

theorem smoke_body_too_long : [Instr.loadType 9 long, .unknownKindFrame 0x7F 9 long, .issue 9 long, .readPort 9 long].all
    (fun c => !c.wf) = true := by decide +kernel

theorem smoke_cabinet_off : [Instr.scanInterval 0, .pocketCount 13 5, .learnMeasurement 0 5, .latePickEnd 13 1].all
    (fun c => !c.wf) = true := by decide +kernel

theorem smoke_pocket_off : [Instr.latePickEnd 1 0, .latePickEnd 12 65].all (fun c => !c.wf) = true := by decide +kernel

theorem smoke_request_off : [Instr.pickTimeout 0, .pickTimeout 256].all (fun c => !c.wf) = true := by decide +kernel

theorem smoke_tool_off : [Instr.putawayTimeout 0, .putawayTimeout 2049].all (fun c => !c.wf) = true := by decide +kernel

theorem smoke_broadcast_off : [Instr.broadcastExpiry 0, .broadcastExpiry 256].all (fun c => !c.wf) = true := by decide +kernel

theorem smoke_station_off : [Instr.stationBlock 0 [], .linkSilence 33, .blockPeriod 0, .acquireTimeout 33, .outstandingTimeout 0,
    .echoHeldTimeout 33, .handoffTimeout 0, .holdOffExpiry 33].all (fun c => !c.wf) = true := by decide +kernel

theorem smoke_well_formed : [Instr.loadType 9 (List.replicate 250 0), .scanInterval 12, .latePickEnd 1 64, .pickTimeout 255,
    .putawayTimeout 2048, .broadcastExpiry 1, .stationBlock 32 [], .hallSecond].all Instr.wf = true := by decide +kernel

/-! ### Chapter 1 -/

/-- The body of a type record, byte by byte from 11.3. -/
theorem test_type_record_bytes : typeFields
    [0x00, 0x05, 0x01, 0x04, 0x1B, 0x77, 0x40, 0x03, 0xD0, 0x90, 0xFF, 0x9C, 0x00, 0x64, 0xFF, 0xCE, 0x00, 0x32, 0, 0, 0, 0,
     0x00, 0x50, 0x04, 0x7E, 0x02, 0x00, 0x00, 0x15, 0x18, 0x00, 0x64, 0x00, 0x01, 0xF4, 0x02, 0x00] = some typeA := by
  decide +kernel

theorem witness_LoadType_refused :
    State.reset.takesNow 0x01 9 (typeBytes 513 typeA) = true ∧
    (¬ ∃ r, typeFields (typeBytes 513 typeA) = some r ∧ 1 ≤ fieldAt (typeBytes 513 typeA) 0 2 ∧
      fieldAt (typeBytes 513 typeA) 0 2 ≤ 512) ∧
    replied (exec (.loadType 9 (typeBytes 513 typeA)) State.reset) = some .range ∧
    replied (exec (.loadType 9 (typeBytes 5 { typeA with budget := 4000001 })) State.reset) = some .range := by
  refine ⟨by decide +kernel, ?_, by decide +kernel, by decide +kernel⟩
  rintro ⟨r, -, -, h⟩
  revert h
  decide +kernel

theorem witness_LoadType_fills :
    State.reset.takesNow 0x01 9 (typeBytes 512 typeA) = true ∧ typeFields (typeBytes 512 typeA) = some typeA ∧
    typeNo (fieldAt (typeBytes 512 typeA) 0 2) = true ∧ typeA.inRange = true ∧
    State.reset.type (fieldAt (typeBytes 512 typeA) 0 2) = none ∧
    (after (exec (.loadType 9 (typeBytes 512 typeA)) State.reset)).type 512 = some typeA := by decide +kernel

def typeHits : TypeRec := { typeA with lifeUnit := .hits }
def typeShort : TypeRec := { typeA with budget := 3000 }

theorem witness_LoadType_replaces :
    (let b := typeBytes 5 typeHits
     let s := store (tool .staged .bench)
     s.takesNow 0x01 9 b = true ∧ typeFields b = some typeHits ∧ typeNo (fieldAt b 0 2) = true ∧ typeHits.inRange = true ∧
     s.type (fieldAt b 0 2) = some typeA ∧ typeHits.lifeUnit ≠ typeA.lifeUnit ∧ (∃ e ∈ s.trg.insts, e.2.type = fieldAt b 0 2) ∧
     replied (exec (.loadType 9 b) s) = some .state) ∧
    (let b := typeBytes 5 typeShort
     let s := store { tool .staged .bench with marks := 2 }
     s.takesNow 0x01 9 b = true ∧ typeFields b = some typeShort ∧ typeShort.inRange = true ∧
     s.type (fieldAt b 0 2) = some typeA ∧
     ¬ ((typeShort.lifeUnit ≠ typeA.lifeUnit ∧ ∃ e ∈ s.trg.insts, e.2.type = fieldAt b 0 2) ∨
        (∃ e ∈ s.trg.insts, e.2.type = fieldAt b 0 2 ∧ typeShort.regrindLimit < e.2.marks)) ∧
     ((after (exec (.loadType 9 b) s)).tool 7).map (·.life) = some 3000) := by decide +kernel

theorem witness_DeleteType :
    (State.reset.takesNow 0x02 9 [2, 1] = true ∧ ¬ (1 ≤ fieldAt [2, 1] 0 2 ∧ fieldAt [2, 1] 0 2 ≤ 512) ∧
      replied (exec (.deleteType 9 [2, 1]) State.reset) = some .range) ∧
    (State.reset.type (fieldAt [2, 0] 0 2) = none ∧ replied (exec (.deleteType 9 [2, 0]) State.reset) = some .noSuch) ∧
    (let s := State.reset.setType 5 { typeA with held := true }
     s.type (fieldAt [0, 5] 0 2) = some { typeA with held := true } ∧
      replied (exec (.deleteType 9 [0, 5]) s) = some .held) ∧
    (let s := store (tool .retired .nowhere)
     s.takesNow 0x02 9 [0, 5] = true ∧ s.type (fieldAt [0, 5] 0 2) = some typeA ∧
      (∃ e ∈ s.trg.insts, e.2.type = fieldAt [0, 5] 0 2) ∧ replied (exec (.deleteType 9 [0, 5]) s) = some .state) ∧
    (let s := State.reset.setType 5 typeA
     s.takesNow 0x02 9 [0, 5] = true ∧ s.type (fieldAt [0, 5] 0 2) = some typeA ∧
      ¬ ((∃ e ∈ s.trg.insts, e.2.type = fieldAt [0, 5] 0 2) ∨ (∃ q ∈ s.isc.queue, q.type = fieldAt [0, 5] 0 2)) ∧
      (after (exec (.deleteType 9 [0, 5]) s)).type 5 = none) := by decide +kernel

theorem witness_ListInstances :
    let s := (hall (tool .staged .bench)).setTool 2048 (tool .issued .toBench)
    let b : List Byte := [0, 5, 0, 0x04, 0, 0]
    s.takesNow 0x0F 9 b = true ∧ tableSorted s.trg.insts = true ∧ (fieldAt b 0 2 ≤ 512 ∧ (s.type (fieldAt b 0 2)).isSome = true) ∧
    fieldAt b 4 2 ≤ 2048 ∧ fieldAt b 2 2 % 8192 ≠ 0 ∧ data (exec (.listInstances 9 b) s) = some (.instList [7] false) ∧
    [[2, 1, 0, 4, 0, 0], [0, 5, 0, 4, 8, 1], [0, 5, 0, 0, 0, 0]].all (fun b => s.takesNow 0x0F 9 b &&
      (replied (exec (.listInstances 9 b) s) == some .range)) = true ∧
    s.takesNow 0x0F 9 [2, 0, 0, 4, 8, 0] = true ∧ s.type (fieldAt [2, 0, 0, 4, 8, 0] 0 2) = none ∧
    replied (exec (.listInstances 9 [2, 0, 0, 4, 8, 0]) s) = some .noSuch := by
  decide +kernel

/-- 101 instances match: the list holds 100, and more is yes (R26). -/
theorem witness_ListInstances_more :
    let s := { running with trg := { running.trg with insts := (List.range 101).map (fun k => (k + 1, tool .staged .bench)) } }
    let b : List Byte := [0, 0, 0, 4, 0, 0]
    s.takesNow 0x0F 9 b = true ∧ tableSorted s.trg.insts = true ∧
    data (exec (.listInstances 9 b) s) = some (.instList ((List.range 100).map (· + 1)) true) := by decide +kernel

theorem witness_Register :
    (let s := State.reset.setType 512 typeA
     let b : List Byte := [8, 0, 2, 0, 3, 2, 0x00, 0x15, 0x18]
     s.takesNow 0x08 9 b = true ∧ fieldAt b 0 2 = 2048 ∧ fieldAt b 2 2 = 512 ∧ s.type 512 = some typeA ∧ s.tool 2048 = none ∧
      fieldAt b 5 1 = typeA.regrindLimit ∧ fieldAt b 6 3 = typeA.budget ∧
      ((after (exec (.register 9 b) s)).tool 2048).map (fun r => (r.custody, r.loc, r.life, r.marks)) =
        some (.unmeasured, .bench, 5400, 2)) ∧
    replied (exec (.register 9 [8, 1, 2, 0, 0, 0, 0, 0, 0]) State.reset) = some .range ∧
    replied (exec (.register 9 [8, 0, 2, 0, 0, 0, 0, 0, 0]) State.reset) = some .noSuch ∧
    (let s := store (tool .staged .bench)
     replied (exec (.register 9 [0, 7, 0, 5, 0, 0, 0, 0, 0]) s) = some .state ∧
     replied (exec (.register 9 [0, 8, 0, 5, 1, 3, 0, 0, 0]) s) = some .limit ∧
     replied (exec (.register 9 [0, 8, 0, 5, 2, 0, 0x00, 0x15, 0x19]) s) = some .range) := by decide +kernel

def seated : InstRec := tool .ready (.pocket 12 64)

/-- Cabinet 12, pocket 64 sensing and EMPTY. -/
def sensingPocket : Pocket :=
  { zone := .stock, enabled := true, state := .empty, tool := none, mark := none, baseline := some 8000, presentBound := some 5600,
    absentBound := some 7200, lastCount := none, sensed := .absent, run := 0 }

theorem witness_LoadInstance :
    (let s := (State.reset.setType 5 typeA).setPocket 12 64 sensingPocket
     let b := instBytes 7 seated
     s.takesNow 0x09 9 b = true ∧ s.svp.mode = .loading ∧ instFields b = some seated ∧ toolNo (fieldAt b 0 2) = true ∧
      typeNo seated.type = true ∧ s.placeInCount seated.loc = true ∧ s.loadRefusal (fieldAt b 0 2) seated = none ∧
      (after (exec (.loadInstance 9 b) s)).tool 7 = some seated ∧
      ((after (exec (.loadInstance 9 b) s)).pocket 12 64).tool = some 7) ∧
    (let s := State.reset
     let b := instBytes 7 seated
     s.takesNow 0x09 9 b = true ∧ instFields b = some seated ∧ s.placeInCount seated.loc = true ∧
      s.loadRefusal (fieldAt b 0 2) seated = some .noSuch ∧ replied (exec (.loadInstance 9 b) s) = some .noSuch) ∧
    (running.takesNow 0x09 9 (instBytes 7 seated) = true ∧
      replied (exec (.loadInstance 9 (instBytes 7 seated)) running) = some .notInMode) := by decide +kernel

theorem test_load_issued_sets_owed :
    ((after (exec (.loadInstance 9 (instBytes 7 (tool .issued (.toStation 3 10)))) (State.reset.setType 5 typeA))).tool 7).map
      (·.owed) = some true := by decide +kernel

theorem witness_Quarantine :
    (let s := hall (tool .staged .bench)
     s.takesNow 0x0A 9 [0, 7] = true ∧ tableSorted s.trg.insts = true ∧ toolNo (fieldAt [0, 7] 0 2) = true ∧
      s.tool (fieldAt [0, 7] 0 2) = some (tool .staged .bench) ∧
      ((after (exec (.quarantineTool 9 [0, 7]) s)).tool 7).map (fun r => (r.custody, r.qcause)) = some (.quarantine, some .host)) ∧
    (let s := hall (tool .issued .toBench)
     s.takesNow 0x0A 9 [0, 7] = true ∧ replied (exec (.quarantineTool 9 [0, 7]) s) = some .state) ∧
    (let r := { tool .quarantine .bench with qcause := some .host, life := 0 }
     let s := hall r
     s.takesNow 0x0B 9 [0, 7] = true ∧ s.tool (fieldAt [0, 7] 0 2) = some r ∧
      ¬ (r.qcause = some .typeHold ∧ s.typeHeld r.type = true) ∧
      ((after (exec (.clearQuarantine 9 [0, 7]) s)).tool 7).map (·.custody) = some .regrindDue) ∧
    (let r := { tool .quarantine .bench with qcause := some .typeHold }
     let s := (hall r).setType 5 { typeA with held := true }
     s.takesNow 0x0B 9 [0, 7] = true ∧ s.typeHeld r.type = true ∧ replied (exec (.clearQuarantine 9 [0, 7]) s) = some .held) ∧
    replied (exec (.clearQuarantine 9 [0, 7]) (hall (tool .staged .bench))) = some .state ∧
    running.takesNow 0x0A 9 [8, 1] = true ∧ replied (exec (.quarantineTool 9 [8, 1]) running) = some .range ∧
    replied (exec (.quarantineTool 9 [8, 0]) running) = some .noSuch ∧
    running.takesNow 0x0B 9 [0, 0] = true ∧ replied (exec (.clearQuarantine 9 [0, 0]) running) = some .range ∧
    replied (exec (.clearQuarantine 9 [0, 1]) running) = some .noSuch := by decide +kernel

theorem witness_RetireAndDelete :
    (let s := hall (tool .issued .toBench)
     s.takesNow 0x0C 9 [0, 7] = true ∧ tableSorted s.trg.insts = true ∧ toolNo (fieldAt [0, 7] 0 2) = true ∧
      s.tool (fieldAt [0, 7] 0 2) = some (tool .issued .toBench) ∧
      ((after (exec (.retire 9 [0, 7]) s)).tool 7).map (fun r => (r.custody, r.loc)) = some (.retired, .nowhere)) ∧
    ([tool .issued .toBench, tool .loaded (.station 32 60), seated].map (fun r =>
      ((after (exec (.retire 9 [0, 7]) (hall { r with owed := true }))).tool 7).map (·.owed)) = [some false, some false, some true]) ∧
    replied (exec (.retire 9 [0, 7]) (hall (tool .atPresetter (.head .a)))) = some .state ∧
    (let s := hall (tool .retired .nowhere)
     s.takesNow 0x0D 9 [0, 7] = true ∧ s.tool (fieldAt [0, 7] 0 2) = some (tool .retired .nowhere) ∧
      (after (exec (.delete 9 [0, 7]) s)).tool 7 = none) ∧
    (hall (tool .staged .bench)).takesNow 0x0D 9 [0, 7] = true ∧
    replied (exec (.delete 9 [0, 7]) (hall (tool .staged .bench))) = some .state ∧
    running.takesNow 0x0C 9 [0, 0] = true ∧ replied (exec (.retire 9 [0, 0]) running) = some .range ∧
    replied (exec (.retire 9 [8, 0]) running) = some .noSuch ∧
    running.takesNow 0x0D 9 [8, 1] = true ∧ replied (exec (.delete 9 [8, 1]) running) = some .range ∧
    replied (exec (.delete 9 [0, 1]) running) = some .noSuch := by decide +kernel

/-! ### Chapter 2 -/

def settingsA : CabSettings := { CabSettings.reset with enabled := true }

/-- Cabinet 12 with settings in force and this pass running. -/
def scanning (pass : Option Pass) : State :=
  (running.setCab 12 { Cabinet.reset with settings := settingsA, pass := pass }).setPocket 12 64 sensingPocket

theorem witness_SetCabinet :
    (let b : List Byte := [12, 0x10, 0x00, 0x03, 0x84, 0x03, 0x83, 0x01, 0x90, 8, 1, 1]
     let s := scanning none
     s.takesNow 0x10 9 b = true ∧ (cabinetFields b).isSome = true ∧ (s.cab (fieldAt b 0 1)).pass = none ∧
      ((after (exec (.setCabinet 9 b) s)).pocket 12 64).baseline = some 16383 ∧
      ((after (exec (.setCabinet 9 b) s)).pocket 12 64).absentBound = some 1654 ∧
      ((after (exec (.setCabinet 9 b) (scanning (some (.auto 64))))).cab 12).settings = settingsA ∧
      (((after (exec (.setCabinet 9 b) (scanning (some (.auto 64))))).cab 12).pendingSettings.map (·.window)) = some 4096) ∧
    (let b : List Byte := [12, 0x10, 0x00, 0x03, 0x83, 0x03, 0x83, 0x01, 0x90, 8, 1, 1]
     running.takesNow 0x10 9 b = true ∧ replied (exec (.setCabinet 9 b) running) = some .range) ∧
    (let b : List Byte := [12, 0x04, 0x00, 0x00, 0x02, 0x00, 0x01, 0x01, 0x90, 8, 0, 1]
     let s := clockAt 70 (scanning none)
     s.takesNow 0x10 9 b = true ∧ (s.pocket 12 64).enabled = true ∧
      (let k := (after (exec (.setCabinet 9 b) s)).cab 12
       k.settings.interval = 400 ∧ k.boundary = some 470 ∧ k.pass = some (.auto 64)) ∧
      replied (exec (.setCabinet 9 (b.take 11 ++ [2])) s) = some .range) := by decide +kernel

/-- R33's bounds: baseline 9,240 with deviations 300 and 100 gives 6,468 and 8,316. -/
theorem test_bounds : boundOf 9240 300 = 6468 ∧ boundOf 9240 100 = 8316 ∧ boundOf 9100 300 = 6370 ∧ boundOf 9100 100 = 8190 := by
  decide +kernel

theorem witness_SetPockets :
    (let b : List Byte := [12, 1, 1, 2, 1, 64]
     let s := running
     s.takesNow 0x11 9 b = true ∧ tableSorted s.psc.pockets = true ∧ listAt b 3 = [1, 64] ∧ (∀ p ∈ listAt b 3, 1 ≤ p ∧ p ≤ 64) ∧
      ((after (exec (.setPockets 9 b) s)).pocket 12 64).state = .empty ∧
      ((after (exec (.setPockets 9 b) s)).pocket 12 64).zone = .hold) ∧
    (let b : List Byte := [12, 0, 2, 1, 64]
     let s := running.setPocket 12 64 { sensingPocket with state := .expectPlace }
     s.takesNow 0x11 9 b = true ∧ tableSorted s.psc.pockets = true ∧ (∃ p ∈ listAt b 3, (s.pocket 12 p).state = .expectPlace) ∧
      replied (exec (.setPockets 9 b) s) = some .state) ∧
    (let b : List Byte := [12, 0, 2, 1, 65]
     running.takesNow 0x11 9 b = true ∧ ¬ (∀ p ∈ listAt b 3, 1 ≤ p ∧ p ≤ 64) ∧
      replied (exec (.setPockets 9 b) running) = some .range) := by decide +kernel

theorem witness_ScanOnce :
    (let s := scanning none
     s.takesNow 0x13 9 [12] = true ∧ s.svp.mode = .running ∧ (s.cab 12).settings.enabled = true ∧ (s.cab 12).pass = none ∧
      (s.cab 12).heldLearn = none ∧ (s.pocket 12 64).enabled = true ∧
      (∀ q ∈ List.range 64, (s.pocket 12 q).enabled = false) ∧
      ((after (exec (.scanOnce 9 [12]) s)).cab 12).pass = some (.single 1 64 0) ∧
      (after (exec (.scanOnce 9 [12]) s)).svp.handle = 2) ∧
    replied (exec (.scanOnce 9 [13]) running) = some .range ∧ replied (exec (.scanOnce 9 [12]) State.reset) = some .notInMode ∧
    replied (exec (.scanOnce 9 [12]) running) = some .state ∧
    replied (exec (.scanOnce 9 [12]) (scanning (some (.auto 64)))) = some .busy ∧
    ((State.reset.takesNow 0x13 9 [12] && running.takesNow 0x13 9 [13]) = true) := by decide +kernel

theorem witness_LearnEmpty :
    (let b : List Byte := [12, 2, 64, 1]
     let s := scanning none
     s.takesNow 0x12 9 b = true ∧ listAt b 1 = [64, 1] ∧
      (∀ p ∈ listAt b 1, 1 ≤ p ∧ p ≤ 64 ∧ (s.pocket 12 p).learnable = true) ∧ (s.cab 12).learning = false ∧
      ((after (exec (.learnEmpty 9 b) s)).cab 12).pass = some (.learn 1 1 [64] [] [] []) ∧
      ((after (exec (.learnEmpty 9 b) (scanning (some (.auto 64))))).cab 12).heldLearn = some ⟨1, [1, 64]⟩) := by decide +kernel

theorem witness_Identify :
    (let b : List Byte := [0, 7, 12, 64]
     let s := (hall (tool .missing .nowhere)).setPocket 12 64 { sensingPocket with state := .unknown, sensed := .present }
     s.takesNow 0x14 9 b = true ∧ tableSorted s.trg.insts = true ∧ tableSorted s.trg.types = true ∧
      tableSorted s.psc.pockets = true ∧ s.svp.mode = .running ∧ s.tool 7 = some (tool .missing .nowhere) ∧
      (s.pocket 12 64).state = .unknown ∧ s.vacant 7 (.pocket 12 64) = true ∧
      ((after (exec (.identify 9 b) s)).tool 7).map (fun r => (r.custody, r.qcause)) = some (.quarantine, some .discrepancy) ∧
      ((after (exec (.identify 9 b) s)).pocket 12 64).tool = some 7) ∧
    (let b : List Byte := [0, 7, 12, 64]
     replied (exec (.identify 9 b) (hall (tool .staged .bench))) = some .state ∧
     replied (exec (.identify 9 b) State.reset) = some .notInMode ∧
     replied (exec (.identify 9 [0, 0, 12, 64]) running) = some .range ∧ replied (exec (.identify 9 [0, 7, 13, 64]) running) = some .range ∧
     replied (exec (.identify 9 [0, 7, 12, 65]) running) = some .range ∧ replied (exec (.identify 9 b) running) = some .noSuch) := by
  decide +kernel

/-- What IDENTIFY of instance 7 makes of it in pocket 64 of cabinet 12, which is UNKNOWN, and whether the record was admitted. -/
def identified (s : State) : Option (Custody × Option QCause) :=
  let s := s.setPocket 12 64 { sensingPocket with state := .unknown, sensed := .present }
  if s.takesNow 0x14 9 [0, 7, 12, 64] && s.vacant 7 (.pocket 12 64) then
    ((after (exec (.identify 9 [0, 7, 12, 64]) s)).tool 7).map (fun r => (r.custody, r.qcause))
  else none

/-- Type 5 is held. -/
def held (s : State) : State := s.setType 5 { typeA with held := true }

/-- Instance 7 carries the damaged mark. -/
def damagedTool (s : State) : State := { s with isc := { s.isc with damaged := [7] } }

theorem witness_Identify_rows :
    identified (hall (tool .staged .bench)) = some (.ready, none) ∧
    identified (hall { tool .staged .bench with life := 0 }) = some (.regrindDue, none) ∧
    identified (held (hall (tool .staged .bench))) = some (.quarantine, some .typeHold) ∧
    identified (hall (tool .unmeasured .bench)) = some (.unmeasured, none) := by decide +kernel

theorem witness_Identify_returned :
    (let r := tool .returning .backBench
     identified (damagedTool (hall r)) = some (.quarantine, some .damaged) ∧
      identified (held (hall r)) = some (.quarantine, some .typeHold) ∧ identified (hall r) = some (.ready, none) ∧
      identified (hall { r with life := 0 }) = some (.regrindDue, none)) ∧
    (let r := tool .issued .toBench
     identified (damagedTool (hall r)) = some (.quarantine, some .damaged) ∧
      identified (held (hall r)) = some (.quarantine, some .typeHold) ∧ identified (hall r) = some (.ready, none) ∧
      identified ((hall r).setType 5 { typeA with keepOnReturn := false }) = some (.unmeasured, none)) := by decide +kernel

theorem lawful_hall : (hall (tool .missing .nowhere)).trg.Lawful := by
  refine ⟨by decide +kernel, by decide +kernel, by decide +kernel, ?_⟩
  intro e h
  have h' : e = (7, tool .missing .nowhere) := by
    have hx : e ∈ [(7, tool .missing .nowhere)] := h
    exact List.mem_singleton.mp hx
  subst h'
  exact ⟨by decide +kernel, ⟨typeA, by decide +kernel, by decide +kernel, by decide +kernel⟩, by decide +kernel,
    by decide +kernel⟩

theorem witness_Boundary :
    (let s := (scanning none).setCab 12 { (scanning none).cab 12 with boundary := some 0 }
     (s.cab 12).boundary = some 0 ∧ 0 ≤ s.tick ∧ (s.pocket 12 64).enabled = true ∧
      (∀ q ∈ List.range 64, (s.pocket 12 q).enabled = false) ∧
      ((after (exec (.scanInterval 12) s)).cab 12).pass = some (.auto 64) ∧
      ((after (exec (.scanInterval 12) s)).cab 12).boundary = some 100) := by decide +kernel

theorem witness_Learning :
    (let s := scanning (some (.learn 3 1 [2] [] [] []))
     tableSorted s.psc.pockets = true ∧ (s.cab 12).pass = some (.learn 3 1 [2] [] [] []) ∧
      (∀ q ∈ [2], 1 ≤ q ∧ q ≤ 64 ∧ q ≠ 1 ∧ (s.pocket 12 q).learnable = true ∧ (s.pocket 12 q).enabled = false) ∧
      (s.pocket 12 1).learnable = true ∧ (s.pocket 12 1).enabled = false ∧
      ((after (exec (.learnMeasurement 12 16382) s)).pocket 12 1).baseline = some 16382 ∧
      ((after (exec (.learnMeasurement 12 20000) s)).pocket 12 1).lastCount = some 16383 ∧
      ((after (exec (.learnMeasurement 12 20000) s)).cab 12).pass = some (.learn 3 2 [] [] [] [1])) ∧
    (let s := (scanning (some (.learn 3 64 [2] [] [] []))).setPocket 12 64 { sensingPocket with state := .fault }
     tableSorted s.psc.pockets = true ∧ (s.cab 12).pass = some (.learn 3 64 [2] [] [] []) ∧
      (s.pocket 12 64).learnable = true ∧ (s.pocket 12 2).learnable = true ∧ (s.pocket 12 2).enabled = false ∧
      ((after (exec (.learnMeasurement 12 1) s)).pocket 12 64).state = .empty ∧
      ((after (exec (.learnMeasurement 12 1) s)).pocket 12 64).baseline = some 1) ∧
    (let fresh := { sensingPocket with baseline := none, presentBound := none, absentBound := none, sensed := .undecided }
     let s := (scanning (some (.learn 3 64 [63] [] [] []))).setPocket 12 64 fresh |>.setPocket 12 63 fresh
     tableSorted s.psc.pockets = true ∧ (s.cab 12).pass = some (.learn 3 64 [63] [] [] []) ∧ s.isc.waiting = [] ∧
      (s.pocket 12 64).enabled = true ∧ (s.pocket 12 64).state = .empty ∧ (s.pocket 12 64).learnable = true ∧
      (s.pocket 12 63).learnable = true ∧
      (after (exec (.learnMeasurement 12 10000) s)).pocket 12 64 =
        { fresh with lastCount := some 10000, baseline := some 10000, presentBound := some 7000, absentBound := some 9000
                     sensed := .absent } ∧
      ((after (exec (.learnMeasurement 12 10000) s)).cab 12).pass = some (.learn 3 63 [] [64] [] [])) ∧
    (let s := ((hall (tool .staged .bench)).setCab 12 { Cabinet.reset with settings := settingsA, pass := some (.learn 3 64 [63] [] [] []) }
       |>.setPocket 12 64 { sensingPocket with baseline := none, sensed := .undecided })
     let s := s.setIsc { s.isc with waiting := [(7, 0)] }
     tableSorted s.psc.pockets = true ∧ (s.pocket 12 64).learnable = true ∧ (s.pocket 12 63).enabled = false ∧
      ((after (exec (.learnMeasurement 12 10000) s)).pocket 12 64).state = .expectPlace ∧
      (tget (after (exec (.learnMeasurement 12 10000) s)).isc.assigned 7).map (fun a => (a.cabinet, a.pocket)) = some (12, 64)) := by
  decide +kernel

/-- Cabinet 12 measures pocket 63, pocket 64 follows. -/
def measuring (k : Pocket) (s : State) : State :=
  ((s.setCab 12 { Cabinet.reset with settings := settingsA, pass := some (.auto 63) }).setPocket 12 63 k).setPocket 12 64
    sensingPocket

theorem measures_measuring (k : Pocket) (s : State)
    (h' : (((measuring k s).cab 12).pass == some (.auto 63) && ((measuring k s).pocket 12 63).enabled &&
      ((measuring k s).pocket 12 64).enabled) = true) : (measuring k s).measures 12 63 64 := by
  simp only [Bool.and_eq_true, beq_iff_eq] at h'
  exact ⟨by decide, by decide, by decide, by decide, by decide, h'.1.1, h'.1.2, h'.2, by intro k h1 h2; omega⟩

theorem witness_CountFeedsDebounce :
    (measuring sensingPocket running).measures 12 63 64 ∧
    (let s := measuring sensingPocket running
     (s.pocket 12 63).baseline = some 8000 ∧ (s.pocket 12 63).state ≠ .fault ∧ (s.pocket 12 63).sensed ≠ .undecided ∧
      8000 / 8 ≤ min 1000 16383 ∧ (s.pocket 12 63).run + 1 < (s.cab 12).settings.debounce ∧
      ((after (exec (.pocketCount 12 5600) s)).pocket 12 63).run = 1 ∧
      ((after (exec (.pocketCount 12 5601) s)).pocket 12 63).run = 0 ∧
      ((after (exec (.pocketCount 12 1000) s)).pocket 12 63).run = 1 ∧
      ((after (exec (.pocketCount 12 1000) s)).cab 12).pass = some (.auto 64)) ∧
    (let s := measuring { sensingPocket with baseline := none } running
     (s.pocket 12 63).baseline = none ∧ ((after (exec (.pocketCount 12 5) s)).pocket 12 63).lastCount = some 5) :=
  ⟨measures_measuring _ _ (by decide +kernel), by decide +kernel, by decide +kernel⟩

/-- A pocket that senses a tool, one count short of the change. -/
def holding (st : PocketState) (n : Option Nat) : Pocket :=
  { sensingPocket with state := st, tool := n, sensed := .present, run := 2 }

theorem completes_removed (st : PocketState) (n : Option Nat) (s : State)
    (h : (((measuring (holding st n) s).cab 12).pass == some (.auto 63) && ((measuring (holding st n) s).pocket 12 63).enabled &&
      ((measuring (holding st n) s).pocket 12 64).enabled) = true)
    (h' : (((measuring (holding st n) s).pocket 12 63).sensing &&
      decide (((measuring (holding st n) s).pocket 12 63).sensed = .present) &&
      decide (((measuring (holding st n) s).pocket 12 63).classify (countOf 7200) = .isAbsent) &&
      decide (((measuring (holding st n) s).cab 12).settings.debounce ≤ ((measuring (holding st n) s).pocket 12 63).run + 1)) = true) :
    (measuring (holding st n) s).completes 12 63 64 7200 .absent := by
  simp only [Bool.and_eq_true, decide_eq_true_eq] at h'
  obtain ⟨⟨⟨h1, h2⟩, h3⟩, h4⟩ := h'
  exact ⟨measures_measuring _ _ h, h1, by rw [h2]; decide, by rw [h2]; decide, by decide, h3, h4⟩

def request (n : Nat) : Request :=
  { number := n, origin := .supervisor, type := 5, dest := .bench, prio := .urgent, neededBy := none, minLife := none
    state := .queued, tool := none, misses := 0, enqTick := 0, reserveTick := none, entry := 0 }

def reserved (n : Nat) : Request := { request n with state := .reserved, tool := some 7, reserveTick := some 0 }

def stationed (n : Nat) : Request := { request n with dest := .station 32 60, prio := .normal }

def asking (q : List Request) (s : State) : State := { s with isc := { s.isc with queue := q } }

def lying : InstRec := tool .ready (.pocket 12 63)
def claimed : InstRec := { tool .reserved (.pocket 12 63) with link := some 255 }

theorem witness_Removed :
    (measuring (holding .unknown none) running).completes 12 63 64 7200 .absent ∧
    (measuring (holding .occupied (some 7)) (hall lying)).completes 12 63 64 7200 .absent ∧
    (measuring (holding .expectTake (some 7)) (asking [reserved 255] (hall claimed))).completes 12 63 64 7200 .absent ∧
    (let s := measuring (holding .unknown none) running
     tableSorted s.psc.pockets = true ∧ (s.pocket 12 63).state = .unknown ∧ (s.pocket 12 63).tool = none ∧
      ((after (exec (.pocketCount 12 7200) s)).pocket 12 63).state = .empty) ∧
    (let s := measuring { holding .occupied none with mark := some ⟨7, .presetting⟩ } running
     (s.pocket 12 63).state = .occupied ∧ ((after (exec (.pocketCount 12 7200) s)).pocket 12 63).mark = none) ∧
    (let s := measuring (holding .occupied (some 7)) (hall lying)
     tableSorted s.psc.pockets = true ∧ (s.pocket 12 63).tool = some 7 ∧ s.tool 7 = some lying ∧
      s.latePickRequest (tget s.isc.latePicks (pocketKey 12 63)) 7 = none ∧
      ((after (exec (.pocketCount 12 7200) s)).tool 7).map (·.custody) = some .missing ∧
      (reports (exec (.pocketCount 12 7200) s)).map Report.kind = [1, 2, 3]) ∧
    (let s := measuring (holding .expectTake (some 7)) (asking [reserved 255] (hall claimed))
     tableSorted s.psc.pockets = true ∧ (s.pocket 12 63).state = .expectTake ∧ s.tool 7 = some claimed ∧
      claimed.custody = .reserved ∧ claimed.link.bind s.request = some (reserved 255) ∧
      ((after (exec (.pocketCount 12 7200) s)).tool 7).map (fun r => (r.custody, r.loc)) = some (.issued, .toBench) ∧
      (reports (exec (.pocketCount 12 7200) s)).map Report.kind = [1, 3, 4, 4]) :=
  ⟨completes_removed _ _ _ (by decide +kernel) (by decide +kernel), completes_removed _ _ _ (by decide +kernel) (by decide +kernel),
   completes_removed _ _ _ (by decide +kernel) (by decide +kernel), by decide +kernel, by decide +kernel, by decide +kernel,
   by decide +kernel⟩

def waitingPocket (st : PocketState) : Pocket := { sensingPocket with state := st, run := 2 }

def assigning (s : State) : State :=
  { s with isc := { s.isc with assigned := [(7, ⟨12, 63, .stock, false, 0⟩)] } }

/-- A memory at pocket 63 of cabinet 12, for request 255 and instance 7. -/
def remembering (s : State) : State :=
  { s with isc := { s.isc with latePicks := [(pocketKey 12 63, ⟨255, 7, 15000⟩)] } }

theorem witness_LatePick :
    let s := measuring (holding .occupied (some 7)) (remembering (asking [request 255] (hall lying)))
    s.completes 12 63 64 7200 .absent ∧ tableSorted s.psc.pockets = true ∧ s.tool 7 = some lying ∧ lying.custody = .ready ∧
      tget s.isc.latePicks (pocketKey 12 63) = some ⟨255, 7, 15000⟩ ∧ s.request 255 = some (request 255) ∧
      ((after (exec (.pocketCount 12 7200) s)).tool 7).map (fun r => (r.custody, r.loc, r.link)) =
        some (.issued, .toBench, some 255) ∧
      (reports (exec (.pocketCount 12 7200) s)).take 3 =
        [.pocketEvent .removed 12 63 .occupied (some 7) none none,
         .custodyChange 7 5 (some .ready) (.pocket 12 63) (some .issued) .toBench .latePick (some 255),
         .requestState { request 255 with state := .issued, tool := some 7 } .latePick] ∧
      ((after (exec (.pocketCount 12 7200) (measuring (holding .occupied (some 7))
        (remembering (asking [{ stationed 255 with state := .waitingStock }] (hall lying)))))).request 255).map
          (fun r => (r.state, r.tool)) = some (.issued, some 7) :=
  ⟨completes_removed _ _ _ (by decide +kernel) (by decide +kernel), by decide +kernel⟩

/-- R63: a REMOVED event clears the memory of its pocket in every state that it acts in. -/
theorem witness_Removed_memory :
    let left := fun (s : State) => tget (after (exec (.pocketCount 12 7200) s)).isc.latePicks (pocketKey 12 63)
    let gone := measuring (holding .unknown none) (remembering running)
    let away := measuring { holding .occupied none with mark := some ⟨7, .presetting⟩ } (remembering running)
    let picked := measuring (holding .expectTake (some 7)) (remembering (asking [reserved 255] (hall claimed)))
    [gone, away, picked].all (fun s => (tget s.isc.latePicks (pocketKey 12 63)).isSome) = true ∧
    left gone = none ∧ left away = none ∧ left picked = none ∧
    left (measuring (holding .occupied (some 7)) (remembering (hall lying))) = none := by decide +kernel

theorem completes_placed (st : PocketState) (s : State)
    (h : (((measuring (waitingPocket st) s).cab 12).pass == some (.auto 63) &&
      ((measuring (waitingPocket st) s).pocket 12 63).enabled && ((measuring (waitingPocket st) s).pocket 12 64).enabled) = true)
    (h' : (((measuring (waitingPocket st) s).pocket 12 63).sensing &&
      decide (((measuring (waitingPocket st) s).pocket 12 63).sensed = .absent) &&
      decide (((measuring (waitingPocket st) s).pocket 12 63).classify (countOf 5600) = .isPresent) &&
      decide (((measuring (waitingPocket st) s).cab 12).settings.debounce ≤
        ((measuring (waitingPocket st) s).pocket 12 63).run + 1)) = true) :
    (measuring (waitingPocket st) s).completes 12 63 64 5600 .present := by
  simp only [Bool.and_eq_true, decide_eq_true_eq] at h'
  obtain ⟨⟨⟨h1, h2⟩, h3⟩, h4⟩ := h'
  exact ⟨measures_measuring _ _ h, h1, by rw [h2]; decide, by rw [h2]; decide, by decide, h3, h4⟩

theorem witness_Placed :
    (measuring (waitingPocket .empty) running).completes 12 63 64 5600 .present ∧
    (measuring (waitingPocket .expectPlace) (assigning (hall (tool .staged .bench)))).completes 12 63 64 5600 .present ∧
    (let s := measuring (waitingPocket .empty) running
     tableSorted s.psc.pockets = true ∧ tableSorted s.trg.insts = true ∧
      ((after (exec (.pocketCount 12 5600) s)).pocket 12 63).state = .unknown) ∧
    (let s := measuring (waitingPocket .expectPlace) (assigning (hall (tool .staged .bench)))
     tableSorted s.psc.pockets = true ∧ tableSorted s.trg.insts = true ∧ (s.pocket 12 63).state = .expectPlace ∧
      s.assigneeOf 12 63 = some 7 ∧ s.tool 7 = some (tool .staged .bench) ∧ (tool .staged .bench).wantsPutaway = true ∧
      s.vacant 7 (.pocket 12 63) = true ∧
      ((after (exec (.pocketCount 12 5600) s)).tool 7).map (fun r => (r.custody, r.loc)) = some (.ready, .pocket 12 63) ∧
      ((after (exec (.pocketCount 12 5600) s)).pocket 12 63).state = .occupied) :=
  ⟨completes_placed _ _ (by decide +kernel) (by decide +kernel), completes_placed _ _ (by decide +kernel) (by decide +kernel),
   by decide +kernel, by decide +kernel⟩

/-- The PLACED event of instance 7, assigned to pocket 63: its custody after, where the event comes as the statement has it. -/
def seatedAs (s : State) : Option (Custody × Option QCause) :=
  let s := measuring (waitingPocket .expectPlace) (assigning s)
  if s.assigneeOf 12 63 = some 7 ∧ ((s.tool 7).map (·.wantsPutaway)).getD false = true ∧ s.vacant 7 (.pocket 12 63) = true ∧
      ((s.cab 12).pass == some (.auto 63) && (s.pocket 12 63).sensing) = true then
    ((after (exec (.pocketCount 12 5600) s)).tool 7).map (fun r => (r.custody, r.qcause))
  else none

theorem witness_Placed_rows :
    seatedAs (hall (tool .staged .bench)) = some (.ready, none) ∧
    seatedAs (held (hall (tool .staged .bench))) = some (.quarantine, some .typeHold) ∧
    seatedAs (hall { tool .unmeasured .bench with life := 0 }) = some (.regrindDue, none) ∧
    seatedAs (hall { tool .quarantine .bench with qcause := some .reject }) = some (.quarantine, some .reject) ∧
    seatedAs (hall (tool .regrindDue .bench)) = some (.regrindDue, none) ∧
    (let r := tool .returning (.backStation 32)
     seatedAs (damagedTool (hall r)) = some (.quarantine, some .damaged) ∧
      seatedAs (held (hall r)) = some (.quarantine, some .typeHold) ∧ seatedAs (hall r) = some (.ready, none) ∧
      seatedAs (hall { r with meas := none }) = some (.unmeasured, none)) ∧
    (let s := measuring (waitingPocket .expectPlace) (assigning (hall (tool .missing .nowhere)))
     (tool .missing .nowhere).wantsPutaway = false ∧ s.assigneeOf 12 63 = some 7 ∧
      ((after (exec (.pocketCount 12 5600) s)).pocket 12 63).state = .unknown ∧
      reports (exec (.pocketCount 12 5600) s) =
        [.pocketEvent .placed 12 63 .expectPlace none none none,
         .discrepancy .unknownPlacement 12 63 (some 7) (some .missing)]) := by decide +kernel

theorem witness_Fault :
    (measuring sensingPocket running).measures 12 63 64 ∧
    (measuring { sensingPocket with state := .fault, run := 7 } running).measures 12 63 64 ∧
    (let s := measuring sensingPocket running
     (s.pocket 12 63).baseline = some 8000 ∧ tableSorted s.psc.pockets = true ∧ tableSorted s.trg.insts = true ∧
      999 < 8000 / 8 ∧ ((after (exec (.pocketCount 12 999) s)).pocket 12 63).state = .fault ∧
      ((after (exec (.pocketCount 12 16383) s)).pocket 12 63).state = .fault) ∧
    (let s := measuring { sensingPocket with state := .fault, run := 7 } running
     (s.pocket 12 63).baseline = some 8000 ∧ (s.pocket 12 63).state = .fault ∧
      ((after (exec (.pocketCount 12 0) s)).pocket 12 63).run = 0 ∧
      ((after (exec (.pocketCount 12 1000) s)).pocket 12 63).state = .empty) ∧
    (let s := measuring { sensingPocket with state := .fault, run := 6 } running
     (s.pocket 12 63).run < 7 ∧ ((after (exec (.pocketCount 12 1000) s)).pocket 12 63).run = 7 ∧
      ((after (exec (.pocketCount 12 1000) s)).pocket 12 63).state = .fault) ∧
    (let s := measuring { holding .fault (some 7) with run := 7 } (hall lying)
     ((after (exec (.pocketCount 12 1000) s)).pocket 12 63).state = .occupied) :=
  ⟨measures_measuring _ _ (by decide +kernel), measures_measuring _ _ (by decide +kernel), by decide +kernel,
   by decide +kernel, by decide +kernel, by decide +kernel⟩

/-! ### Chapter 3 -/

/-- The clock stands at a tick. -/
theorem witness_Issue :
    (let b : List Byte := [0, 5, 32, 60, 2, 2, 0, 0, 0, 0, 0x3D, 0x09, 0x00]
     let s := hall (tool .staged .bench)
     s.takesNow 0x18 9 b = true ∧ tableSorted s.trg.insts = true ∧ s.svp.mode = .running ∧
      60 ≤ (s.station 32).places ∧ fieldAt b 10 3 = 4000000 ∧ s.type 5 = some typeA ∧ s.requestFor 32 60 5 = none ∧
      s.isc.queue.length < 64 ∧
      s.freeNumber 255 s.isc.nextNumber = some 1 ∧
      (after (exec (.issue 9 b) s)).isc.queue.map (fun r => (r.number, r.state)) = [(1, .waitingStock)] ∧
      data (exec (.issue 9 b) s) = some (.requestHandle 1 false)) ∧
    (let b : List Byte := [0, 5, 32, 60, 1, 0, 0, 0, 0, 0, 0, 0, 0]
     let s := asking [stationed 255] (hall (tool .staged .bench))
     s.takesNow 0x18 9 b = true ∧
      s.requestFor 32 60 5 = some (stationed 255) ∧
      data (exec (.issue 9 b) s) = some (.requestHandle 255 true) ∧
      (reports (exec (.issue 9 b) s)).head? = some (.requestState { stationed 255 with prio := .urgent } .merged)) ∧
    (let b : List Byte := [0, 5, 32, 61, 1, 0, 0, 0, 0, 0, 0, 0, 0]
     running.takesNow 0x18 9 b = true ∧ (running.station 32).places < 61 ∧ replied (exec (.issue 9 b) running) = some .range ∧
      replied (exec (.issue 9 (b.set 4 4)) running) = some .range ∧ replied (exec (.issue 9 (b.set 2 33)) running) = some .range ∧
      replied (exec (.issue 9 b) State.reset) = some .notInMode) ∧
    (let b : List Byte := [0, 5, 32, 60, 1, 0, 0, 0, 0, 0, 0, 0, 0]
     replied (exec (.issue 9 b) running) = some .noSuch) ∧
    (let b : List Byte := [0, 5, 32, 60, 2, 0, 0, 0, 0, 0, 0, 0, 0]
     let s := asking ((List.range 64).map (fun k => request (k + 1))) (hall (tool .staged .bench))
     s.takesNow 0x18 9 b = true ∧ 64 ≤ s.isc.queue.length ∧ replied (exec (.issue 9 b) s) = some .full) := by
  decide +kernel

theorem witness_Cancel :
    (let s := asking [reserved 255] ((hall claimed).setPocket 12 63 (holding .expectTake (some 7)))
     s.takesNow 0x19 9 [255] = true ∧ s.svp.mode = .running ∧ tableSorted s.trg.insts = true ∧
      s.request 255 = some (reserved 255) ∧ s.tool 7 = some claimed ∧ claimed.loc = .pocket 12 63 ∧
      ((after (exec (.cancel 9 [255]) s)).tool 7).map (·.custody) = some .ready ∧
      (after (exec (.cancel 9 [255]) s)).isc.queue = []) ∧
    (let s := asking [request 1] running
     s.takesNow 0x19 9 [1] = true ∧ s.request 1 = some (request 1) ∧ (after (exec (.cancel 9 [1]) s)).isc.queue = []) ∧
    (let s := asking [{ request 1 with state := .issued }] running
     replied (exec (.cancel 9 [1]) s) = some .state) ∧
    replied (exec (.cancel 9 [1]) State.reset) = some .notInMode ∧ replied (exec (.cancel 9 [0]) running) = some .range ∧ replied (exec (.cancel 9 [255]) running) = some .noSuch := by
  decide +kernel

def benchClaimed : InstRec := { tool .reserved .bench with link := some 255 }

theorem witness_BenchMoves :
    (let s := asking [reserved 255] (hall benchClaimed)
     s.takesNow 0x1A 9 [255] = true ∧ s.svp.mode = .running ∧ s.request 255 = some (reserved 255) ∧ s.tool 7 = some benchClaimed ∧
      ((after (exec (.handOut 9 [255]) s)).tool 7).map (fun r => (r.custody, r.loc)) = some (.issued, .toBench)) ∧
    (let s := asking [reserved 255] (hall claimed)
     s.tool 7 = some claimed ∧ claimed.loc ≠ .bench ∧ replied (exec (.handOut 9 [255]) s) = some .state) ∧
    (let s := asking [request 1] running
     s.takesNow 0x1A 9 [1] = true ∧ (request 1).state ≠ .reserved ∧ replied (exec (.handOut 9 [1]) s) = some .state) ∧
    (let s := hall (tool .issued .toBench)
     s.takesNow 0x1B 9 [0, 7] = true ∧ s.tool (fieldAt [0, 7] 0 2) = some (tool .issued .toBench) ∧
      ((after (exec (.benchReturn 9 [0, 7]) s)).tool 7).map (fun r => (r.custody, r.loc)) = some (.returning, .backBench)) ∧
    replied (exec (.benchReturn 9 [0, 7]) (hall (tool .staged .bench))) = some .state ∧
    running.takesNow 0x1A 9 [0] = true ∧ replied (exec (.handOut 9 [0]) running) = some .range ∧
    replied (exec (.handOut 9 [255]) running) = some .noSuch ∧ replied (exec (.handOut 9 [0]) State.reset) = some .notInMode ∧
    running.takesNow 0x1B 9 [0, 0] = true ∧ replied (exec (.benchReturn 9 [8, 1]) running) = some .range ∧
    replied (exec (.benchReturn 9 [8, 0]) running) = some .noSuch ∧
    replied (exec (.benchReturn 9 [0, 7]) State.reset) = some .notInMode := by decide +kernel

theorem witness_SetIssue :
    (let b : List Byte := [7, 0x02, 0x58, 0x0E, 0x10, 0x07, 0x08]
     let s := asking [reserved 255] (assigning (hall claimed))
     s.takesNow 0x1C 9 b = true ∧ fieldAt b 1 2 = 600 ∧ fieldAt b 3 2 = 3600 ∧ fieldAt b 5 2 = 1800 ∧
      (∀ r ∈ s.isc.queue, ∀ t ∈ r.reserveTick, s.tick < t + 600 * 1000) ∧
      (∀ e ∈ s.isc.assigned, s.tick < e.2.tick + 1800 * 1000) ∧
      (after (exec (.setIssue 9 b) s)).isc = { s.isc with pickTimeout := 600, expiryGrace := 3600, putawayTimeout := 1800 }) ∧
    (let b : List Byte := [1, 0, 9, 0, 0, 0, 0]
     running.takesNow 0x1C 9 b = true ∧ replied (exec (.setIssue 9 b) running) = some .range) := by decide +kernel

theorem witness_PickTimeout :
    (let s := clockAt 120000 (asking [reserved 255] ((hall claimed).setPocket 12 63 (holding .expectTake (some 7))))
     tableSorted s.trg.insts = true ∧ s.request 255 = some (reserved 255) ∧ s.tool 7 = some claimed ∧
      0 + s.isc.pickTimeout * 1000 ≤ s.tick ∧ (reserved 255).misses < 2 ∧
      tget (after (exec (.pickTimeout 255) s)).isc.latePicks (pocketKey 12 63) = some ⟨255, 7, 135000⟩ ∧
      ((after (exec (.pickTimeout 255) s)).tool 7).map (·.custody) = some .ready) ∧
    (let r := { reserved 255 with misses := 2 }
     let s := clockAt 120000 (asking [r] ((hall claimed).setPocket 12 63 (holding .expectTake (some 7))))
     s.request 255 = some r ∧ 2 ≤ r.misses ∧ (after (exec (.pickTimeout 255) s)).isc.queue = [] ∧
      (after (exec (.pickTimeout 255) s)).isc.latePicks = []) ∧
    (let s := clockAt 119999 (asking [reserved 255] ((hall claimed).setPocket 12 63 (holding .expectTake (some 7))))
     s.tick < 0 + s.isc.pickTimeout * 1000 ∧ (after (exec (.pickTimeout 255) s)).isc.queue = [reserved 255]) := by decide +kernel

theorem witness_IssueTimers :
    (let m : LatePick := ⟨255, 7, 15000⟩
     let s := { running with isc := { running.isc with latePicks := [(pocketKey 12 64, m)] } }
     tget s.isc.latePicks (pocketKey 12 64) = some m ∧ tableSorted s.trg.insts = true ∧
      m.endTick ≤ (clockAt 15000 s).tick ∧ (after (exec (.latePickEnd 12 64) (clockAt 15000 s))).isc.latePicks = [] ∧
      (clockAt 14999 s).tick < m.endTick ∧ (after (exec (.latePickEnd 12 64) (clockAt 14999 s))).isc.latePicks ≠ []) ∧
    (let r := { stationed 255 with neededBy := some 100 }
     let at_ := fun (n : Nat) => asking [r] { running with hck := { running.hck with hall := ⟨n, 0⟩ } }
     ((at_ 701).isc.queue.map (·.number)).Nodup ∧ (after (exec .hallSecond (at_ 701))).isc.queue = [] ∧
      (after (exec .hallSecond (at_ 700))).isc.queue = [r]) ∧
    (let s := (assigning (hall (tool .staged .bench))).setPocket 12 63 (waitingPocket .expectPlace)
     tget s.isc.assigned 7 = some ⟨12, 63, .stock, false, 0⟩ ∧ s.tool 7 = some (tool .staged .bench) ∧
      0 + s.isc.putawayTimeout * 1000 ≤ (clockAt 300000 s).tick ∧
      ((after (exec (.putawayTimeout 7) (clockAt 300000 s))).tool 7).map (·.custody) = some .missing ∧
      ((after (exec (.putawayTimeout 7) (clockAt 299999 s))).tool 7).map (·.custody) = some .staged) := by decide +kernel

/-- R48: the numbers run from 255 on to 1, and one in use is passed over. -/
theorem witness_RequestNumber :
    (asking [request 255] running).freeNumber 255 255 = some 1 ∧
    ((hall { tool .issued .toBench with link := some 1 }).freeNumber 255 1) = some 2 ∧
    ([request 1].Pairwise (fun a b => b.before a = false)) ∧
    (placeRequest [request 1] { request 2 with prio := .normal }).map (·.number) = [1, 2] ∧
    (placeRequest [{ request 1 with prio := .prefetch }] (request 2)).map (·.number) = [2, 1] := by decide +kernel

theorem witness_Choices :
    (let s := ((hall { lying with life := 10 }).setTool 8 { tool .ready (.pocket 12 64) with life := 9 }).setPocket 12 63
      (holding .occupied (some 7)) |>.setPocket 12 64 (holding .occupied (some 8))
     (s.chooseCandidate (request 1)).map (·.1) = some 8 ∧ (s.chooseCandidate { request 1 with minLife := some 10 }).map (·.1) = some 7) ∧
    (let s := (running.setPocket 1 64 sensingPocket).setPocket 12 1 sensingPocket
     tableSorted s.psc.pockets = true ∧ s.suitablePocket .stock (some 12) = some (pocketKey 12 1) ∧
      s.suitablePocket .stock (some 2) = some (pocketKey 1 64) ∧ s.suitablePocket .hold none = none) := by decide +kernel

/-! ### Chapters 4 and 5 -/

def zTable : List Int := [0, 0, 0, 0, 0, 0, 35, 47, 0, 0, 0, 0, 0, 10, 9, 0, 0]
def xTable : List Int := [0, 0, 0, 12, 20, 0, 0, 0, 0]

/-- Head A of worked case 1 of chapter 5, zeroed at tick 0. -/
def headA : Head :=
  { Head.reset with
    line := .ready, lastFrame := some 0, scaleTemp := some 2290, zCurve := some zTable, xCurve := some xTable
    zero := some { z := 1200035, x := 300014, time := ⟨0, 0⟩, tick := 0, temp := 2290 }, zeroOk := true
    settings := { HeadSettings.reset with
      masterLength := 1500000, masterRadius := 250000, scaleCoeff := 800
      offsets := [0, 0, -200, 0, 0, 0, 0, 0, 0, 0, 0, 0, 0, 0, 0, 0] } }

/-- The tool type of worked case 1. -/
def endMill : TypeRec :=
  { typeA with nominalLength := 1825000, nominalRadius := 248500, lengthBand := ⟨-50, 200⟩, radiusBand := ⟨-50, 20⟩, expansion := 550 }

/-- A capture at head A: raw Z, raw X, scale and tool temperature. -/
def shot (z x scale toolTemp : Nat) : Capture :=
  headA.takeCapture (BitVec.ofNat 24 z) (BitVec.ofNat 24 x) 0 (BitVec.ofNat 16 scale) (BitVec.ofNat 16 toolTemp) 0

def millShots : List Capture :=
  [shot 1525310 298400 2338 2208, shot 1525318 298460 2341 2211, shot 1525290 298900 2340 2209]

def measureSession (n : Nat) (cs : List Capture) : Session :=
  { kind := .measure n .unmeasured none, handle := 65535, state := .capturing, captures := cs, windowStart := 1, result := none }

def zeroSession (cs : List Capture) : Session :=
  { kind := .zero, handle := 1, state := .capturing, captures := cs, windowStart := 1, result := none }

def presetting (x : Option Session) (s : State) : State := s.setHead .a { headA with session := x }

/-- The tie case: a half-way share is rounded away from zero. -/
theorem test_tie_case : corrected zPoints zTable 3850000 = 3850009 ∧ roundDiv (-5) 2 = -3 ∧ roundDiv 5 2 = 3 ∧
    roundDiv 3993 2 = 1997 ∧ roundDiv 2000003 2 = 1000002 := by decide +kernel

def millTool : InstRec := { tool .atPresetter (.head .a) with meas := none }
def milling (cs : List Capture) : State := presetting (some (measureSession 7 cs)) ((hall millTool).setType 5 endMill)

/-- Worked case 1: the fourth capture gives agreement and PASS with the figures of the spec. -/
theorem test_worked_case_1 :
    (((after (exec (.capture .a 1525314 298430 0 2341 2211 0) (milling millShots))).head .a).session.bind (·.result)).map
      (fun r => (r.verdict, r.values.map (fun v => [(v.length : Int), v.radius, v.runout, v.factor, v.dL, v.dR, v.acceptedZ]))) =
    some (.pass, some [1825153, 248464, 60, 156500, 153, -36, 1525359]) := by decide +kernel

/-- Worked case 2: one regrind mark on the governed radius gives dR 114, and ADJUST where the type is adjustable. -/
theorem test_worked_case_2 :
    (let t := { endMill with governed := .radius, regrindStep := 150 }
     let v := evaluate headA.settings 1200035 300014 t 1 [(1, shot 1525310 298400 2338 2208), (2, shot 1525318 298460 2341 2211),
       (4, shot 1525314 298430 2341 2211)]
     v.dR = 114 ∧ verdictOf true t v = .reject ∧
      verdictOf true { t with adjustable := true, adjustBand := some ⟨-100, 150⟩ } v = .adjust ∧
      verdictOf false t v = .drift) := by decide +kernel

/-- The limit case: a count above the range is limited and its capture carries the RANGE mark. -/
theorem test_limit_case : (shot 4000350 298400 2338 2208).rangeMark = true ∧ (shot 4000350 298400 2338 2208).z = 4000000 ∧
    (shot 4000000 298400 2338 2208).rangeMark = false := by decide +kernel

theorem witness_SetCurve :
    (let b : List Byte := [1, 1, 9] ++ (List.replicate 9 [0x07, 0xD0]).flatten
     let s := presetting none running
     s.takesNow 0x28 9 b = true ∧ headOf (fieldAt b 0 1) = some .a ∧ fieldAt b 1 1 ≤ 1 ∧ (s.head .a).session = none ∧
      (signedPairs (b.drop 3)).length = 9 ∧ (∀ v ∈ signedPairs (b.drop 3), -2000 ≤ v ∧ v ≤ 2000) ∧
      ((after (exec (.setCurve 9 b) s)).head .a).xCurve = some (List.replicate 9 2000) ∧
      ((after (exec (.setCurve 9 b) s)).head .a).zero = none ∧
      reports (exec (.setCurve 9 b) s) = [.zeroState .a false .removed] ∧
      replied (exec (.setCurve 9 b) (milling [])) = some .busy) ∧
    (let b : List Byte := [1, 0, 9] ++ (List.replicate 9 [0x07, 0xD0]).flatten
     State.reset.takesNow 0x28 9 b = true ∧ replied (exec (.setCurve 9 b) State.reset) = some .badLength) ∧
    (let b : List Byte := [1, 1, 9] ++ (List.replicate 9 [0x07, 0xD1]).flatten
     State.reset.takesNow 0x28 9 b = true ∧ (∃ v ∈ signedPairs (b.drop 3), 2000 < v) ∧
      replied (exec (.setCurve 9 b) State.reset) = some .range) ∧
    (let b : List Byte := [1, 2, 0]
     State.reset.takesNow 0x28 9 b = true ∧ 1 < fieldAt b 1 1 ∧ replied (exec (.setCurve 9 b) State.reset) = some .range) := by
  decide +kernel

/-- The body of SET_HEAD for head A with K given as `k`. -/
def headBody (h : Byte) (k : Byte) : List Byte := [h, 0x08] ++ List.replicate 58 0 ++ [k] ++ List.replicate 6 0

theorem witness_SetHead :
    (let s := presetting none running
     s.takesNow 0x29 9 (headBody 1 5) = true ∧ headOf (fieldAt (headBody 1 5) 0 1) = some .a ∧ (s.head .a).session = none ∧
      (headFields (headBody 1 5) (s.head .a).settings).inRange = true ∧
      ((after (exec (.setHead 9 (headBody 1 5)) s)).head .a).settings = { headA.settings with k := 5 } ∧
      (headFields (headBody 1 6) (s.head .a).settings).inRange = false ∧
      replied (exec (.setHead 9 (headBody 1 6)) s) = some .range ∧
      replied (exec (.setHead 9 (headBody 1 5)) (milling [])) = some .busy ∧
      headOf (fieldAt (headBody 3 5) 0 1) = none ∧ replied (exec (.setHead 9 (headBody 3 5)) s) = some .range) := by
  decide +kernel

theorem witness_SessionsOpen :
    (let s := presetting none (hall { tool .unmeasured .bench with meas := none })
     headOf (fieldAt [1] 0 1) = some .a ∧ s.takesNow 0x2A 9 [1] = true ∧ s.svp.mode = .running ∧ (s.head .a).session = none ∧
      (s.head .a).available = true ∧ data (exec (.zeroHead 9 [1]) s) = some (.handle 1) ∧
      s.takesNow 0x2B 9 [1, 0, 7] = true ∧ (s.tool (fieldAt [1, 0, 7] 1 2)).isSome = true ∧
      (s.head .a).zeroValid s.tick = true ∧ s.vacant 7 (.head .a) = true ∧
      ((after (exec (.measureBegin 9 [1, 0, 7]) s)).tool 7).map (·.custody) = some .atPresetter ∧
      (after (exec (.measureBegin 9 [1, 0, 7]) s)).lines.headA.length = 1) ∧
    replied (exec (.zeroHead 9 [1]) State.reset) = some .notInMode ∧ replied (exec (.zeroHead 9 [1]) running) = some .state ∧
    replied (exec (.zeroHead 9 [1]) (milling [])) = some .busy ∧
    replied (exec (.measureBegin 9 [1, 0, 7]) (hall (tool .ready .bench))) = some .state ∧
    replied (exec (.measureBegin 9 [1, 0, 7]) (milling [])) = some .busy ∧
    replied (exec (.measureBegin 9 [1, 0, 7]) (store (tool .ready .bench))) = some .notInMode ∧
    (let s := clockAt 28800001 (presetting none (hall (tool .ready .bench)))
     (s.head .a).zeroValid s.tick = false ∧ replied (exec (.measureBegin 9 [1, 0, 7]) s) = some .zeroStale) ∧
    (let s := presetting none (hall (tool .staged .bench))
     s.takesNow 0x2B 9 [1, 0, 7] = true ∧ replied (exec (.measureBegin 9 [1, 0, 7]) s) = some .state) := by decide +kernel

def passed : Result :=
  { verdict := .pass, time := ⟨9, 0⟩
    values := some (evaluate headA.settings 1200035 300014 endMill 0 [(1, shot 1525310 298400 2338 2208),
      (2, shot 1525318 298460 2341 2211), (4, shot 1525314 298430 2341 2211)]) }

def evaluated (r : Option Result) : State :=
  presetting (some { measureSession 7 [] with state := .evaluated, result := r }) ((hall millTool).setType 5 endMill)

theorem witness_SessionsClose :
    (let s := evaluated (some passed)
     headOf (fieldAt [1] 0 1) = some .a ∧ s.svp.mode = .running ∧ s.tool 7 = some millTool ∧ millTool.custody = .atPresetter ∧
      tableSorted s.trg.insts = true ∧ s.takesNow 0x2C 9 [1] = true ∧ s.takesNow 0x2D 9 [1] = true ∧
      ((after (exec (.measureEnd 9 [1]) s)).tool 7).map (fun r => (r.custody, r.generation, r.meas.map (·.length))) =
        some (.staged, 4, some 1825153) ∧
      ((after (exec (.measureAbort 9 [1]) s)).tool 7).map (fun r => (r.custody, r.generation)) = some (.unmeasured, 3)) ∧
    (let s := evaluated (some { passed with verdict := .reject })
     ((s.head .a).session.bind Session.held) = some .reject ∧
      ((after (exec (.measureEnd 9 [1]) s)).tool 7).map (fun r => (r.custody, r.qcause, r.meas)) =
        some (.quarantine, some .reject, none)) ∧
    (let s := evaluated none
     ((s.head .a).session.map (·.result)) = some none ∧
      data (exec (.measureEnd 9 [1]) s) = some (.sessionEnd none .unmeasured)) := by decide +kernel

theorem witness_HeadStatus :
    (let s := running.setHead .a { headA with line := .silent }
     reports (exec (.headStatus .a 0 2290) s) = [.headState .a true none] ∧
      (after (exec (.headStatus .a 0 2290) s)).lines.headA.length = 1) ∧
    (let s := presetting none running
     (s.head .a).session = none ∧ reports (exec (.headStatus .a 1 2290) s) = [.headState .a false (some .fault)]) ∧
    (let s := milling millShots
     (s.head .a).available = true ∧ (s.head .a).session = some (measureSession 7 millShots) ∧ s.tool 7 = some millTool ∧
      millTool.custody = .atPresetter ∧ tableSorted s.trg.insts = true ∧
      ((after (exec (.headStatus .a 1 2290) s)).tool 7).map (·.custody) = some .unmeasured) ∧
    ((2 : Byte) ≠ 0 ∧ ((after (exec (.headStatus .a 2 2290) (presetting none running))).head .a).line = .ready) := by decide +kernel

theorem witness_Capture :
    (let s := milling millShots
     (359 : BitVec 16).toNat ≤ 359 ∧ (s.head .a).line = .ready ∧ (s.head .a).session = some (measureSession 7 millShots) ∧
      (measureSession 7 millShots).state ≠ .evaluated ∧ s.tool 7 = some millTool ∧ s.type 5 = some endMill ∧
      (Session.agreement { measureSession 7 millShots with
        captures := millShots ++ [headA.takeCapture 1525314 298430 359 2341 2211 0] } headA.settings).isSome = true) ∧
    (let s := milling (millShots.take 2)
     Session.agreement { measureSession 7 (millShots.take 2) with
        captures := millShots.take 2 ++ [headA.takeCapture 1525290 298900 359 2340 2209 0] } headA.settings = none ∧
      ((after (exec (.capture .a 1525290 298900 359 2340 2209 0) s)).head .a).session.map (·.captures.length) = some 3) ∧
    (let s := milling (List.replicate 32 (shot 4000001 0 2290 2000))
     (measureSession 7 (List.replicate 32 (shot 4000001 0 2290 2000))).captures.length = 32 ∧
      (((after (exec (.capture .a 0 0 359 2340 2209 0) s)).head .a).session.bind Session.held) = some .unstable) ∧
    (let s := evaluated (some passed)
     (s.head .a).session.map (·.state) = some .evaluated ∧
      ((after (exec (.capture .a 1525322 0 359 2340 2209 0) s)).head .a).session.map (·.captures.length) = some 0) ∧
    (((after (exec (.capture .a 0 0 359 2340 2209 0) running)).head .a).lastFrame = some 0 ∧ (running.head .a).line ≠ .ready) := by
  decide +kernel

/-- Worked case 1, zeroing: three captures of the master. -/
theorem witness_ZeroSession :
    let master := shot 1200000 300000 2290 2000
    let x := zeroSession [master, master]
    let s := running.setHead .a { headA with zero := none, zeroOk := false, session := some x }
    (s.head .a).line = .ready ∧ (s.head .a).session = some x ∧ x.kind = .zero ∧ x.state ≠ .evaluated ∧
    Session.agreement { x with captures := x.captures ++ [(s.head .a).takeCapture 1200000 300000 0 2290 2000 0] }
      (s.head .a).settings = some [(1, master), (2, master), (3, master)] ∧
    ((after (exec (.capture .a 1200000 300000 0 2290 2000 0) s)).head .a).zero =
      some { z := 1200035, x := 300014, time := ⟨0, 0⟩, tick := 0, temp := 2290 } := by decide +kernel

theorem witness_HeadTimers :
    (let s := presetting none running
     (s.head .a).line ≠ .silent ∧ (s.head .a).lastFrame = some 0 ∧ (s.head .a).session = none ∧
      ((after (exec (.headSilence .a) (clockAt 2000 s))).head .a).line = .silent ∧
      ((after (exec (.headSilence .a) (clockAt 1999 s))).head .a).line = .ready ∧ (s.head .a).zeroOk = true ∧
      8 * 3600000 < (clockAt 28800001 s).tick ∧ ((after (exec (.zeroAgeLapse .a) (clockAt 28800001 s))).head .a).zeroOk = false ∧
      ((after (exec (.zeroAgeLapse .a) (clockAt 28800000 s))).head .a).zeroOk = true) ∧
    (let s := running.setHead .a { headA with rx := [0xA5], rxTick := 5 }
     (s.head .a).rx ≠ [] ∧ ((after (exec (.headFrameByteTimeout .a) (clockAt 16 s))).head .a).rx = [] ∧
      ((after (exec (.headFrameByteTimeout .a) (clockAt 15 s))).head .a).rx = [0xA5]) ∧
    (let b : List Byte := [0xA5, 0, 2, 0x02, 0, 0, 0]
     frameAt b = .discard ∧ (∀ x ∈ b.drop 1, x ≠ 0xA5) ∧
      ((after (exec (.headFrameDiscarded .a b) (clockAt 7 running))).head .a).rxTick = 7 ∧
      ((after (exec (.headFrameDiscarded .a b) (clockAt 7 running))).head .a).rx = []) := by decide +kernel

theorem witness_Arithmetic :
    (let x := measureSession 7 (millShots ++ [shot 1525314 298430 2341 2211])
     (x.agreement headA.settings).map (fun cs => cs.map (·.1)) = some [1, 2, 4] ∧ (x.inView 5).map (·.1) = [1, 2, 3, 4]) ∧
    zTable.length = zPoints.length ∧ xTable.length = xPoints.length ∧ medianOf [3, 1, 2, 4] = 2 ∧
    zPoints[6]? = some 1200000 ∧ zPoints[7]? = some 1600000 ∧ corrected zPoints zTable 1525310 = 1525355 ∧
    zPoints.getLast? = some 4000000 ∧ corrected zPoints zTable 4000000 = 4000000 := by decide +kernel

/-! ### Chapters 6 and 7 -/

/-- The instance LOADED at station 32, place 60, with its magazine entry. -/
def loaded (r : InstRec) : State :=
  (hall r).setStation 32 { Station.reset with magazine := [(60, ⟨7, true, some 3, false⟩)] }

def inMachine : InstRec := tool .loaded (.station 32 60)

theorem witness_Usage :
    (let s := loaded inMachine
     s.svp.mode = .running ∧ 1 ≤ 60 ∧ 60 ≤ (s.station 32).places ∧ s.tool 7 = some inMachine ∧ s.holds 32 7 inMachine = some 60 ∧
      3459 < inMachine.life ∧ s.type 5 = some typeA ∧ typeA.warnLevel * typeA.budget / 1000 < inMachine.life - 3459 ∧
      s.usage 32 7 60 3459 = (s.setTool 7 { inMachine with life := 541 }, .ok) ∧
      ((s.usage 32 7 60 3460).1.tool 7).map (fun r => (r.life, r.warned)) = some (540, true) ∧
      inMachine.life ≤ 4000 ∧ ((s.usage 32 7 60 4000).1.tool 7).map (fun r => (r.life, r.spent, r.warned)) = some (0, true, true)) ∧
    (let s := loaded inMachine
     s.holds 32 7 inMachine ≠ some 59 ∧ inMachine.takesLate 32 = false ∧ (s.usage 32 7 59 1).2 = .wrongPlace ∧
      (s.usage 31 7 59 1).2 = .stale ∧ (s.usage 32 8 60 1).2 = .unknownInstance ∧ (s.usage 32 7 61 1).2 = .placeRange ∧
      (State.reset.usage 32 7 60 1).2 = .notRunning) ∧
    (let r := { tool .returning (.backStation 32) with last := some ⟨32, 3⟩ }
     r.takesLate 32 = true ∧ (((hall r).usage 32 7 60 1).1.tool 7).map (·.life) = some 3999) := by decide +kernel

theorem witness_Regrind :
    (let r := { tool .regrindDue (.pocket 12 64) with life := 0, marks := 1 }
     let s := (hall r).setPocket 12 64 (holding .occupied (some 7))
     toolNo (fieldAt [0, 7] 0 2) = true ∧ s.tool (fieldAt [0, 7] 0 2) = some r ∧ s.type r.type = some typeA ∧
      tableSorted s.psc.pockets = true ∧ s.takesNow 0x30 9 [0, 7] = true ∧ s.svp.mode = .running ∧ r.marks < typeA.regrindLimit ∧
      (s.pocket 12 64).tool = some 7 ∧ (s.pocket 12 64).sensed = .present ∧ (s.pocket 12 64).state ≠ .fault ∧
      ((after (exec (.regrindOut 9 [0, 7]) s)).tool 7).map (fun r => (r.custody, r.loc)) = some (.atRegrind, .offsite) ∧
      ((after (exec (.regrindOut 9 [0, 7]) s)).pocket 12 64).mark = some ⟨7, .regrind⟩) ∧
    (let r := { tool .regrindDue .bench with life := 0, marks := 2 }
     typeA.regrindLimit ≤ r.marks ∧ replied (exec (.regrindOut 9 [0, 7]) (hall r)) = some .limit) ∧
    replied (exec (.regrindOut 9 [0, 7]) (hall (tool .staged .bench))) = some .state ∧
    replied (exec (.regrindOut 9 [0, 7]) (store (tool .staged .bench))) = some .notInMode ∧
    (let r := { tool .atRegrind .offsite with life := 0, marks := 1, warned := true, spent := true }
     let s := hall r
     s.takesNow 0x31 9 [0, 7] = true ∧ r.marks < typeA.regrindLimit ∧ 1 ≤ typeA.budget ∧
      ((after (exec (.regrindBack 9 [0, 7]) s)).tool 7).map (fun r => (r.custody, r.life, r.marks, r.warned)) =
        some (.unmeasured, 5400, 2, false)) ∧
    replied (exec (.regrindBack 9 [0, 7]) (hall { tool .atRegrind .offsite with marks := 2 })) = some .limit ∧
    replied (exec (.regrindBack 9 [0, 7]) (hall (tool .staged .bench))) = some .state ∧
    replied (exec (.regrindBack 9 [0, 7]) (store (tool .staged .bench))) = some .notInMode ∧
    running.takesNow 0x30 9 [0, 0] = true ∧ replied (exec (.regrindOut 9 [0, 0]) running) = some .range ∧
    replied (exec (.regrindOut 9 [8, 0]) running) = some .noSuch ∧
    running.takesNow 0x31 9 [8, 1] = true ∧ replied (exec (.regrindBack 9 [8, 1]) running) = some .range ∧
    replied (exec (.regrindBack 9 [0, 1]) running) = some .noSuch := by decide +kernel

/-- Station 32's link in a state, aligned. -/
def linked (l : Link) : State := running.setLink 32 l

def linkIn (st : LinkState) : Link := { Link.reset with state := st, lastByte := some 0, expected := some 0 }

theorem witness_LinkCommands :
    (let s := linked (linkIn .acquiring)
     s.takesNow 0x38 9 [32, 2] = true ∧ policyOf (fieldAt [32, 2] 1 1) = some .echoOnly ∧ (s.link 32).state = .acquiring ∧
      ((after (exec (.setLink 9 [32, 2]) s)).link 32).state = .echo ∧
      ((after (exec (.setLink 9 [32, 1]) s)).link 32) = { linkIn .acquiring with policy := .checkOnly } ∧
      policyOf (fieldAt [32, 3] 1 1) = none ∧ replied (exec (.setLink 9 [32, 3]) s) = some .range ∧
      replied (exec (.setLink 9 [33, 1]) s) = some .range) ∧
    (let s := linked { linkIn .acquiring with rx := [0xC3] }
     s.takesNow 0x39 9 [32] = true ∧ ((after (exec (.linkRestart 9 [32]) s)).link 32).state = .searching) ∧
    (let s := linked { linkIn .searching with rx := [0xC3] }
     (s.link 32).state = .searching ∧ ((after (exec (.linkRestart 9 [32]) s)).link 32).rx = []) ∧
    (let s := linked (linkIn .checked)
     (s.link 32).state.running = true ∧ ((after (exec (.linkRestart 9 [32]) s)).link 32).state = .searching) ∧
    replied (exec (.linkRestart 9 [32]) running) = some .state ∧ replied (exec (.linkRestart 9 [33]) running) = some .range := by
  decide +kernel

theorem witness_LinkTimers :
    (let s := linked (linkIn .checked)
     (s.link 32).state ≠ .down ∧ (s.link 32).lastByte = some 0 ∧ 0 + 100 ≤ (clockAt 100 s).tick ∧
      ((after (exec (.linkSilence 32) (clockAt 100 s))).link 32).state = .down ∧
      ((after (exec (.linkSilence 32) (clockAt 99 s))).link 32).state = .checked) ∧
    (let l := { linkIn .acquiring with acqCount := 200, acqRun := 7 }
     200 ≤ l.acqCount ∧ l.acqRun < 8 ∧ ((after (exec (.acquireTimeout 32) (linked l))).link 32).state = .echo ∧
      ((after (exec (.acquireTimeout 32) (linked { l with policy := .checkOnly }))).link 32).acqCount = 0 ∧
      ((after (exec (.acquireTimeout 32) (linked { l with acqCount := 199 }))).link 32).state = .acquiring) := by decide +kernel

/-- An outstanding entry of the station, last sent in period 0. -/
def entry (failures : Nat) (o : BlockOrigin) : Outstanding :=
  { message := 1, body := List.replicate 24 0, sent := 0, failures := failures, resend := false, origin := o }

def flyingTxn : Txn :=
  { id := 0, number := 65535, kind := .notice .hold 5, state := .inFlight, busyRetries := 0, holdOff := none, firstSent := some 0
    delivered := false, broadcast := none, body := [], handed := true, slot := 0 }

theorem witness_LinkSends :
    (let s := clockAt 4 (linked (linkIn .acquiring))
     ((s.link 32).period + 1) * 4 ≤ s.tick ∧ (s.link 32).outstanding = [] ∧
      ((after (exec (.blockPeriod 32) s)).link 32).period = 1 ∧
      ((after (exec (.blockPeriod 32) (clockAt 3 s))).link 32).period = 0) ∧
    (let s := (clockAt 4 (linked (linkIn .checked))).setStation 32 { Station.reset with replies := [⟨9, .ok, none⟩] }
     (s.link 32).outstanding.length < 4 ∧ (s.station 32).replies = [⟨9, .ok, none⟩] ∧
      ((after (exec (.blockPeriod 32) s)).link 32).outstanding.map (·.message) = [1] ∧
      (((after (exec (.blockPeriod 32) s)).link 32).lastSent.take 10) = [0xC3, 0x3C, 32, 0x10, 0, 1, 0x05, 9, 0, 0]) ∧
    (let s := clockAt 36 (linked { linkIn .checked with outstanding := [entry 2 .reply], period := 8 })
     ((s.link 32).period + 1) * 4 ≤ s.tick ∧ (entry 2 .reply).sent + 8 ≤ (s.link 32).period ∧
      ((after (exec (.outstandingTimeout 32) s)).link 32).outstanding = [{ entry 2 .reply with failures := 3, resend := true }]) ∧
    (let s := clockAt 36 (linked { linkIn .checked with outstanding := [entry 3 .reply], period := 8 })
     3 ≤ (entry 3 .reply).failures ∧ ((after (exec (.outstandingTimeout 32) s)).link 32).outstanding = []) ∧
    (let s := (clockAt 36 (linked { linkIn .checked with outstanding := [entry 3 (.transaction 0)], period := 8 })).setStation 32
        { Station.reset with queue := [flyingTxn] }
     s.flying 32 0 = some flyingTxn ∧ (reports (exec (.outstandingTimeout 32) s)).head? =
        some (.handoffResult 32 { flyingTxn with state := .failed } .checkFailed)) ∧
    (let s := clockAt 36 (linked { linkIn .echo with held := some ⟨[], some 0⟩, period := 8 })
     (s.link 32).state = .echo ∧ 0 + 8 ≤ (s.link 32).period ∧ ((after (exec (.echoHeldTimeout 32) s)).link 32).held = none) := by
  decide +kernel

/-- A FILL block from station 32 at a train position, carrying the check of the block before. -/
def fill (position : Nat) (before : List Byte) : List Byte :=
  blockBytes 32 position .fill none 0 (List.replicate 24 0) (crc16 before)

theorem witness_Blocks :
    (((running.link 32).rx = [] ∧ (running.link 32).state = .down ∧
      ((after (exec (.stationBlock 32 [0xC3]) running)).link 32).state = .searching ∧
      ((after (exec (.stationBlock 32 [0xC3]) running)).link 32).rx = [0xC3])) ∧
    (let b := fill 0 []
     b.length = 32 ∧ wellFormedBlock 32 (some 0) b = true ∧
      ((after (exec (.stationBlock 32 b) (linked (linkIn .checked)))).link 32).held = some ⟨b, none⟩ ∧
      ((after (exec (.stationBlock 32 b) (linked { linkIn .acquiring with acqCount := 199 }))).link 32).held = some ⟨b, none⟩) ∧
    (let h := fill 7 []
     let b := fill 0 h
     let l := { linkIn .checked with held := some ⟨h, none⟩ }
     b.length = 32 ∧ wellFormedBlock 32 l.expected b = true ∧ blockKindOf h = .fill ∧ blockVerdict h = none ∧ l.returns.length < 4 ∧
      (l.addDensity true).bad ≤ 200 ∧ fieldAt b 30 2 = (crc16 h).toNat ∧
      ((after (exec (.stationBlock 32 b) (linked l))).link 32).returns = [⟨7, true, .fill⟩] ∧
      ((after (exec (.stationBlock 32 (fill 0 [])) (linked l))).link 32).returns = [⟨7, false, .fill⟩]) ∧
    (let h := fill 7 []
     let l := { linkIn .acquiring with held := some ⟨h, none⟩, acqRun := 7, acqCount := 199 }
     l.acqCount < 200 ∧ l.acqRun = 7 ∧ ((after (exec (.stationBlock 32 (fill 0 h)) (linked l))).link 32).state = .checked) ∧
    (let b : List Byte := List.replicate 32 0
     b.length = 32 ∧ openerAt b = false ∧
      ((after (exec (.stationBlock 32 b) (linked { linkIn .checked with misses := 1 }))).link 32).misses = 2 ∧
      ((after (exec (.stationBlock 32 b) (linked { linkIn .checked with misses := 2 }))).link 32).state = .searching) := by
  decide +kernel

/-! ### Chapter 8 -/

theorem witness_StationsAndGroups :
    (let s := loaded inMachine
     s.takesNow 0x40 9 [32, 120] = true ∧ ¬ (∃ e ∈ (s.station 32).magazine, 120 < e.1) ∧
      ((after (exec (.setStation 9 [32, 120]) s)).station 32).places = 120 ∧ (∃ e ∈ (s.station 32).magazine, 59 < e.1) ∧
      replied (exec (.setStation 9 [32, 59]) s) = some .state ∧
      ((after (exec (.setStation 9 [32, 60]) s)).station 32).places = 60 ∧
      replied (exec (.setStation 9 [32, 121]) s) = some .range ∧ replied (exec (.setStation 9 [0, 1]) s) = some .range) ∧
    (running.takesNow 0x41 9 [8, 3, 32, 1, 32] = true ∧ (after (exec (.setGroup 9 [8, 3, 32, 1, 32]) running)).group 8 = [1, 32] ∧
      (after (exec (.setGroup 9 [8, 0]) (running.setGroup 8 [1]))).group 8 = [] ∧
      replied (exec (.setGroup 9 [9, 0]) running) = some .range ∧ replied (exec (.setGroup 9 [1, 1, 33]) running) = some .range) := by
  decide +kernel

theorem witness_TypeHold :
    (let s := asking [reserved 255] ((hall claimed).setPocket 12 63 (holding .expectTake (some 7)))
     s.takesNow 0x42 9 [0, 5, 0] = true ∧ s.svp.mode = .running ∧ s.type 5 = some typeA ∧ typeA.held = false ∧
      tableSorted s.trg.insts = true ∧ s.hoe.broadcasts.length = 4 ∧ 1 ≤ s.hoe.nextBroadcast ∧ s.hoe.nextBroadcast ≤ 255 ∧
      s.tool 7 = some claimed ∧ claimed.type = 5 ∧ claimed.custody = .reserved ∧ claimed.link = some 255 ∧
      s.request 255 = some (reserved 255) ∧
      ((after (exec (.typeHold 9 [0, 5, 0]) s)).tool 7).map (fun r => (r.custody, r.qcause)) = some (.quarantine, some .typeHold) ∧
      ((after (exec (.typeHold 9 [0, 5, 0]) s)).request 255).map (·.state) = some .waitingStock ∧
      data (exec (.typeHold 9 [0, 5, 0]) s) = some (.handle 1)) ∧
    (let b : Broadcast := { number := 9, kind := .hold, type := 1, results := [(1, none)], done := false, tick := 0, time := ⟨0, 0⟩ }
     let s := { hall (tool .staged .bench) with hoe := { Hoe.reset with broadcasts := List.replicate 4 (some b) } }
     (∀ b ∈ s.hoe.broadcasts, ∃ x ∈ b, x.done = false) ∧ replied (exec (.typeHold 9 [0, 5, 8]) s) = some .busy) ∧
    replied (exec (.typeHold 9 [0, 5, 9]) running) = some .range ∧ replied (exec (.typeHold 9 [2, 0, 8]) running) = some .noSuch ∧
    replied (exec (.typeHold 9 [0, 5, 0]) State.reset) = some .notInMode ∧
    replied (exec (.typeHold 9 [0, 5, 0]) (running.setType 5 { typeA with held := true })) = some .held := by decide +kernel

theorem witness_TypeRelease :
    (let r := { tool .quarantine .bench with qcause := some .typeHold }
     let s := (hall r).setType 5 { typeA with held := true }
     s.takesNow 0x43 9 [0, 5, 8] = true ∧ s.svp.mode = .running ∧ s.type 5 = some { typeA with held := true } ∧
      tableSorted s.trg.insts = true ∧ (∀ e ∈ s.trg.insts, e.2.type = 5 → e.2.custody ≠ .issued) ∧ s.tool 7 = some r ∧
      ((after (exec (.typeRelease 9 [0, 5, 8]) s)).tool 7).map (fun r => (r.custody, r.qcause)) = some (.staged, none)) ∧
    replied (exec (.typeRelease 9 [0, 5, 0]) (hall (tool .staged .bench))) = some .state ∧
    replied (exec (.typeRelease 9 [0, 5, 9]) running) = some .range ∧
    replied (exec (.typeRelease 9 [0, 5, 0]) running) = some .noSuch ∧
    replied (exec (.typeRelease 9 [0, 5, 0]) State.reset) = some .notInMode := by decide +kernel

def pendingTxn (k : Nat) (kind : TxnKind) : Txn :=
  { flyingTxn with id := k, number := k, kind := kind, state := .pending, firstSent := none, handed := false }

/-- So many transactions have been made. -/
def made (k : Nat) (s : State) : State := { s with hoe := { s.hoe with entries := k } }

theorem witness_SendData :
    (let s := loaded inMachine
     s.takesNow 0x44 9 [0, 7] = true ∧ s.svp.mode = .running ∧ s.tool (fieldAt [0, 7] 0 2) = some inMachine ∧
      inMachine.heldPlace = some (32, 60) ∧ s.typeHeld 5 = false ∧ (s.station 32).queue.length < 16 ∧
      (∀ x ∈ (s.station 32).queue, x.id < s.hoe.entries) ∧
      ((after (exec (.sendData 9 [0, 7]) s)).station 32).queue.map (·.kind) = [.toolData 7 60 3] ∧
      data (exec (.sendData 9 [0, 7]) s) = some (.handle 1)) ∧
    (let s := made 3 ((hall inMachine).setStation 32 { Station.reset with queue := [pendingTxn 2 (.toolData 7 60 2)] })
     (∀ x ∈ (s.station 32).queue, x.id < s.hoe.entries) ∧
     (∃ x ∈ (s.station 32).queue, x.state = .pending ∧ x.kind = .toolData 7 60 2) ∧
      ((after (exec (.sendData 9 [0, 7]) s)).station 32).queue.map (·.kind) = [.toolData 7 60 3] ∧
      reports (exec (.sendData 9 [0, 7]) s) =
        [.handoffResult 32 { pendingTxn 2 (.toolData 7 60 2) with state := .cancelled } .superseded]) ∧
    (let s := (hall inMachine).setStation 32
       { Station.reset with queue := (List.range 16).map (fun k => pendingTxn (k + 2) (.toolData 8 59 2)) }
     16 ≤ (s.station 32).queue.length ∧ (∀ x ∈ (s.station 32).queue, x.kind = .toolData 8 59 2) ∧
      replied (exec (.sendData 9 [0, 7]) s) = some .full) ∧
    replied (exec (.sendData 9 [0, 7]) ((hall inMachine).setType 5 { typeA with held := true })) = some .held ∧
    replied (exec (.sendData 9 [0, 7]) (hall (tool .staged .bench))) = some .state ∧
    replied (exec (.sendData 9 [0, 8]) running) = some .noSuch ∧ replied (exec (.sendData 9 [8, 1]) running) = some .range ∧
    replied (exec (.sendData 9 [0, 7]) State.reset) = some .notInMode := by decide +kernel

def queued (q : List Txn) (s : State) : State := s.setStation 32 { Station.reset with queue := q }

theorem witness_HandoffTimers :
    (let s := queued [flyingTxn] running
     s.inFlight 32 = some flyingTxn ∧ flyingTxn.firstSent = some 0 ∧ 0 + 2000 ≤ (clockAt 2000 s).tick ∧
      ((after (exec (.handoffTimeout 32) (clockAt 2000 s))).station 32).queue = [] ∧
      ((after (exec (.handoffTimeout 32) (clockAt 1999 s))).station 32).queue = [flyingTxn]) ∧
    (let x := { pendingTxn 1 (.notice .hold 5) with holdOff := some 500 }
     let s := queued [x] (linked (linkIn .checked))
     (s.station 32).queue = [] ++ x :: [] ∧ ((s.station 32).queue.map (·.id)).Nodup ∧ (s.link 32).state.running = true ∧
      x.state = .pending ∧ s.svp.mode = .running ∧
      ((after (exec (.holdOffExpiry 32) (clockAt 500 s))).station 32).queue.map (·.state) = [.inFlight] ∧
      ((after (exec (.holdOffExpiry 32) (clockAt 499 s))).station 32).queue.map (·.state) = [.pending]) ∧
    (let b : Broadcast :=
       { number := 255, kind := .hold, type := 5, results := [(1, some .ok), (32, none)], done := false, tick := 0, time := ⟨0, 0⟩ }
     let s := { running with hoe := { Hoe.reset with broadcasts := [some b, none, none, none] } }
     s.broadcast 255 = some b ∧ b.done = false ∧ b.tick + 5000 ≤ (clockAt 5000 s).tick ∧
      ((after (exec (.broadcastExpiry 255) (clockAt 5000 s))).broadcast 255).map (fun b => (b.results, b.done)) =
        some ([(1, some .ok), (32, some .timeout)], true) ∧
      ((after (exec (.broadcastExpiry 255) (clockAt 4999 s))).broadcast 255).map (·.done) = some false) := by decide +kernel

/-! ### Chapter 9 -/

def clock (h : Hck) : State := { running with hck := h }

def usablePath : Path := { Path.powerOn with status := .usable, reference := some 0, validRun := 8 }

theorem witness_TimeSettings :
    (let b : List Byte := [0xFF, 0xFF, 0xFF, 0xFF]
     running.takesNow 0x48 9 b = true ∧ (running.isc.queue.map (·.number)).Nodup ∧ running.hck.state = .unset ∧
      (after (exec (.setTime 9 b) running)).hck.hall = ⟨4294967295, 0⟩ ∧
      (after (exec (.setTime 9 b) running)).hck.state = .freeRun ∧
      (let s := clock { Hck.powerOn with state := .lockedSecondary }
       s.hck.state = .lockedSecondary ∧ (after (exec (.setTime 9 b) s)).hck.setPending = some 4294967295) ∧
      (let s := clock { Hck.powerOn with state := .freeRun, hall := ⟨5, 250⟩ }
       s.hck.state = .freeRun ∧ reports (exec (.setTime 9 [0, 0, 0, 5]) s) =
        [.timeState .freeRun .freeRun .qualifying .qualifying (some (-250)) .setTime])) ∧
    (let s := running
     s.takesNow 0x49 9 [1, 20, 0] = true ∧ s.tick < 1021 ∧
      (after (exec (.setClock 9 [1, 20, 0]) s)).hck.primary.deadline = 1021 ∧
      (after (exec (.setClock 9 [1, 1, 0]) (clockAt 1002 s))).hck.primary.lastStep = some .missing ∧
      replied (exec (.setClock 9 [1, 21, 0]) s) = some .range ∧ replied (exec (.setClock 9 [2, 0, 2]) s) = some .range ∧
      replied (exec (.setClock 9 [0, 0, 0]) s) = some .ok ∧
      (after (exec (.setClock 9 [2, 0, 0]) s)).hck.revertive = false) ∧
    (let s := clock { Hck.powerOn with state := .lockedSecondary, primary := usablePath, secondary := usablePath, revertive := false }
     s.hck.revertive = false ∧ s.hck.primary.status = .usable ∧
      (after (exec (.setClock 9 [2, 0, 1]) s)).hck.state = .lockedPrimary) := by decide +kernel

/-- R183: the revertive setting alone, where it switches nothing and where it does. -/
theorem witness_RevertiveAlone :
    let set : List Byte := [2, 0, 1]
    let clear : List Byte := [2, 0, 0]
    let on := fun (state : TimeState) (revertive : Bool) (primary : Path) (pending : Option Nat) =>
      clock { Hck.powerOn with
        state := state, revertive := revertive, primary := primary, secondary := usablePath, setPending := pending }
    let hck := fun (b : List Byte) (s : State) => (after (exec (.setClock 9 b) s)).hck
    (let s := on .lockedSecondary false Path.powerOn none
     s.takesNow 0x49 9 set = true ∧ flagAt set 0 0 = false ∧ flagAt set 0 1 = true ∧ fieldAt set 2 1 ≤ 1 ∧
      s.hck.state ≠ .unset ∧
      selectPath s.hck.state (decide (s.hck.primary.status = .usable)) (decide (s.hck.secondary.status = .usable)) true =
        .lockedSecondary ∧
      hck set s = { s.hck with revertive := true } ∧ replied (exec (.setClock 9 set) s) = some .ok ∧
      reports (exec (.setClock 9 set) s) = []) ∧
    (let s := on .lockedSecondary true usablePath none
     hck set s = s.hck ∧ hck clear s = { s.hck with revertive := false } ∧ reports (exec (.setClock 9 clear) s) = []) ∧
    (let s := on .unset false usablePath none
     hck set s = { s.hck with revertive := true } ∧ reports (exec (.setClock 9 set) s) = []) ∧
    (let s := on .lockedSecondary false usablePath (some 7)
     hck set s = { s.hck with revertive := true, state := .lockedPrimary, shiftOwed := true } ∧
      reports (exec (.setClock 9 set) s) = [.timeState .lockedSecondary .lockedPrimary .usable .usable none .state]) ∧
    (let s := clock { Hck.powerOn with state := .lockedPrimary, setPending := some 7 }
     s.takesNow 0x49 9 clear = true ∧ selectPath s.hck.state false false false = .freeRun ∧ (hck clear s).state = .freeRun ∧
      (hck clear s).hall = ⟨7, 0⟩ ∧ (hck clear s).setPending = none ∧
      reports (exec (.setClock 9 clear) s) =
        [.timeState .lockedPrimary .freeRun .qualifying .qualifying none .state,
         .timeState .freeRun .freeRun .qualifying .qualifying (some 7000) .setTime]) := by decide +kernel

theorem witness_Pulse :
    ((running.isc.queue.map (·.number)).Nodup ∧ (running.path .secondary).reference = none ∧
      (after (exec (.ppsPulse .secondary) (clockAt 5 running))).hck.secondary.reference = some 5) ∧
    (let p := { Path.powerOn with reference := some 0, validRun := 1 }
     let s := clock { Hck.powerOn with primary := p, tick := 1003 }
     (s.path .primary).reference = some 0 ∧ (after (exec (.ppsPulse .primary) s)).hck.primary.status = .usable ∧
      (after (exec (.ppsPulse .primary) s)).hck.state = .unset ∧
      (after (exec (.ppsPulse .primary) { s with hck := { s.hck with state := .freeRun, hall := ⟨7, 499⟩ } })).hck.state =
        .lockedPrimary ∧
      (after (exec (.ppsPulse .primary) { s with hck := { s.hck with state := .freeRun, hall := ⟨7, 499⟩ } })).hck.hall = ⟨7, 0⟩ ∧
      (after (exec (.ppsPulse .primary) { s with hck := { s.hck with tick := 1004, state := .freeRun } })).hck.primary.validRun = 0) ∧
    (let s := clock { Hck.powerOn with primary := usablePath, tick := 997, state := .lockedPrimary, hall := ⟨7, 500⟩ }
     (after (exec (.ppsPulse .primary) s)).hck.hall = ⟨8, 0⟩ ∧
      (after (exec (.ppsPulse .primary) { s with hck := { s.hck with setPending := some 90 } })).hck.hall = ⟨90, 0⟩ ∧
      (after (exec (.ppsPulse .secondary) s)).hck.hall = ⟨7, 500⟩) := by decide +kernel

theorem witness_StepDeadline :
    (let s := clockAt 1004 running
     (s.path .primary).deadline = 1004 ∧ (s.path .primary).status ≠ .usable ∧
      (after (exec (.stepDeadline .primary) s)).hck.primary.invalidRun = 1 ∧
      (after (exec (.stepDeadline .primary) (clockAt 1003 running))).hck.primary.invalidRun = 0) ∧
    (let p := { usablePath with invalidRun := 2 }
     let s := clock { Hck.powerOn with primary := p, tick := 1004 }
     p.status = .usable ∧ 3 ≤ min (p.invalidRun + 1) 3 ∧ s.hck.state = .unset ∧
      (after (exec (.stepDeadline .primary) s)).hck.primary.status = .lost ∧
      (let u := { s with hck := { s.hck with state := .lockedPrimary, setPending := some 90 } }
       (after (exec (.stepDeadline .primary) u)).hck.state = .freeRun ∧
        (after (exec (.stepDeadline .primary) u)).hck.hall = ⟨90, 0⟩) ∧
      (let u := { s with hck := { s.hck with state := .lockedPrimary, secondary := usablePath } }
       (after (exec (.stepDeadline .primary) u)).hck.state = .lockedSecondary)) := by decide +kernel

/-! ### Chapters 10 and 11 -/

theorem witness_StepTakesFront :
    (let s := { running with pending := [.hallSecond, .frameSent] }
     s.pending = .hallSecond :: [.frameSent] ∧ (after (step s)).pending = [.frameSent]) := by decide +kernel

theorem witness_EmptyQueue :
    (let f : HostFrame := { kind := 0x53, tag := 9, body := [0] }
     let s := { running with svp := { running.svp with buffer := [⟨f, none⟩] } }
     s.pending = [] ∧ s.svp.resetting = false ∧ s.svp.untaken = [f] ∧ replied (step s) = some .ok) ∧
    (let s := clock { Hck.powerOn with tick := 1003, hall := ⟨4294967295, 999⟩ }
     s.pending = [] ∧ s.svp.untaken = [] ∧ (s.link 1).state ≠ .acquiring ∧ (after (step s)).tick = 1004 ∧
      (after (step s)).hck.hall = ⟨0, 0⟩ ∧ Instr.hallSecond ∈ (after (step s)).pending ∧
      Instr.stepDeadline .primary ∈ (after (step s)).pending ∧ Instr.blockPeriod 32 ∈ (after (step s)).pending) := by
  decide +kernel

def resetFrame : HostFrame := { kind := 0x51, tag := 9, body := [] }

theorem witness_Resets :
    (let s := clockAt 77 (hall (tool .staged .bench))
     s.takesNow 0x51 9 [] = true ∧ (after (exec (.reset 9 []) s)).svp.resetting = true ∧
      (after (exec (.reset 9 []) s)).tool 7 = some (tool .staged .bench) ∧
      (after (exec .frameSent (after (exec (.reset 9 []) s)))).trg = Trg.reset ∧
      (after (exec .frameSent (after (exec (.reset 9 []) s)))).svp = Svp.powerOn 115200 ∧
      (after (exec .frameSent (after (exec (.reset 9 []) s)))).hck.primary.deadline = 927) ∧
    (let s := { running with svp := { running.svp with
       resetting := true, buffer := [⟨resetFrame, some (0, ⟨.ok, .nothing⟩)⟩], tx := some { item := .reply 0, part := 1, parts := 1 } } }
     s.svp.resetting = true ∧ resetFrame.kind = 0x51 ∧ s.svp.tx = some { item := .reply 0, part := 1, parts := 1 } ∧
      (after (exec .frameSent s)).svp.mode = .loading ∧ (after (exec .resetEffect s)).svp.mode = .loading) ∧
    running.svp.resetting = false ∧ (after (exec (.powerOn true true) running)).svp.rate = 921600 ∧
    (after (exec (.powerOn true false) running)).svp.rate = 460800 := by decide +kernel

/-- The check value of the usual test string "123456789" for this generator and initial value is 29B1h. -/
theorem test_check_value : crc16 [0x31, 0x32, 0x33, 0x34, 0x35, 0x36, 0x37, 0x38, 0x39] = 0x29B1#16 := by decide +kernel

theorem witness_Bytes :
    ((List.replicate 250 (0xA5 : Byte)).length ≤ 250) ∧
    (let f : HostFrame := { kind := 0xA5, tag := 0xA5, body := [0xA5, 0xA5, 0xA5] }
     running.svp.rx = [] ∧ f.body.length ≤ 250 ∧ running.svp.buffer.length < 4 ∧
      (after (exec (.supervisoryFrame f.bytes) running)).svp.buffer = [⟨f, none⟩]) ∧
    (let inner := bytesOf 2 2 ++ ([0x50, 9] : List Byte) ++ []
     ([0, 0] : List Byte) ≠ checkBytes inner ∧ (∀ b ∈ inner ++ [0, 0], b ≠ 0xA5) ∧
      (after (exec (.supervisoryFrame ([0xA5] ++ inner ++ [0, 0])) running)).svp.discards = 1) ∧
    (numberOf [0, 1] < 2 ∧ 252 < numberOf [0, 253] ∧ (after (exec (.supervisoryFrame [0xA5, 0, 1]) running)).svp.discards = 1 ∧
      (after (exec (.supervisoryFrame [0xA5, 0, 253]) running)).svp.discards = 1) ∧
    ((0xA4 : Byte) ≠ 0xA5 ∧ (after (exec (.supervisoryFrame [0xA4]) running)).svp.discards = 0) ∧
    (let s := { running with svp := { running.svp with rx := [0xA5], rxTick := 5, discards := 65535 } }
     s.svp.rx ≠ [] ∧ s.svp.rxTick + 10 < (clockAt 16 s).tick ∧
      (after (exec .frameByteTimeout (clockAt 16 s))).svp.discards = 65535 ∧
      (after (exec .frameByteTimeout (clockAt 16 s))).svp.rx = [] ∧
      (after (exec .frameByteTimeout (clockAt 15 s))).svp.rx = [0xA5]) := by decide +kernel

def busyPort (b : Option BusySlot) : State :=
  { running with svp := { running.svp with buffer := List.replicate 4 ⟨resetFrame, none⟩, busy := b } }

theorem witness_FramesChecked :
    (let f : HostFrame := { kind := 0x7F, tag := 9, body := [] }
     (running.bringIn f).svp.takes f = true ∧ bodyLength 0x7F [] = none ∧
      replied (exec (commandOf 0x7F 9 []) running) = some .unknownKind) ∧
    (let f : HostFrame := { kind := 0x02, tag := 9, body := [1] }
     (running.bringIn f).svp.takes f = true ∧ bodyLength 0x02 [1] = some 2 ∧
      replied (exec (commandOf 0x02 9 [1]) running) = some .badLength) ∧
    (State.reset.takesNow 0x1A 9 [1] = true ∧ State.reset.svp.mode = .loading ∧
      replied (exec (commandOf 0x1A 9 [1]) State.reset) = some .notInMode) ∧
    (running.takesNow 0x50 9 [] = true ∧ replied (exec (commandOf 0x50 9 []) running) = some .notInMode) ∧
    (let s := busyPort none
     s.svp.untaken.head? ≠ some ⟨0x50, 9, []⟩ ∧ 4 ≤ s.svp.buffer.length ∧
      (after (exec (commandOf 0x50 9 []) s)).svp.refusals = 1 ∧
      (after (exec (commandOf 0x50 9 []) (busyPort (some ⟨0, 0, 0⟩)))).svp.drops = 1) ∧
    (let s := { running with svp := { running.svp with buffer := List.replicate 3 ⟨resetFrame, none⟩ } }
     s.svp.untaken ≠ [] ∧ (after (exec (commandOf 0x50 9 []) s)).svp.buffer.length = 4) := by decide +kernel

theorem witness_Sent :
    (running.svp.tx = none ∧ (running.svp.startTx).tx = none ∧ (after (exec .frameSent running)).lines.sv = none) ∧
    (let tx := fun (p q : Nat) => some ({ item := .reply 4, part := p, parts := q } : TxState)
     let s := fun (p q : Nat) => { running with svp := { running.svp with
       buffer := [⟨resetFrame, some (3, .plain .ok)⟩, ⟨resetFrame, some (4, .plain .ok)⟩], tx := tx p q } }
     ((s 1 2).svp.buffer = [⟨resetFrame, some (3, .plain .ok)⟩] ++ ⟨resetFrame, some (4, .plain .ok)⟩ :: []) ∧
      (after (exec .frameSent (s 1 2))).svp.tx = tx 2 2 ∧
      (after (exec .frameSent (s 2 2))).svp.buffer = [⟨resetFrame, some (3, .plain .ok)⟩]) ∧
    (let s := { running with svp := { running.svp with busy := some ⟨0x50, 9, 0⟩, tx := some { item := .busy, part := 1, parts := 1 } } }
     s.svp.busy = some ⟨0x50, 9, 0⟩ ∧ (after (exec .frameSent s)).svp.busy = none ∧
      (after (exec .frameSent s)).lines.sv = some (.busy 9 0x50)) ∧
    (let q : QueuedReport := { report := .cribFull 7 .staged .stock, overrun := 0, time := ⟨0, 0⟩, stamp := 8 }
     let s := { running with svp := { running.svp with reports := [q], tx := some { item := .report 8, part := 1, parts := 1 } } }
     s.svp.reports = q :: [] ∧ (after (exec .frameSent s)).svp.reports = [] ∧
      (after (exec .frameSent s)).lines.sv = some (.report q)) := by decide +kernel

theorem agrees_reset : (∀ c p n, 1 ≤ p → p ≤ 64 → (State.reset.pocket c p).tool = some n →
      (State.reset.pocket c p).enabled = true ∧ ∃ i, State.reset.tool n = some i ∧ i.loc = .pocket c p) ∧
    (∀ n i c p, State.reset.tool n = some i → i.loc = .pocket c p → (State.reset.pocket c p).tool = some n) := by
  refine ⟨fun c p n _ _ h => ?_, fun n i c p h => ?_⟩
  · exact absurd (show (none : Option Nat) = some n from h) (by simp)
  · exact absurd (show (none : Option InstRec) = some i from h) (by simp)

theorem witness_Start :
    State.reset.takesNow 0x50 9 [] = true ∧ tableSorted State.reset.trg.insts = true ∧
    tableSorted State.reset.psc.pockets = true ∧ State.reset.svp.mode = .loading ∧
    (after (exec (.start 9 []) State.reset)).svp.mode = .running ∧ replied (exec (.start 9 []) running) = some .notInMode ∧
    (let s := store (tool .ready (.pocket 12 64))
     s.takesNow 0x50 9 [] = true ∧ s.tool 7 = some (tool .ready (.pocket 12 64)) ∧ (s.pocket 12 64).tool ≠ some 7 ∧
      data (exec (.start 9 []) s) = some (.disagreement .instanceNotRecorded 12 64 7) ∧
      data (exec (.start 9 []) (s.setTool 6 (tool .ready (.pocket 12 63)))) =
        some (.disagreement .instanceNotRecorded 12 63 6) ∧
      (let t := (s.setPocket 2 64 { sensingPocket with tool := some 9 }).setPocket 12 1 { sensingPocket with tool := some 9 }
       data (exec (.start 9 []) t) = some (.disagreement .pocketNamesOther 2 64 9)) ∧
      (let t := s.setPocket 12 64 { sensingPocket with tool := some 7, enabled := false }
       data (exec (.start 9 []) t) = some (.disagreement .disabledPocket 12 64 7))) := by decide +kernel

theorem witness_Reads :
    (let s := hall (tool .staged .bench)
     s.takesNow 0x03 9 [0, 5] = true ∧ data (exec (.readType 9 [0, 5]) s) = some (.typeRec 5 typeA) ∧
      replied (exec (.readType 9 [2, 1]) s) = some .range ∧ s.takesNow 0x0E 9 [0, 7] = true ∧
      data (exec (.readInstance 9 [0, 7]) s) = some (.instRec 7 (tool .staged .bench))) ∧
    (running.takesNow 0x15 9 [12, 64] = true ∧ running.takesNow 0x16 9 [12] = true ∧ running.takesNow 0x1E 9 [255] = true ∧
      running.takesNow 0x1F 9 [64] = true ∧ running.takesNow 0x20 9 [8, 0] = true ∧ running.takesNow 0x2E 9 [2] = true ∧
      running.takesNow 0x3A 9 [32] = true ∧ running.takesNow 0x45 9 [32] = true ∧ running.takesNow 0x46 9 [] = true ∧
      running.takesNow 0x47 9 [255] = true ∧ running.takesNow 0x4A 9 [] = true ∧ running.takesNow 0x53 9 [1] = true ∧
      running.takesNow 0x52 9 [0x3F, 0xFF] = true ∧ fieldAt [0x3F, 0xFF] 0 2 = 16383 ∧ headOf 2 = some .b) ∧
    (let s := { running with svp := { running.svp with discards := 5 } }
     (after (exec (.readPort 9 [1]) s)).svp.discards = 0 ∧ (after (exec (.readPort 9 [0]) s)).svp.discards = 5) ∧
    (after (exec (.reportEnable 9 [0, 4]) running)).svp.enable = 4 ∧
    replied (exec (.reportEnable 9 [0x40, 0]) running) = some .range := by decide +kernel

theorem witness_Worklist :
    let s := asking [{ request 9 with type := 6, state := .waitingStock, neededBy := some 4294967295 }]
      ((((hall { tool .unmeasured .bench with meas := none }).setType 6 typeA).setTool 8
        { tool .unmeasured (.pocket 12 64) with type := 6 }).setTool 9 { tool .unmeasured .bench with type := 6 })
    s.takesNow 0x1D 9 [] = true ∧ tableSorted s.trg.insts = true ∧ (∀ r ∈ s.isc.queue, ∀ b ∈ r.neededBy, b ≤ 4294967295) ∧
    data (exec (.nextToMeasure 9 []) s) =
      some (.worklist [(9, 6, .bench, some 9), (8, 6, .pocket 12 64, some 9), (7, 5, .bench, none)]) := by decide +kernel

theorem witness_RoundTrip :
    typeA.inRange = true ∧
    (let r := { tool .loaded (.station 32 255) with
       generation := 65535, life := 16777215, marks := 4, link := some 255, qcause := some .host, owed := true
       meas := some ⟨4000000, 1500000, 1500000, ⟨4294967295, 999⟩, .b, true⟩, last := some ⟨32, 65535⟩ }
     instFields (instBytes 2048 r) = some r ∧ (instBytes 2048 r).length = 37) := by decide +kernel

/-- The machine answers a next state. -/
def went (o : Host.Outcome State Fault Refusal) : Bool :=
  match o with
  | .next _ => true
  | _ => false

/-- A running part with one cabinet in use. -/
def oneCabinet : State := scanning (some (.auto 64))

theorem witness_capacities : oneCabinet.WithinCapacities ∧ went (step oneCabinet) = true := by
  refine ⟨⟨?_, ?_, ⟨?_, ?_, ?_, ?_⟩, fun h => ?_, fun n => ?_, ?_, fun n => ?_⟩, by decide +kernel⟩
  · unfold Svp.Within; decide +kernel
  · unfold Hck.Within Path.Within; decide +kernel
  · decide +kernel
  · decide +kernel
  · intro e h
    obtain rfl := List.mem_singleton.mp (show e ∈ [(12, { Cabinet.reset with settings := settingsA, pass := some (.auto 64) })] from h)
    refine ⟨by unfold CabSettings.Within; decide +kernel, ?_, ?_, ?_⟩
    · intro c hc; cases hc
    · intro x hx; obtain rfl := Option.mem_some.mp hx; exact ⟨by decide, by decide⟩
    · intro l hl; cases hl
  · intro e h
    obtain rfl := List.mem_singleton.mp (show e ∈ [(pocketKey 12 64, sensingPocket)] from h)
    unfold Pocket.Within
    decide +kernel
  · cases h <;> (unfold Head.Within; decide +kernel)
  · show Link.reset.Within
    unfold Link.Within; decide +kernel
  · unfold Hoe.Within Station.Within; decide +kernel
  · show Station.reset.Queued 0
    exact ⟨by decide, by decide, fun _ h => (List.not_mem_nil h).elim, .nil, fun _ h => (List.not_mem_nil h).elim,
        fun _ h => (List.not_mem_nil h).elim⟩

/-- Two live requests in service order. -/
def twoRequests : State := asking [stationed 1, { stationed 255 with prio := .prefetch }] running

theorem witness_request_queue : twoRequests.isc.Within ∧ twoRequests.isc.InOrder ∧ went (step twoRequests) = true := by
  unfold Isc.Within Isc.InOrder
  decide +kernel

theorem witness_register : (hall (tool .missing .nowhere)).trg.Lawful ∧ went (step (hall (tool .missing .nowhere))) = true :=
  ⟨lawful_hall, by decide +kernel⟩

/-! ### Chapters 1 and 2: refusals, single passes and the ends of passes -/

theorem witness_LoadInstance_refusals :
    (let b := instBytes 7 seated
     State.reset.takesNow 0x09 9 b = true ∧ State.reset.svp.mode = .loading ∧ fieldAt b 4 1 = 4 ∧ fieldAt b 5 1 = 1 ∧
      fieldAt b 7 1 = 12 ∧ fieldAt b 8 1 = 64 ∧ fieldAt b 6 1 = 0 ∧ flagAt b 9 0 = true ∧ fieldAt b 10 3 = 1800010 ∧
      (instFields b).isSome = true) ∧
    ([instBytes 0 seated, instBytes 2049 seated, instBytes 7 { seated with loc := .pocket 12 65 },
      instBytes 7 { seated with loc := .station 3 61, custody := .loaded }, instBytes 7 { seated with marks := 5 },
      instBytes 7 { seated with last := some ⟨33, 0⟩ }, instBytes 7 { seated with link := some 0 }].all (fun b =>
        State.reset.takesNow 0x09 9 b && (replied (exec (.loadInstance 9 b) (State.reset.setType 5 typeA)) == some .range))) =
      true ∧
    (let b := instBytes 7 { seated with link := some 1 }
     flagAt b 9 4 = true ∧ fieldAt b 32 1 = 1 ∧ replied (exec (.loadInstance 9 b) (State.reset.setType 5 typeA)) = some .state) := by
  decide +kernel

/-- R15: a record replaced leaves its old pocket or magazine place, and takes up the new one. -/
theorem witness_LoadInstance_moves :
    (let s := ((store seated).setPocket 12 64 { sensingPocket with tool := some 7, state := .occupied, sensed := .present }).setPocket
       1 1 { sensingPocket with baseline := none }
     let b := instBytes 7 { seated with loc := .pocket 1 1 }
     s.takesNow 0x09 9 b = true ∧ s.loadRefusal 7 { seated with loc := .pocket 1 1 } = none ∧ s.isc.waiting = [] ∧
      (s.tool 7).map (·.loc) = some (.pocket 12 64) ∧ (s.pocket 12 64).mark = none ∧
      (after (exec (.loadInstance 9 b) s)).pocket 12 64 = { sensingPocket with state := .unknown, sensed := .present } ∧
      (after (exec (.loadInstance 9 b) s)).pocket 1 1 =
        { sensingPocket with baseline := none, tool := some 7, state := .occupied, sensed := .undecided } ∧
      reports (exec (.loadInstance 9 b) s) = []) ∧
    (let r := tool .loaded (.station 32 60)
     let s := (store r).setStation 32 { Station.reset with magazine := [(60, ⟨7, true, some 3, false⟩)] }
     let b := instBytes 7 { r with loc := .station 1 1 }
     s.takesNow 0x09 9 b = true ∧ s.loadRefusal 7 { r with loc := .station 1 1 } = none ∧
      (s.tool 7).map (·.loc) = some (.station 32 60) ∧
      ((after (exec (.loadInstance 9 b) s)).station 32).magazine = [] ∧
      ((after (exec (.loadInstance 9 b) s)).station 1).magazine = [(1, ⟨7, true, some 3, false⟩)]) := by decide +kernel

theorem witness_LoadInstance_checks :
    let s := store lying
    s.type 5 = some typeA ∧
    s.loadRefusal 8 { seated with type := 6 } = some .noSuch ∧
    s.loadRefusal 8 { seated with custody := .reserved } = some .state ∧
    s.loadRefusal 8 { seated with custody := .staged } = some .state ∧
    s.loadRefusal 8 lying = some .state ∧
    s.loadRefusal 8 { seated with life := 5401, marks := 4 } = some .range ∧
    s.loadRefusal 8 { seated with life := 5400, marks := 3 } = some .limit ∧
    s.loadRefusal 8 { seated with meas := none } = some .state ∧
    s.loadRefusal 8 { seated with link := some 1 } = some .state ∧
    s.loadRefusal 7 { seated with life := 5400, marks := 2 } = none := by decide +kernel

theorem witness_ScanOnce_nothing :
    let s := running.setCab 12 { Cabinet.reset with settings := settingsA }
    s.takesNow 0x13 9 [12] = true ∧ s.svp.mode = .running ∧ (s.cab 12).settings.enabled = true ∧ (s.cab 12).pass = none ∧
      (s.cab 12).heldLearn = none ∧ (∀ q ∈ List.range 65, (s.pocket 12 q).enabled = false) ∧
      replied (exec (.scanOnce 9 [12]) s) = some .accepted ∧ reports (exec (.scanOnce 9 [12]) s) = [.scanDone 12 1 0 0] := by
  decide +kernel

theorem witness_LearnEmpty_refusals :
    ([[13, 1, 1], [0, 1, 1], [12, 1, 0], [12, 1, 65]].all (fun b => running.takesNow 0x12 9 b &&
      (replied (exec (.learnEmpty 9 b) running) == some .range))) = true ∧
    (let s := scanning (some (.learn 3 1 [2] [] [] []))
     s.takesNow 0x12 9 [12, 1, 64] = true ∧ (s.cab 12).pass = some (.learn 3 1 [2] [] [] []) ∧
      replied (exec (.learnEmpty 9 [12, 1, 64]) s) = some .busy) ∧
    (let s := (scanning none).setPocket 12 64 { sensingPocket with state := .unknown, sensed := .present }
     s.takesNow 0x12 9 [12, 1, 64] = true ∧ (s.cab 12).pass = none ∧ (s.cab 12).heldLearn = none ∧
      (s.pocket 12 64).sensed = .present ∧ replied (exec (.learnEmpty 9 [12, 1, 64]) s) = some .state) := by decide +kernel

theorem witness_SinglePass :
    let s := measuring sensingPocket (scanning none)
    let s := s.setCab 12 { s.cab 12 with pass := some (.single 3 63 5) }
    (s.cab 12).pass = some (.single 3 63 5) ∧ (s.pocket 12 63).enabled = true ∧ (s.pocket 12 64).enabled = true ∧
      ((after (exec (.pocketCount 12 20000) s)).cab 12).pass = some (.single 3 64 6) := by decide +kernel

/-- Cabinet 12 at the last pocket of a pass, one pocket enabled, not sensing. -/
def lastPocket (k : Cabinet) : State :=
  (running.setCab 12 k).setPocket 12 64 { sensingPocket with baseline := none, presentBound := none, absentBound := none }

theorem witness_PassEnds :
    (let k := { Cabinet.reset with
       settings := settingsA, pass := some (.single 3 64 0), boundary := some 7
       pendingSettings := some { settingsA with window := 4096, interval := 400 } }
     let s := lastPocket k
     (s.pocket 12 64).enabled = true ∧ (∀ q ∈ List.range 64, (s.pocket 12 q).enabled = false) ∧
      (s.pocket 12 64).baseline = none ∧ (s.cab 12).pass = some (.single 3 64 0) ∧
      reports (exec (.pocketCount 12 5) s) = [.scanDone 12 3 1 0] ∧
      ((after (exec (.pocketCount 12 5) s)).cab 12) =
        { settings := { settingsA with window := 4096, interval := 400 }, pendingSettings := none, pass := some (.auto 64)
          heldLearn := none, boundary := some 400 }) ∧
    (let k := { Cabinet.reset with settings := settingsA, pass := some (.auto 64), heldLearn := some ⟨9, [1, 64]⟩ }
     let s := lastPocket k
     (s.cab 12).pass = some (.auto 64) ∧ reports (exec (.pocketCount 12 5) s) = [] ∧
      ((after (exec (.pocketCount 12 5) s)).cab 12).pass = some (.learn 9 1 [64] [] [] [])) := by decide +kernel

theorem witness_LearningEnds :
    let s := (running.setCab 12 { Cabinet.reset with pass := some (.learn 3 1 [2] [] [] []) }).setPocket 12 2
      { sensingPocket with state := .unknown, sensed := .present }
    (s.cab 12).pass = some (.learn 3 1 [2] [] [] []) ∧ (s.cab 12).pendingSettings = none ∧ (s.cab 12).heldLearn = none ∧
      (s.pocket 12 2).learnable = false ∧ (s.pocket 12 1).learnable = true ∧ (s.pocket 12 1).enabled = false ∧
      reports (exec (.learnMeasurement 12 16382) s) = [.learnDone 12 3 [1] [2] []] ∧
      reports (exec (.learnMeasurement 12 0) s) = [.learnDone 12 3 [] [2] [1]] ∧
      ((after (exec (.learnMeasurement 12 0) s)).cab 12).pass = none ∧
      (let u := s.setPocket 12 1 { sensingPocket with baseline := none, sensed := .undecided }
       (u.pocket 12 1).enabled = true ∧ (u.pocket 12 1).state = .empty ∧ u.isc.waiting = [] ∧
        ((after (exec (.learnMeasurement 12 16382) u)).pocket 12 1).sensed = .absent ∧
        reports (exec (.learnMeasurement 12 16382) u) = [.learnDone 12 3 [1] [2] []]) := by decide +kernel

/-! ### Chapter 3: eviction, numbers, and the calls of the stations -/

/-- The queue is full: 63 requests and this one. -/
def crowd (v : Request) (s : State) : State := asking ((List.range 63).map (fun k => request (k + 1)) ++ [v]) s

def evictable : Request := { request 200 with prio := .prefetch }
def evictableClaim : Request := { reserved 255 with prio := .prefetch }

/-- An ISSUE of type 5 to station 32, place 60, URGENT. -/
def urgentBody : List Byte := [0, 5, 32, 60, 1, 0, 0, 0, 0, 0, 0, 0, 0]

def urgentNeed : NewRequest := ⟨.supervisor, 5, .station 32 60, .urgent, none, none⟩

theorem evicts_crowd : (crowd evictable (hall (tool .missing .nowhere))).Evicts evictable ∧
    (crowd evictableClaim (hall claimed)).Evicts evictableClaim :=
  ⟨⟨by decide +kernel, rfl, by decide, by decide +kernel⟩, ⟨by decide +kernel, rfl, by decide, by decide +kernel⟩⟩

theorem releases_crowd : (crowd evictable (hall (tool .missing .nowhere))).Releases evictable 0 [] ∧
    (crowd evictableClaim (hall claimed)).Releases evictableClaim 7
      [.custodyChange 7 5 (some .reserved) (.pocket 12 63) (some .ready) (.pocket 12 63) .release none] :=
  ⟨.inl ⟨.inl rfl, rfl⟩, .inr ⟨rfl, rfl, claimed, by decide +kernel, rfl, .inr ⟨12, 63, rfl⟩, rfl⟩⟩

/-- The next request number. -/
def nextIs (k : Nat) (s : State) : State := { s with isc := { s.isc with nextNumber := k } }

theorem witness_Eviction :
    (let s := crowd evictable (hall (tool .missing .nowhere))
     s.takesNow 0x18 9 urgentBody = true ∧ tableSorted s.trg.insts = true ∧ s.svp.mode = .running ∧
      s.type 5 = some typeA ∧ s.requestFor 32 60 5 = none ∧ s.isc.queue.length = 64 ∧ (s.isc.queue.map (·.number)).Nodup ∧
      (s.without evictable).freeNumber 255 s.isc.nextNumber = some 64 ∧
      data (exec (.issue 9 urgentBody) s) = some (.requestHandle 64 false) ∧
      (reports (exec (.issue 9 urgentBody) s)).take 2 =
        [.requestState { evictable with state := .cancelled } .evicted, .requestState (s.entrant urgentNeed 64) .entered]) ∧
    (let s := crowd evictableClaim (hall claimed)
     s.takesNow 0x18 9 urgentBody = true ∧ s.requestFor 32 60 5 = none ∧
      (s.without evictableClaim).freeNumber 255 s.isc.nextNumber = some 64 ∧
      (reports (exec (.issue 9 urgentBody) s)).head? =
        some (.custodyChange 7 5 (some .reserved) (.pocket 12 63) (some .ready) (.pocket 12 63) .release none)) ∧
    (let s := nextIs 255 (crowd evictableClaim (hall claimed))
     s.freeNumber 255 255 = some 64 ∧ (s.without evictableClaim).freeNumber 255 255 = some 255 ∧
      data (exec (.issue 9 urgentBody) s) = some (.requestHandle 255 false)) := by decide +kernel

/-- Every request number is in use, by instances on their way. -/
def spentNumbers (q : List Request) : State :=
  asking q { running with trg :=
    { types := [(5, typeA)]
      insts := (List.range 255).map (fun k => (k + 1, { tool .issued .toBench with link := some (k + 1) })) } }

theorem none_free : (spentNumbers []).freeNumber 255 1 = none := by decide +kernel

/-- Where another state uses as many numbers, none is free there either. -/
theorem freeNumber_none_of_inUse (s t : State) (h : ∀ n, s.numberInUse n = true → t.numberInUse n = true) (fuel : Nat) :
    ∀ n, s.freeNumber fuel n = none → t.freeNumber fuel n = none := by
  induction fuel with
  | zero => intro n _; rfl
  | succ k ih =>
    intro n hn
    by_cases hu : s.numberInUse n = true
    · simp only [State.freeNumber, hu, if_true] at hn
      simp only [State.freeNumber, h n hu, if_true]
      exact ih _ hn
    · simp [State.freeNumber, hu] at hn

theorem none_free_queue (q : List Request) : (spentNumbers q).freeNumber 255 1 = none :=
  freeNumber_none_of_inUse (spentNumbers []) _ (fun n h => by
    simp only [State.numberInUse, spentNumbers, asking, List.any_nil, Bool.false_or] at h ⊢
    rw [h, Bool.or_true]) 255 1 none_free

theorem witness_NoNumber :
    (let s := spentNumbers []
     s.isc.queue.length < 64 ∧ s.freeNumber 255 s.isc.nextNumber = none ∧ tableSorted s.trg.insts = true ∧
      s.type 5 = some typeA ∧ s.requestFor 32 60 5 = none ∧ s.takesNow 0x18 9 urgentBody = true) ∧
    (let s := spentNumbers [evictable]
     s.isc.queue.length < 64 ∧ s.freeNumber 255 s.isc.nextNumber = none ∧ (s.isc.queue.map (·.number)).Nodup ∧
      s.requestFor 32 60 5 = none ∧ (s.without evictable).freeNumber 255 s.isc.nextNumber = none) :=
  ⟨⟨by decide, none_free_queue _, by decide +kernel, by decide +kernel, by decide +kernel, by decide +kernel⟩,
   ⟨by decide, none_free_queue _, by decide, by decide +kernel, by decide +kernel⟩⟩

/-- With every number in use an evicted request leaves none free: the need is refused, and the evicted request stays cancelled. -/
theorem witness_NoNumber_evicts :
    let s := spentNumbers [evictable]
    (s.stationEffect 32 (.call 5 60 .urgent none none)).2 = (.queueFull, none) ∧
      (s.stationEffect 32 (.call 5 60 .urgent none none)).1.isc.queue = [] ∧
      (s.autoRequest 32 60 5 .urgent).svp.reports.map (·.report) =
        [.requestState { evictable with state := .cancelled } .evicted, .requestDropped 32 60 5 .urgent .noNumber] := by
  decide +kernel

theorem evicts_numbers : (spentNumbers [evictable]).Evicts evictable := by
  unfold State.Evicts
  decide +kernel

theorem witness_Call :
    (State.reset.stationEffect 32 (.call 5 60 .normal none none)).2 = (.notRunning, none) ∧
    (running.stationEffect 32 (.call 5 61 .normal none none)).2 = (.placeRange, none) ∧
    (running.stationEffect 32 (.call 5 60 .normal none none)).2 = (.badType, none) ∧
    (let s := hall (tool .missing .nowhere)
     60 ≤ (s.station 32).places ∧ s.type 5 = some typeA ∧ tableSorted s.trg.insts = true ∧ s.requestFor 32 60 5 = none ∧
      s.isc.queue.length < 64 ∧ s.freeNumber 255 s.isc.nextNumber = some 1 ∧
      (s.stationEffect 32 (.call 5 60 .normal (some 4294967295) none)).2 = (.ok, some 1) ∧
      (s.stationEffect 32 (.call 5 60 .normal (some 4294967295) none)).1.isc.queue.map (·.neededBy) = [some 4294967295]) ∧
    (let s := asking [stationed 255] (hall (tool .missing .nowhere))
     s.requestFor 32 60 5 = some (stationed 255) ∧
      (s.stationEffect 32 (.call 5 60 .urgent none none)).2 = (.merged, some 255)) ∧
    (let s := crowd (request 64) (hall (tool .missing .nowhere))
     64 ≤ s.isc.queue.length ∧ (s.stationEffect 32 (.call 5 60 .urgent none none)).2 = (.queueFull, none)) ∧
    (let s := crowd evictable (hall (tool .missing .nowhere))
     s.isc.queue.length = 64 ∧ (s.without evictable).freeNumber 255 s.isc.nextNumber = some 64 ∧
      (s.stationEffect 32 (.call 5 60 .urgent none none)).2 = (.ok, some 64)) := by decide +kernel

theorem witness_CallCancel :
    (State.reset.stationEffect 32 (.callCancel 60 5)).2 = (.notRunning, none) ∧
    (running.stationEffect 32 (.callCancel 0 5)).2 = (.placeRange, none) ∧
    running.requestFor 32 60 5 = none ∧ (running.stationEffect 32 (.callCancel 60 5)).2 = (.stale, none) ∧
    (let r := { stationed 255 with state := .issued }
     (asking [r] running).requestFor 32 60 5 = some r ∧ ((asking [r] running).stationEffect 32 (.callCancel 60 5)).2 = (.stale, none)) ∧
    (let s := asking [stationed 255] running
     s.requestFor 32 60 5 = some (stationed 255) ∧ (stationed 255).state = .queued ∧
      (s.stationEffect 32 (.callCancel 60 5)).2 = (.ok, none) ∧ (s.stationEffect 32 (.callCancel 60 5)).1.isc.queue = []) ∧
    (let r := { reserved 255 with dest := .station 32 60 }
     let s := asking [r] (hall claimed)
     s.requestFor 32 60 5 = some r ∧ s.tool 7 = some claimed ∧ (s.stationEffect 32 (.callCancel 60 5)).2 = (.ok, none) ∧
      ((s.stationEffect 32 (.callCancel 60 5)).1.tool 7).map (·.custody) = some .ready) := by decide +kernel

theorem witness_AutoRequest :
    (let s := asking [stationed 255] (hall (tool .missing .nowhere))
     tableSorted s.trg.insts = true ∧ s.requestFor 32 60 5 = some (stationed 255) ∧
      (s.autoRequest 32 60 5 .urgent).isc.queue.map (·.prio) = [.urgent]) ∧
    (let s := hall (tool .missing .nowhere)
     s.requestFor 32 60 5 = none ∧ s.freeNumber 255 s.isc.nextNumber = some 1 ∧
      (s.autoRequest 32 60 5 .prefetch).isc.queue.map (fun r => (r.number, r.origin)) = [(1, .auto)]) ∧
    (let s := crowd (request 64) (hall (tool .missing .nowhere))
     s.requestFor 32 60 5 = none ∧ 64 ≤ s.isc.queue.length ∧ (∀ r ∈ s.isc.queue, r.prio ≠ .prefetch) ∧
      (s.autoRequest 32 60 5 .urgent).svp.reports.map (·.report) = [.requestDropped 32 60 5 .urgent .queueFull]) := by
  decide +kernel

theorem witness_PickTimeout_bench :
    (let s := clockAt 120000 (asking [reserved 255] (hall benchClaimed))
     tableSorted s.trg.insts = true ∧ s.request 255 = some (reserved 255) ∧ s.tool 7 = some benchClaimed ∧
      benchClaimed.loc = .bench ∧ 0 + s.isc.pickTimeout * 1000 ≤ s.tick ∧
      (after (exec (.pickTimeout 255) s)).isc.queue.map (·.misses) = [1] ∧ (after (exec (.pickTimeout 255) s)).isc.latePicks = []) ∧
    (let r := { reserved 255 with misses := 2 }
     let s := clockAt 120000 (asking [r] (hall { benchClaimed with life := 0 }))
     s.request 255 = some r ∧ 2 ≤ r.misses ∧ (after (exec (.pickTimeout 255) s)).isc.queue = [] ∧
      ((after (exec (.pickTimeout 255) s)).tool 7).map (·.custody) = some .regrindDue) ∧
    (let s := clockAt 119999 (asking [reserved 255] (hall benchClaimed))
     s.tick < 0 + s.isc.pickTimeout * 1000 ∧ (after (exec (.pickTimeout 255) s)).isc.queue = [reserved 255]) ∧
    (let s := clockAt 120000 (asking [reserved 255] ((hall { claimed with life := 0 }).setPocket 12 63 (holding .expectTake (some 7))))
     ((after (exec (.pickTimeout 255) s)).tool 7).map (·.custody) = some .regrindDue) := by decide +kernel

/-! ### Chapters 4 and 5: refusals, lost heads and the limits -/

theorem witness_SessionsOpen_refusals :
    (let s := presetting none (hall (tool .ready .bench))
     s.takesNow 0x2A 9 [3] = true ∧ s.takesNow 0x2B 9 [0, 0, 7] = true ∧ replied (exec (.zeroHead 9 [3]) s) = some .range ∧
      replied (exec (.measureBegin 9 [0, 0, 7]) s) = some .range ∧ s.takesNow 0x2B 9 [2, 8, 1] = true ∧
      replied (exec (.measureBegin 9 [2, 8, 1]) s) = some .range ∧ s.tool 2048 = none ∧
      replied (exec (.measureBegin 9 [2, 8, 0]) s) = some .noSuch) ∧
    (State.reset.takesNow 0x2B 9 [2, 8, 1] = true ∧ replied (exec (.measureBegin 9 [2, 8, 1]) State.reset) = some .notInMode ∧
      replied (exec (.zeroHead 9 [3]) State.reset) = some .notInMode) := by decide +kernel

theorem witness_SessionsClose_refusals :
    (State.reset.takesNow 0x2C 9 [1] = true ∧ State.reset.takesNow 0x2D 9 [1] = true ∧
      replied (exec (.measureEnd 9 [1]) State.reset) = some .notInMode ∧
      replied (exec (.measureAbort 9 [1]) State.reset) = some .notInMode) ∧
    (headOf (fieldAt [3] 0 1) = none ∧ replied (exec (.measureEnd 9 [3]) running) = some .range ∧
      replied (exec (.measureAbort 9 [0]) running) = some .range) ∧
    ((running.head .b).session = none ∧ replied (exec (.measureEnd 9 [2]) running) = some .state ∧
      replied (exec (.measureAbort 9 [2]) running) = some .state) ∧
    (let s := presetting (some (zeroSession [])) running
     (s.head .a).session = some (zeroSession []) ∧ s.takesNow 0x2D 9 [1] = true ∧
      replied (exec (.measureEnd 9 [1]) s) = some .state ∧
      reports (exec (.measureAbort 9 [1]) s) = [.closedZero 1 .a .abort] ∧
      ((after (exec (.measureAbort 9 [1]) s)).head .a).zero = headA.zero) := by decide +kernel

theorem witness_HeadLost :
    (let s := presetting (some (zeroSession [])) running
     (s.head .a).available = true ∧ (s.head .a).session = some (zeroSession []) ∧
      reports (exec (.headStatus .a 1 2290) s) = [.headState .a false (some .fault), .closedZero 1 .a .headLoss] ∧
      (clockAt 2000 s).tick = 0 + 2000 ∧
      reports (exec (.headSilence .a) (clockAt 2000 s)) = [.headState .a false (some .silent), .closedZero 1 .a .headLoss]) ∧
    (let s := clockAt 2000 (milling millShots)
     (s.head .a).available = true ∧ (s.head .a).session = some (measureSession 7 millShots) ∧ s.tool 7 = some millTool ∧
      tableSorted s.trg.insts = true ∧ ((after (exec (.headSilence .a) s)).tool 7).map (fun r => (r.custody, r.loc)) =
        some (.unmeasured, .bench) ∧ ((after (exec (.headSilence .a) s)).head .a).session = none) ∧
    (let s := running.setHead .a { headA with line := .silent }
     (s.head .a).line = .silent ∧ after (exec (.headSilence .a) (clockAt 2000 s)) = (clockAt 2000 s).idled) := by decide +kernel

/-- R207: the bytes of a status that fails are hunted through again. -/
theorem witness_StatusFails :
    (let frame := headFrame 0x02 ([(2 : Byte)] ++ bytesOf 2 0)
     (∀ b ∈ frame.drop 1, b ≠ 0xA5) ∧ ((after (exec (.headStatus .a 2 0) (presetting none running))).head .a).rx = []) ∧
    ((after (exec (.headStatus .a 0xA5 3) (presetting none running))).head .a).rx = (headFrame 0x02 [0xA5, 0, 3]).drop 4 ∧
    (let frame := headFrame 0x01 (bytesOf 3 0 ++ bytesOf 3 0 ++ bytesOf 2 360 ++ bytesOf 2 0 ++ bytesOf 2 0 ++ [0])
     359 < (360 : BitVec 16).toNat ∧ (∀ b ∈ frame.drop 1, b ≠ 0xA5) ∧
      ((after (exec (.capture .a 0 0 360 0 0 0) (presetting none running))).head .a).rx = []) := by decide +kernel

/-- R80 at the drift limit of 100: 2390 keeps the zero of 2290 valid, 2391 lapses it; a temperature that returns makes it valid again
while its age allows, and the SESSION_STATE shows the new validity. -/
theorem witness_ZeroChange :
    let heat := fun (s : State) (temp : BitVec 16) => reports (exec (.headStatus .a 0 temp) s)
    let lapsed := running.setHead .a { headA with zeroOk := false, scaleTemp := some 2391 }
    let shown := fun (s : State) (temp : BitVec 16) =>
      (after (exec (.capture .a 0 0 359 temp 2000 0) s)).lines.headA.map (fun f => f[14]?)
    let agreeing := fun (ok : Bool) (temp : Int) =>
      let master := shot 1200000 300000 2290 2000
      running.setHead .a { headA with
        zeroOk := ok, scaleTemp := some temp, session := some (zeroSession [master, master]) }
    heat (presetting none running) 2390 = [] ∧
    heat (presetting none running) 2391 = [.zeroState .a false .temperature] ∧
    heat (clockAt 28800001 (presetting none running)) 2290 = [.zeroState .a false .age] ∧
    heat lapsed 2390 = [.zeroState .a true .temperature] ∧ heat (clockAt 28800001 lapsed) 2390 = [] ∧
    reports (exec (.capture .a 0 0 359 2391 2000 0) (presetting none running)) = [.zeroState .a false .temperature] ∧
    shown (presetting none running) 2391 = [some 0] ∧ shown (presetting none running) 2390 = [some 1] ∧
    ((after (exec (.headStatus .a 0 2391) (running.setHead .a { headA with line := .silent }))).lines.headA.map
      (fun f => f[14]?)) = [some 0] ∧
    (reports (exec (.capture .a 1200000 300000 0 2391 2000 0) (agreeing true 2290))).map
      (fun r => (r == .zeroState .a false .temperature, r == .zeroState .a true .set)) =
        [(true, false), (false, false), (false, true)] ∧
    (reports (exec (.capture .a 1200000 300000 0 2290 2000 0) (agreeing true 2290))).length = 1 ∧
    (reports (exec (.capture .a 1200000 300000 0 2391 2000 0) (agreeing false 2391))).map
      (fun r => r == .zeroState .a true .set) = [false, true] := by decide +kernel

theorem witness_CapturesSpent :
    (let q := zeroSession (List.replicate 32 (shot 4000001 0 2290 2000))
     let s := presetting (some q) running
     (s.head .a).line = .ready ∧ (s.head .a).session = some q ∧ q.state ≠ .evaluated ∧ 32 ≤ q.captures.length ∧
      reports (exec (.capture .a 0 0 359 2290 2000 0) s) = [.closedZero 1 .a .unstable] ∧
      (after (exec (.capture .a 0 0 359 2290 2000 0) s)).lines.headA.length = 2) ∧
    ((after (exec (.capture .a 1525314 298430 0 2341 2211 0) (milling millShots))).lines.headA.map (fun f => f.drop 3 |>.head?) =
      [some 0x11, some 0x12, some 0x11]) := by decide +kernel

theorem witness_HeadBytes :
    (∀ b ∈ [(0x00 : Byte), 0xFF], b ≠ 0xA5) ∧ numberOf [(0x00 : Byte), 0x01] < 2 ∧ 252 < numberOf [(0x00 : Byte), 0xFD] ∧
    ([[(0x00 : Byte), 0xFF], [0xA5, 0x00, 0x01], [0xA5, 0x00, 0xFD]].all (fun b =>
      ((after (exec (.headFrameDiscarded .a b) running)).head .a).rx == [])) = true ∧
    (let body : List Byte := [2, 0, 0]
     let inner := bytesOf 2 (body.length + 1) ++ [(0x02 : Byte)] ++ body
     let bytes := [0xA5] ++ inner ++ checkBytes inner
     (∀ b ∈ inner ++ checkBytes inner, b ≠ 0xA5) ∧ ¬ fieldAt body 0 1 ≤ 1 ∧
      ((after (exec (.headFrameDiscarded .a bytes) running)).head .a).lastFrame = none) ∧
    (let body : List Byte := [0, 0, 0]
     let inner := bytesOf 2 (body.length + 1) ++ [(0x02 : Byte)] ++ body
     (∀ b ∈ inner ++ [(0 : Byte), 0], b ≠ 0xA5) ∧ [(0 : Byte), 0] ≠ checkBytes inner ∧
      ((after (exec (.headFrameDiscarded .a ([0xA5] ++ inner ++ [0, 0])) running)).head .a).line = .silent) ∧
    (let s := clockAt 28800000 (presetting none running)
     s.tick ≤ 0 + (s.head .a).settings.zeroLife * 3600000 ∧ after (exec (.zeroAgeLapse .a) s) = s.idled) := by decide +kernel

/-- R97, R101, R103 and R112 at their limits. -/
theorem witness_Arithmetic_limits :
    headA.zCurve = some zTable ∧ headA.xCurve = some xTable ∧
    (headA.takeCapture 4000001 1500001 359 0 0 0).rangeMark = true ∧ (headA.takeCapture 4000000 1500000 359 0 0 0).rangeMark = false ∧
    microns 4 = 0 ∧ microns 5 = 1 ∧
    (let x := { measureSession 7 (millShots ++ [shot 4000001 298430 2341 2211]) with windowStart := 2 }
     (x.inView 2).map (·.1) = [3, 4] ∧ (x.inView 5).map (·.1) = [2, 3, 4] ∧ x.agreement headA.settings = none) ∧
    (let v := evaluate headA.settings 1200035 300014 { endMill with cls := .lengthOnly } 0 [(1, shot 4000000 1500000 2290 2000)]
     v.rangeLimited = true ∧ verdictOf true endMill v = .range) := by decide +kernel

/-! ### Chapters 6 and 7: usage, and what the links take and send -/

theorem witness_Usage_warns :
    (let s := (loaded inMachine).setType 5 { typeA with autoPrefetch := true }
     s.tool 7 = some inMachine ∧ s.holds 32 7 inMachine = some 60 ∧ inMachine.life - 3460 ≤ 100 * 5400 / 1000 ∧
      inMachine.heldPlace = some (32, 60) ∧ s.requestFor 32 60 5 = none ∧
      (s.usage 32 7 60 3460).1.isc.queue.map (fun q => (q.prio, q.origin)) = [(.prefetch, .auto)] ∧
      ((s.usage 32 7 60 3460).1.svp.reports.map (·.report)).head? =
        some (.lifeWarning 7 5 540 540 .loaded (some (32, 60)))) ∧
    (let r := { inMachine with warned := true }
     let s := loaded r
     (s.usage 32 7 60 3999).1.svp.reports = [] ∧ (s.usage 32 7 60 3999).2 = .ok) := by decide +kernel

theorem witness_Usage_spent :
    (let r := { tool .issued .toBench with last := some ⟨32, 3⟩ }
     r.heldPlace = none ∧ r.takesLate 32 = true ∧ (((hall r).usage 32 7 60 4000).1.tool 7).map (·.spent) = some true ∧
      ((hall r).usage 32 7 60 4000).1.hoe = (hall r).hoe) ∧
    (let s := loaded inMachine
     (s.station 32).queue = [] ∧ (s.link 32).state.running = false ∧
      ((s.usage 32 7 60 4000).1.station 32).queue.map (fun x => (x.kind, x.state)) = [(.lifeUpdate 7 60 true, .pending)]) ∧
    (let s := (loaded inMachine).setLink 32 (linkIn .checked)
     (s.link 32).state.running = true ∧ s.inFlight 32 = none ∧
      ((s.usage 32 7 60 4000).1.station 32).queue.map (fun x => (x.state, x.body.take 4)) = [(.inFlight, [0x02, 0, 7, 60])]) ∧
    (let s := (hall inMachine).setStation 32 { Station.reset with
       magazine := [(60, ⟨7, true, some 3, false⟩)], queue := flyingTxn :: (List.range 15).map (fun k => pendingTxn (k + 2) (.toolData 8 59 2)) }
     16 ≤ (s.station 32).queue.length ∧ s.inFlight 32 = some flyingTxn ∧
      ((s.usage 32 7 60 4000).1.tool 7).map (·.owed) = some true) ∧
    (let s := (loaded inMachine).setType 5 { typeA with autoReplace := true }
     s.requestFor 32 60 5 = none ∧ (s.usage 32 7 60 4000).1.isc.queue.map (fun q => (q.prio, q.origin)) = [(.urgent, .auto)]) ∧
    (let r := { inMachine with link := some 255 }
     let s := asking [{ stationed 255 with state := .issued, tool := some 7 }] ((loaded r).setType 5 { typeA with autoReplace := true })
     (s.requestFor 32 60 5).map (·.number) = r.link ∧ (s.usage 32 7 60 4000).1.isc.queue = s.isc.queue) := by decide +kernel

/-- One USAGE asks for a PREFETCH, which its own URGENT then raises (R53), and spends the tool. -/
theorem witness_Usage_asks_and_spends :
    let s := (loaded inMachine).setType 5 { typeA with autoPrefetch := true, autoReplace := true }
    tableSorted s.trg.insts = true ∧ (∀ k ∈ s.isc.queue, k.state = .reserved → k.tool ≠ some 7) ∧
      (s.usage 32 7 60 4000).1.isc.queue.map (fun q => (q.number, q.prio)) = [(1, .urgent)] ∧
      (s.usage 32 7 60 4000).1.svp.reports.map (·.report.kind) = [9, 4, 4, 10, 4] ∧
      ((s.usage 32 7 60 4000).1.station 32).queue.map (·.kind) = [.lifeUpdate 7 60 true] := by decide +kernel

def lateTool (c : Custody) (l : Location) : InstRec := { tool c l with last := some ⟨32, 3⟩ }

theorem witness_Usage_zero :
    (let s := (hall (lateTool .ready (.pocket 12 63))).setPocket 12 63 (holding .occupied (some 7))
     (lateTool .ready (.pocket 12 63)).takesLate 32 = true ∧
      ((s.usage 32 7 60 4000).1.tool 7).map (·.custody) = some .regrindDue) ∧
    (let s := hall (lateTool .staged .bench)
     (lateTool .staged .bench).takesLate 32 = true ∧ ((s.usage 32 7 60 4000).1.tool 7).map (·.custody) = some .regrindDue ∧
      ((s.usage 32 7 60 4000).1.svp.reports.map (·.report)).head? = some (.lifeWarning 7 5 0 540 .staged none)) ∧
    (let r := { lateTool .reserved (.pocket 12 63) with link := some 255 }
     let s := asking [reserved 255] ((hall r).setPocket 12 63 (holding .expectTake (some 7)))
     r.takesLate 32 = true ∧ s.request 255 = some (reserved 255) ∧ 1 ≤ typeA.budget ∧ tableSorted s.trg.insts = true ∧
      ((s.usage 32 7 60 4000).1.tool 7).map (·.custody) = some .regrindDue ∧
      ((s.usage 32 7 60 4000).1.request 255).map (·.state) = some .waitingStock) ∧
    (let r := { lateTool .returning (.backStation 32) with marks := 2 }
     typeA.regrindLimit ≤ r.marks ∧ (((hall r).usage 32 7 60 4000).1.tool 7).map (fun r => (r.custody, r.loc)) =
        some (.retired, .nowhere)) ∧
    (let r := lateTool .returning (.backStation 32)
     (((hall r).usage 32 7 60 4000).1.tool 7).map (fun r => (r.custody, r.life)) = some (.returning, 0)) := by decide +kernel

theorem witness_VerifiedLife :
    (let r := { inMachine with life := 0, spent := true, warned := true }
     let s := (loaded r).setType 5 { typeA with autoReplace := true }
     s.tool 7 = some r ∧ r.heldPlace = some (32, 60) ∧ r.link = none ∧ (s.verifiedLife 7).isc.queue.map (·.prio) = [.urgent]) ∧
    (let r := { inMachine with warned := true }
     let s := (loaded r).setType 5 { typeA with autoPrefetch := true }
     s.tool 7 = some r ∧ s.requestFor 32 60 5 = none ∧ (s.verifiedLife 7).isc.queue.map (·.prio) = [.prefetch]) ∧
    (loaded inMachine).verifiedLife 7 = loaded inMachine := by decide +kernel

/-- A DATA block, and a FILL block with a verdict, from station 32. -/
def dataBlock (position message : Nat) (body before : List Byte) : List Byte :=
  blockBytes 32 position .data none message (padBody body) (crc16 before)

def verdictBlock (position : Nat) (v : ReturnVerdict) (before : List Byte) : List Byte :=
  blockBytes 32 position .fill (some v) 0 (List.replicate 24 0) (crc16 before)

/-- USAGE of 1 for instance 7 at place 60. -/
def usageMsg : List Byte := [0x18, 0, 7, 60, 0, 1]

theorem witness_DataIsTaken :
    (let h := dataBlock 7 5 usageMsg []
     let b := fill 0 h
     let l := { linkIn .checked with held := some ⟨h, none⟩ }
     b.length = 32 ∧ wellFormedBlock 32 (some 0) b = true ∧ fieldAt b 30 2 = (crc16 h).toNat ∧ blockVerdict h = none ∧
      blockKindOf h = .data ∧ fieldAt h 5 1 = 5 ∧ stationMsgOf (blockBody h) = some (.usage 7 60 1) ∧
      ((after (exec (.stationBlock 32 b) (linked l))).station 32).replies = [⟨5, .unknownInstance, none⟩] ∧
      ((after (exec (.stationBlock 32 b) (linked l))).link 32).applied = [5] ∧
      ((after (exec (.stationBlock 32 b) (linked { l with applied := [5] }))).station 32).replies = [] ∧
      ((after (exec (.stationBlock 32 b) (linked { l with applied := [1, 2, 3, 4, 6, 7, 8, 9] }))).link 32).applied =
        [2, 3, 4, 6, 7, 8, 9, 5]) ∧
    (let h := dataBlock 7 5 [] []
     let l := { linkIn .checked with held := some ⟨h, none⟩ }
     stationMsgOf (blockBody h) = none ∧ ((after (exec (.stationBlock 32 (fill 0 h)) (linked l))).station 32).replies = [] ∧
      ((after (exec (.stationBlock 32 (fill 0 h)) (linked l))).link 32).applied = [5]) := by decide +kernel

/-- The link after a block from station 32 that carries a verdict on position 0 has been judged good in CHECKED. -/
def settled (good : Bool) (o : List Outstanding) (s : State) : State :=
  let h := verdictBlock 7 ⟨0, good, .fill⟩ []
  after (exec (.stationBlock 32 (fill 0 h)) (s.setLink 32 { linkIn .checked with held := some ⟨h, none⟩, outstanding := o }))

theorem witness_VerdictSettles :
    (let h := verdictBlock 7 ⟨0, true, .fill⟩ []
     blockVerdict h = some (0, true) ∧ blockKindOf h ≠ .data ∧ wellFormedBlock 32 (some 0) (fill 0 h) = true) ∧
    ((settled true [entry 2 .reply] running).link 32).outstanding = [] ∧
    ((settled false [entry 2 .reply] running).link 32).outstanding = [{ entry 2 .reply with failures := 3, resend := true }] ∧
    ((settled true [{ entry 2 .reply with sent := 7 }] running).link 32).outstanding = [{ entry 2 .reply with sent := 7 }] ∧
    (let s := queued [{ flyingTxn with kind := .toolData 7 60 3 }] running
     s.flying 32 0 = some { flyingTxn with kind := .toolData 7 60 3 } ∧
      ((settled true [entry 0 (.transaction 0)] s).station 32).queue.map (·.delivered) = [true]) ∧
    (let x := { flyingTxn with kind := .lifeUpdate 7 60 true }
     let s := (loaded inMachine).setStation 32 { ((loaded inMachine).station 32) with queue := [x] }
     s.flying 32 0 = some x ∧
      ((settled true [entry 0 (.transaction 0)] s).svp.reports.map (·.report)).head? =
        some (.handoffResult 32 { x with state := .confirmed } .ok) ∧
      (tget ((settled true [entry 0 (.transaction 0)] s).station 32).magazine 60).map (·.spentNotice) = some true) := by
  decide +kernel

theorem witness_DensityLimit :
    let h := fill 7 []
    let l := { linkIn .checked with held := some ⟨h, none⟩, density := List.replicate 200 false }
    200 < (l.addDensity false).bad ∧ wellFormedBlock 32 (some 0) (fill 0 []) = true ∧
    fieldAt (fill 0 []) 30 2 ≠ (crc16 h).toNat ∧ ((after (exec (.stationBlock 32 (fill 0 [])) (linked l))).link 32).state = .searching ∧
    (let l := { l with density := List.replicate 199 false ++ List.replicate 57 true }
     (l.addDensity false).bad ≤ 200 ∧ ((after (exec (.stationBlock 32 (fill 0 [])) (linked l))).link 32).state = .checked) := by
  decide +kernel

theorem witness_Echo :
    (let b := dataBlock 0 5 usageMsg []
     let l := linkIn .echo
     wellFormedBlock 32 (some 0) b = true ∧ (l.addDensity true).bad ≤ 200 ∧ blockVerdict b = none ∧ l.held = none ∧
      ((after (exec (.stationBlock 32 b) (linked l))).link 32).held = some ⟨b, none⟩ ∧
      ((after (exec (.stationBlock 32 (fill 0 [])) (linked l))).link 32).held = none) ∧
    (let h := dataBlock 7 5 usageMsg []
     let l := { linkIn .echo with held := some ⟨h, some 9⟩ }
     let bad := verdictBlock 0 ⟨1, false, .echo⟩ []
     let good := verdictBlock 0 ⟨1, true, .echo⟩ []
     (blockVerdict bad).map (·.1) = some (9 % 8) ∧ blockKindOf bad = .fill ∧
      ((after (exec (.stationBlock 32 bad) (linked l))).link 32).applied = [] ∧
      ((after (exec (.stationBlock 32 bad) (linked l))).link 32).held = none ∧
      ((after (exec (.stationBlock 32 good) (linked { l with applied := [5] }))).station 32).replies = [] ∧
      stationMsgOf (blockBody h) = some (.usage 7 60 1) ∧
      ((after (exec (.stationBlock 32 good) (State.reset.setLink 32 l))).station 32).replies = [⟨5, .notRunning, none⟩]) ∧
    (let e := { entry 2 .reply with body := padBody usageMsg }
     let l := { linkIn .echo with outstanding := [e] }
     let echo := fun (message : Nat) (body : List Byte) => blockBytes 32 0 .echo none message (padBody body) 0
     blockKindOf (echo 1 usageMsg) = .echo ∧ blockVerdict (echo 1 usageMsg) = none ∧ blockBody (echo 1 usageMsg) = e.body ∧
      ((after (exec (.stationBlock 32 (echo 1 usageMsg)) (linked l))).link 32).outstanding = [] ∧
      ((after (exec (.stationBlock 32 (echo 1 [])) (linked l))).link 32).outstanding = [{ e with failures := 3, resend := true }] ∧
      ((after (exec (.stationBlock 32 (echo 2 [])) (linked l))).link 32).returns = [⟨0, false, .echo⟩] ∧
      ((after (exec (.stationBlock 32 (echo 2 [])) (linked { l with density := List.replicate 255 false }))).link 32).state =
        .searching) := by decide +kernel

theorem witness_BrokenBlocks :
    let b : List Byte := List.replicate 32 0
    let l := linkIn .echo
    openerAt b = false ∧ ((after (exec (.stationBlock 32 b) (linked { l with misses := 1 }))).link 32).misses = 2 ∧
    ((after (exec (.stationBlock 32 b) (linked { l with misses := 2 }))).link 32).state = .searching ∧
    (let l := { linkIn .acquiring with misses := 1, acqRun := 7, acqCount := 199 }
     ((after (exec (.stationBlock 32 b) (linked l))).link 32).acqRun = 0 ∧
      ((after (exec (.stationBlock 32 b) (linked l))).link 32).returns = [⟨0, false, .fill⟩]) := by decide +kernel

/-- A held block that a broken one follows, broken by its opener, its station number or its position. -/
theorem witness_BrokenBlocks_held :
    let h := dataBlock 7 5 usageMsg []
    let other : List Byte := blockBytes 31 0 .fill none 0 (List.replicate 24 0) 0
    let late := fill 1 h
    let after32 := fun (b : List Byte) (l : Link) => (after (exec (.stationBlock 32 b) (linked l))).link 32
    (let l := { linkIn .checked with held := some ⟨h, none⟩ }
     other.length = 32 ∧ openerAt other = true ∧ fieldAt other 2 1 = 31 ∧ blockPosition late = 1 ∧ late.length = 32 ∧
      (after32 other l).returns = [⟨7, false, .data⟩, ⟨0, false, .fill⟩] ∧ (after32 other l).lastSeen = some 31 ∧
      (after32 late l).density = [false, false] ∧ (after32 late l).held = none ∧ (after32 late l).expected = some 1 ∧
      (after32 late { l with density := List.replicate 200 false }).state = .searching ∧
      (after32 late { l with density := List.replicate 199 false }).state = .searching ∧
      (after32 late { l with misses := 2 }).state = .searching) ∧
    (let l := { linkIn .checked with density := List.replicate 200 false }
     200 < (l.addDensity false).bad ∧ (after32 late l).state = .searching) ∧
    (let l := { linkIn .echo with density := List.replicate 200 false }
     (after32 late l).state = .searching) ∧
    (let l := { linkIn .acquiring with held := some ⟨h, none⟩, acqRun := 7, acqCount := 199 }
     (after32 other l).acqCount = 200 ∧ (after32 other { l with acqCount := 5 }).acqCount = 7 ∧ (after32 other l).acqRun = 0 ∧
      (after32 other l).returns = [⟨7, false, .data⟩, ⟨0, false, .fill⟩] ∧ (after32 other { l with misses := 2 }).state = .searching ∧
      (after32 other { l with misses := 2, held := none }).returns = [⟨0, false, .fill⟩]) := by decide +kernel

/-- R140: the BAD count of the report of a link that is lost, at the block that loses it. -/
theorem witness_BadCounts :
    let told := fun (b : List Byte) (l : Link) => (reports (exec (.stationBlock 32 b) (linked l))).head?
    let lost := fun (was : LinkState) (cause : LinkCause) (bad : Nat) => some (Report.linkState 32 was .searching cause bad)
    let h := fill 7 []
    let l := { linkIn .checked with held := some ⟨h, none⟩ }
    let broken : List Byte := List.replicate 32 0
    told (fill 0 []) { l with density := List.replicate 200 false } = lost .checked .errorDensity 201 ∧
    told (fill 0 []) { l with density := List.replicate 256 false } = lost .checked .errorDensity 256 ∧
    told broken { l with density := List.replicate 200 false } = lost .checked .errorDensity 201 ∧
    told broken { l with density := List.replicate 199 false } = lost .checked .errorDensity 201 ∧
    told broken { l with misses := 2, density := [false] } = lost .checked .framingLost 3 ∧
    told broken { linkIn .checked with misses := 2 } = lost .checked .framingLost 1 ∧
    told broken { linkIn .checked with density := List.replicate 200 false } = lost .checked .errorDensity 201 ∧
    told broken { linkIn .echo with misses := 2, density := [false, true] } = lost .echo .framingLost 2 ∧
    told broken { linkIn .echo with density := List.replicate 200 false } = lost .echo .errorDensity 201 ∧
    told (blockBytes 32 0 .echo none 2 (padBody []) 0) { linkIn .echo with density := List.replicate 200 false } =
      lost .echo .errorDensity 201 := by decide +kernel

theorem witness_Acquiring :
    let h := fill 7 []
    let l := { linkIn .acquiring with held := some ⟨h, none⟩, acqRun := 6 }
    let after32 := fun (b : List Byte) (l : Link) => (after (exec (.stationBlock 32 b) (linked l))).link 32
    wellFormedBlock 32 (some 0) (fill 0 h) = true ∧ (after32 (fill 0 h) l).acqRun = 7 ∧ (after32 (fill 0 h) l).state = .acquiring ∧
      (after32 (fill 0 h) l).returns = [⟨7, true, .fill⟩] ∧
      (let d := dataBlock 7 5 usageMsg []
       (after32 (fill 0 d) { l with held := some ⟨d, none⟩ }).returns = [⟨7, false, .data⟩]) ∧
      fieldAt (fill 0 []) 30 2 ≠ (crc16 h).toNat ∧ (after32 (fill 0 []) l).acqRun = 0 ∧ (after32 (fill 0 []) l).acqCount = 1 ∧
      (after32 (fill 0 []) { l with acqRun := 7, acqCount := 199 }).acqCount = 200 := by decide +kernel

theorem witness_Alignment :
    (let b := fill 6 [] ++ fill 7 [] ++ dataBlock 0 5 usageMsg []
     let l := { linkIn .searching with expected := none }
     (∀ b ∈ [fill 6 [], fill 7 [], dataBlock 0 5 usageMsg []], b.length = 32 ∧ openerAt b = true ∧ fieldAt b 2 1 = 32) ∧
      blockPosition (dataBlock 0 5 usageMsg []) = (blockPosition (fill 7 []) + 1) % 8 ∧
      ((after (exec (.stationBlock 32 b) (linked l))).link 32).state = .acquiring ∧
      ((after (exec (.stationBlock 32 b) (linked l))).link 32).expected = some 1 ∧
      ((after (exec (.stationBlock 32 b) (linked { l with policy := .echoOnly }))).link 32).held =
        some ⟨dataBlock 0 5 usageMsg [], none⟩ ∧
      ((after (exec (.stationBlock 32 b) (linked { l with policy := .echoOnly }))).link 32).state = .echo) ∧
    (let l := { linkIn .searching with expected := none }
     (31 : Byte).toNat ≠ 32 ∧ ((after (exec (.stationBlock 32 [0xC3, 0x3C, 31, 0]) (linked l))).link 32).lastSeen = some 31 ∧
      ((after (exec (.stationBlock 32 [0xC3, 0x3C, 31, 0]) (linked l))).link 32).rx = []) := by decide +kernel

/-- Four entries are outstanding: a message that is ready waits, and the period sends a FILL. -/
theorem witness_LinkSends_full :
    let l := { linkIn .checked with outstanding := (List.range 4).map (fun k => { entry 0 .reply with message := k + 1 }) }
    let s := (clockAt 4 (linked l)).setStation 32 { Station.reset with replies := [⟨9, .ok, none⟩] }
    4 ≤ (s.link 32).outstanding.length ∧ (∀ y ∈ (s.link 32).outstanding, y.resend = false) ∧
      blockKindOf ((after (exec (.blockPeriod 32) s)).link 32).lastSent = .fill ∧
      ((after (exec (.blockPeriod 32) s)).station 32).replies = [⟨9, .ok, none⟩] ∧
      (let e := clockAt 4 (linked { linkIn .echo with outstanding := [entry 0 .reply] })
       blockKindOf ((after (exec (.blockPeriod 32) (e.setStation 32 (s.station 32)))).link 32).lastSent = .fill) := by decide +kernel

theorem witness_LinkSends_rows :
    (let e := { entry 2 .reply with resend := true }
     let s := clockAt 4 (linked { linkIn .checked with outstanding := [entry 0 .reply, e] })
     (∀ x ∈ (s.link 32).outstanding, x.resend = true ∨ (s.link 32).period < x.sent + 8) ∧ e ≠ entry 0 .reply ∧
      ((after (exec (.blockPeriod 32) s)).link 32).outstanding = [entry 0 .reply, entry 2 .reply] ∧
      (((after (exec (.blockPeriod 32) s)).link 32).lastSent.drop 5 |>.head?) = some 1) ∧
    (let x := { flyingTxn with handed := false, firstSent := none, body := padBody [0x02] }
     let s := queued [x] (clockAt 4 (linked (linkIn .checked)))
     (s.station 32).replies = [] ∧ s.inFlight 32 = some x ∧ x.handed = false ∧
      ((after (exec (.blockPeriod 32) s)).station 32).queue = [{ x with handed := true, firstSent := some 4 }] ∧
      ((after (exec (.blockPeriod 32) s)).link 32).outstanding.map (·.origin) = [.transaction 0] ∧
      (let t := queued [x] (clockAt 4 (linked (linkIn .echo)))
       ((after (exec (.blockPeriod 32) t)).link 32).outstanding.map (·.origin) = [.transaction 0])) ∧
    (let h := dataBlock 7 5 usageMsg []
     let s := clockAt 4 (linked { linkIn .echo with held := some ⟨h, none⟩ })
     ((after (exec (.blockPeriod 32) s)).link 32).held = some ⟨h, some 0⟩ ∧
      blockKindOf ((after (exec (.blockPeriod 32) s)).link 32).lastSent = .echo ∧
      fieldAt ((after (exec (.blockPeriod 32) s)).link 32).lastSent 5 1 = 5) ∧
    (let s := (clockAt 4 (linked (linkIn .echo))).setStation 32 { Station.reset with replies := [⟨9, .ok, none⟩] }
     (s.link 32).held = none ∧ (s.link 32).outstanding = [] ∧
      ((after (exec (.blockPeriod 32) s)).link 32).outstanding.map (·.origin) = [.reply]) ∧
    (let s := queued [flyingTxn] (clockAt 4 (linked (linkIn .checked)))
     (s.station 32).replies = [] ∧ s.inFlight 32 = some flyingTxn ∧ flyingTxn.handed = true ∧
      blockKindOf ((after (exec (.blockPeriod 32) s)).link 32).lastSent = .fill) := by decide +kernel

/-! ### Chapter 8: stations and their messages -/

/-- Type 5 is held, and these instances are of it. -/
def heldHall (r : InstRec) : State := held (hall r)

theorem witness_TypeRelease_stations :
    (let r := { tool .issued (.station 32 60) with link := some 255 }
     let s := (heldHall r).setStation 32 { Station.reset with magazine := [(60, ⟨7, false, some 3, false⟩)] }
     s.takesNow 0x43 9 [0, 5, 0] = true ∧ s.tool 7 = some r ∧ tableSorted s.trg.insts = true ∧ s.hoe.broadcasts.length = 4 ∧
      1 ≤ s.hoe.nextBroadcast ∧ s.hoe.nextBroadcast ≤ 255 ∧
      ((after (exec (.typeRelease 9 [0, 5, 0]) s)).tool 7).map (fun r => (r.custody, r.link)) = some (.loaded, none) ∧
      ((after (exec (.typeRelease 9 [0, 5, 0]) s)).broadcast 1).map (fun b => (b.kind, b.type, b.results.length)) =
        some (.release, 5, 32)) ∧
    (let r := { inMachine with owed := true }
     let s := (heldHall r).setStation 32 { Station.reset with magazine := [(60, ⟨7, true, some 3, false⟩)] }
     s.tool 7 = some r ∧ r.heldPlace = some (32, 60) ∧ (s.station 32).queue = [] ∧
      ((after (exec (.typeRelease 9 [0, 5, 8]) s)).station 32).queue.map (·.kind) = [.toolData 7 60 3]) ∧
    (let r := tool .issued (.toStation 32 60)
     r.heldPlace = some (32, 60) ∧ ((heldHall r).station 32).entryOf 7 = none ∧
      ((after (exec (.typeRelease 9 [0, 5, 8]) (heldHall r))).station 32).queue.map (·.kind) = [.toolData 7 60 3]) ∧
    (let b : Broadcast := { number := 9, kind := .hold, type := 1, results := [(1, none)], done := false, tick := 0, time := ⟨0, 0⟩ }
     let s := { heldHall (tool .staged .bench) with hoe := { Hoe.reset with broadcasts := List.replicate 4 (some b) } }
     s.hoe.broadcasts.length = 4 ∧ (∀ b ∈ s.hoe.broadcasts, ∃ x ∈ b, x.done = false) ∧
      replied (exec (.typeRelease 9 [0, 5, 8]) s) = some .busy) := by decide +kernel

theorem queued_nil {st : Station} {k : Nat} (h : st.queue = []) : st.Queued k := by simp [Station.Queued, h]

theorem queued_single {st : Station} {x : Txn} {k : Nat} (h : st.queue = [x]) (hk : x.id < k) : st.Queued k := by
  simp [Station.Queued, h, hk]

/-- Four transactions of one station: data, an update, a notice in flight and one pending. -/
def fourTxns : List Txn :=
  [{ flyingTxn with id := 1, number := 1 }, pendingTxn 2 (.notice .release 6), pendingTxn 3 (.toolData 7 60 3),
   pendingTxn 4 (.lifeUpdate 8 59 false)]

theorem queued_fourTxns : ({ Station.reset with queue := fourTxns } : Station).Queued 5 := by
  refine ⟨by decide +kernel, by decide +kernel, by decide +kernel, by decide +kernel, ?_, by decide +kernel⟩
  show ∀ a ∈ fourTxns, ∀ b ∈ fourTxns, _
  intro a ha b hb
  simp only [fourTxns, List.mem_cons, List.not_mem_nil, or_false] at ha hb
  rcases ha with rfl | rfl | rfl | rfl <;> rcases hb with rfl | rfl | rfl | rfl <;>
    simp [flyingTxn, pendingTxn, TxnKind.isDataOf, TxnKind.isNoticeOf]

/-- The counter of numbers has come round: the fifth transaction has the number of the first, and stands beside it. -/
theorem witness_Queued :
    let s := made 5 (queued fourTxns { running with hoe := { running.hoe with nextTxn := 1 } })
    (s.station 32).Queued s.hoe.entries ∧
      ((s.enterTxn 32 (.lifeUpdate 7 60 true) none).station 32).queue.map (fun x => (x.id, x.number)) =
        [(1, 1), (2, 2), (5, 1), (3, 3), (4, 4)] :=
  ⟨queued_fourTxns, by decide +kernel⟩

/-- Stations 1, 2, 3 and 32, a group: 1 is down, 2 has a full queue, 3 has room, and at 32 a notice of the type is PENDING. -/
def hallOfFour : State :=
  let s := made 40 ((hall inMachine).setGroup 8 [1, 2, 3, 32])
  let s := ((s.setLink 2 (linkIn .checked)).setLink 3 (linkIn .echo)).setLink 32 (linkIn .checked)
  let s := s.setStation 2 { Station.reset with queue := (List.range 16).map (fun k => pendingTxn (k + 2) (.toolData 8 59 2)) }
  s.setStation 32 { Station.reset with queue := [{ flyingTxn with kind := .notice .hold 6 }, pendingTxn 30 (.notice .release 5)] }

theorem witness_TypeHold_members :
    let s := hallOfFour
    let o := exec (.typeHold 9 [0, 5, 8]) s
    let t := after o
    (s.takesNow 0x42 9 [0, 5, 8] = true ∧ s.svp.mode = .running ∧ s.type 5 = some typeA ∧ tableSorted s.trg.insts = true ∧
      s.hoe.broadcasts.length = 4 ∧ s.hoe.nextBroadcast = 1 ∧ s.group 8 = [1, 2, 3, 32] ∧ [1, 2, 3, 32].Nodup ∧
      (∀ m ∈ [1, 2, 3, 32], ∀ x ∈ (s.station m).queue, x.kind.isDataOf 7 = false)) ∧
    (t.broadcast 1).map (fun b => (b.results, b.done)) =
      some ([(1, some .offline), (2, some .refused), (3, none), (32, none)], false) ∧
    (t.station 1).unacked = [(5, ⟨.hold, 40⟩)] ∧ (t.station 1).queue = [] ∧
    ((t.station 2).unacked.map (fun e => (e.1, e.2.kind)) = [(5, .hold)]) ∧ (t.station 2).queue.length = 16 ∧
    ((t.station 3).queue.map (fun x => (x.kind, x.broadcast, x.state)) = [(.notice .hold 5, some 1, .inFlight)]) ∧
    (t.station 3).unacked = [] ∧
    ((t.station 32).queue.map (fun x => (x.kind, x.broadcast)) = [(.notice .hold 6, none), (.notice .hold 5, some 1)]) ∧
    (t.station 32).unacked = [(5, ⟨.release, 30⟩)] ∧
    reports o = [.handoffResult 32 { pendingTxn 30 (.notice .release 5) with state := .cancelled } .superseded] := by
  decide +kernel

theorem queued_four : (hallOfFour.station 32).Queued hallOfFour.hoe.entries := by
  show ({ Station.reset with
    queue := [{ flyingTxn with kind := .notice .hold 6 }, pendingTxn 30 (.notice .release 5)] } : Station).Queued 40
  refine ⟨by decide +kernel, by decide +kernel, by decide +kernel, by decide +kernel, ?_, by decide +kernel⟩
  intro a ha b hb
  simp only [List.mem_cons, List.not_mem_nil, or_false] at ha hb
  rcases ha with rfl | rfl <;> rcases hb with rfl | rfl <;> simp [flyingTxn, pendingTxn, TxnKind.isDataOf, TxnKind.isNoticeOf]

/-- Station 3, which has room for its notice, lists nothing yet. -/
theorem queued_three : (hallOfFour.station 3).Queued hallOfFour.hoe.entries := queued_nil (by decide +kernel)

/-- Instance 7 is LOADED, and its TOOL_DATA is PENDING at station 32. -/
def oneData : State :=
  { hall inMachine with
    hoe := { Hoe.reset with entries := 3, stations := [(32, { Station.reset with queue := [pendingTxn 2 (.toolData 7 60 3)] })] } }

theorem queued_oneData (st : Nat) : (oneData.station st).Queued oneData.hoe.entries := by
  by_cases h : st = 32
  · subst h
    exact queued_single (x := pendingTxn 2 (.toolData 7 60 3)) rfl (by decide)
  · refine queued_nil ?_
    rw [show oneData.station st = Station.reset by
      simp [State.station, oneData, dget, tget, Ne.symm h]]
    rfl

/-- Four OPEN records, and station 3 on a running link, with room. -/
def recordsFull : State :=
  let b : Broadcast := { number := 9, kind := .hold, type := 1, results := [(1, none)], done := false, tick := 0, time := ⟨0, 0⟩ }
  ({ hall inMachine with hoe := { Hoe.reset with broadcasts := List.replicate 4 (some b) } }).setLink 3 (linkIn .checked)

theorem queued_recordsFull : (recordsFull.station 3).Queued recordsFull.hoe.entries := queued_nil (by decide +kernel)

/-- All four records are OPEN: the members' hold sets alone take the type, and a notice outside a broadcast follows where the link
runs. The PENDING TOOL_DATA of an instance LOADED is cancelled. -/
theorem witness_TypeHold_busy :
    (let s := recordsFull
     let o := exec (.typeHold 9 [0, 5, 0]) s
     replied o = some .busy ∧ ((after o).station 1).unacked = [(5, ⟨.hold, 0⟩)] ∧
      ((after o).station 3).unacked.map (fun e => (e.1, e.2.kind)) = [(5, .hold)] ∧
      ((after o).station 3).queue.map (fun x => (x.kind, x.broadcast)) = [(.notice .hold 5, none)]) ∧
    (let s := oneData
     let o := exec (.typeHold 9 [0, 5, 8]) s
     s.tool 7 = some inMachine ∧ inMachine.custody = .loaded ∧ ((after o).station 32).queue = [] ∧
      (reports o).head? = some (.handoffResult 32 { pendingTxn 2 (.toolData 7 60 3) with state := .cancelled } .cancelled)) := by
  decide +kernel

/-- A RELEASE notice that fails while an older HOLD entry stands puts its type back as RELEASE; a newer entry stands (R172). -/
theorem witness_NoticeEnded :
    let x := { flyingTxn with id := 7, kind := .notice .release 5 }
    let at32 := fun (u : Table HoldEntry) => running.setStation 32 { Station.reset with queue := [x], unacked := u }
    (((at32 [(5, ⟨.hold, 6⟩)]).finishTxn 32 x .failed .offline).station 32).unacked = [(5, ⟨.release, 7⟩)] ∧
      (((at32 [(5, ⟨.hold, 8⟩)]).finishTxn 32 x .failed .offline).station 32).unacked = [(5, ⟨.hold, 8⟩)] ∧
      (((at32 [(5, ⟨.hold, 8⟩)]).finishTxn 32 x .confirmed .ok).station 32).unacked = [(5, ⟨.hold, 8⟩)] ∧
      (((at32 [(5, ⟨.release, 3⟩)]).finishTxn 32 x .confirmed .ok).station 32).unacked = [] := by decide +kernel

theorem witness_TypeRelease_offline :
    let o := exec (.typeRelease 9 [0, 5, 8]) (held hallOfFour)
    ((after o).broadcast 1).map (fun b => (b.kind, b.results.head?)) = some (.release, some (1, some .offline)) ∧
      ((after o).station 1).unacked = [(5, ⟨.release, 40⟩)] := by decide +kernel

def dataTxn (g : Nat) : Txn := { flyingTxn with kind := .toolData 7 60 g, body := padBody [0x01] }

/-- Instance 7 with this place at station 32, and this transaction in flight there, the only one made. -/
def flyingTo (r : InstRec) (m : Table MagEntry) (x : Txn) : State :=
  made 1 ((hall r).setStation 32 { Station.reset with magazine := m, queue := [x] })

/-- The queues of `witness_Stored` and `witness_Refused`. -/
theorem queued_flyingTo (r : InstRec) (m : Table MagEntry) (x : Txn) (h : x.id = 0) :
    ((flyingTo r m x).station 32).Queued (flyingTo r m x).hoe.entries :=
  queued_single (x := x)
    (congrArg (·.queue) ((State.station_setStation (hall r) 32 32 { Station.reset with magazine := m, queue := [x] }).trans (if_pos rfl)))
    (by rw [h]; exact Nat.zero_lt_one)

theorem queued_dataTxn (r : InstRec) (m : Table MagEntry) (g : Nat) :
    ((flyingTo r m (dataTxn g)).station 32).Queued (flyingTo r m (dataTxn g)).hoe.entries := queued_flyingTo r m (dataTxn g) rfl

theorem witness_Stored :
    (let s := flyingTo inMachine [(60, ⟨7, true, some 2, false⟩)] (dataTxn 3)
     s.svp.mode = .running ∧ s.inFlight 32 = some (dataTxn 3) ∧ s.tool 7 = some inMachine ∧
      (s.stationEffect 32 (.stored 7 60 2)).2 = (.stale, none) ∧ (s.stationEffect 32 (.stored 7 60 3)).2 = (.ok, none) ∧
      (tget ((s.stationEffect 32 (.stored 7 60 3)).1.station 32).magazine 60).map (·.confirmed) = some (some 3)) ∧
    (let s := flyingTo inMachine [(60, ⟨7, true, some 2, false⟩)] (dataTxn 2)
     2 < inMachine.generation ∧ ((s.stationEffect 32 (.stored 7 60 2)).1.svp.reports.map (·.report)).head? =
        some (.handoffResult 32 { dataTxn 2 with state := .superseded } .superseded)) ∧
    (let s := flyingTo (tool .staged .bench) [] (dataTxn 3)
     (s.stationEffect 32 (.stored 7 60 3)).1.svp.reports.map (·.report) =
        [.handoffResult 32 { dataTxn 3 with state := .cancelled } .cancelled]) ∧
    (let s := flyingTo (tool .issued (.toStation 32 60)) [(60, ⟨8, true, some 2, false⟩)] (dataTxn 3)
     tget (s.station 32).magazine 60 ≠ none ∧ (s.stationEffect 32 (.stored 7 60 3)).2 = (.placeOccupied, none)) ∧
    (let s := flyingTo (tool .issued (.toStation 32 60)) [] (dataTxn 3)
     tget (s.station 32).magazine 60 = none ∧ (s.stationEffect 32 (.stored 7 60 3)).2 = (.ok, none) ∧
      tget ((s.stationEffect 32 (.stored 7 60 3)).1.station 32).magazine 60 = some ⟨7, false, some 3, false⟩) ∧
    (let s := flyingTo (tool .issued (.station 32 60)) [(60, ⟨7, false, none, false⟩)] (dataTxn 3)
     s.typeHeld 5 = false ∧ ((s.stationEffect 32 (.stored 7 60 3)).1.tool 7).map (·.custody) = some .loaded ∧
      (tget ((s.stationEffect 32 (.stored 7 60 3)).1.station 32).magazine 60).map (·.active) = some true) := by decide +kernel

theorem witness_Refused :
    (let s := flyingTo inMachine [] (dataTxn 3)
     (s.stationEffect 32 (.refused 7 59 .placeRange)).2 = (.stale, none) ∧
      (s.stationEffect 32 (.refused 7 60 .placeRange)).1.svp.reports.map (·.report) =
        [.handoffResult 32 { dataTxn 3 with state := .failed } .refusedPlace] ∧
      (s.stationEffect 32 (.refused 7 60 .programActive)).2 = (.ok, none) ∧
      ((s.stationEffect 32 (.refused 7 60 .programActive)).1.station 32).queue =
        [{ dataTxn 3 with
           state := .pending, busyRetries := 1, holdOff := some 2000, firstSent := none, body := [], handed := false }]) ∧
    (let x := { dataTxn 3 with busyRetries := 5 }
     let s := flyingTo inMachine [] x
     s.inFlight 32 = some x ∧ (s.stationEffect 32 (.refused 7 60 .programActive)).1.svp.reports.map (·.report) =
        [.handoffResult 32 { x with state := .failed } .refusedBusy]) := by decide +kernel

theorem witness_HoldAck :
    (running.stationEffect 32 (.holdAck 0)).2 = (.badType, none) ∧ (running.stationEffect 32 (.holdAck 513)).2 = (.badType, none) ∧
    (running.stationEffect 32 (.holdAck 512)).2 = (.stale, none) ∧
    (let x := { flyingTxn with broadcast := some 255 }
     let b : Broadcast := { number := 255, kind := .hold, type := 5, results := [(32, none)], done := false, tick := 0, time := ⟨0, 0⟩ }
     let s := ({ running with hoe := { Hoe.reset with broadcasts := [some b, none, none, none] } } : State).setStation 32
       { Station.reset with queue := [x], unacked := [(5, ⟨.hold, 0⟩)] }
     s.inFlight 32 = some x ∧ x.kind = .notice .hold 5 ∧ tableSorted (s.station 32).unacked = true ∧ s.broadcast 255 = some b ∧
      (s.stationEffect 32 (.holdAck 5)).2 = (.ok, none) ∧
      tget ((s.stationEffect 32 (.holdAck 5)).1.station 32).unacked 5 = none ∧
      ((s.stationEffect 32 (.holdAck 5)).1.broadcast 255).map (fun b => (b.results, b.done)) = some ([(32, some .ok)], true)) := by
  decide +kernel

theorem witness_Loaded :
    (running.stationEffect 32 (.loaded 7 61)).2 = (.placeRange, none) ∧
    (running.stationEffect 32 (.loaded 7 60)).2 = (.unknownInstance, none) ∧
    (let s := loaded inMachine
     (s.stationEffect 32 (.loaded 7 60)).2 = (.ok, none) ∧ (s.stationEffect 32 (.loaded 7 59)).2 = (.wrongPlace, none) ∧
      ((s.setTool 8 (tool .issued (.toStation 32 60))).stationEffect 32 (.loaded 8 60)).2 = (.placeOccupied, none)) ∧
    (let r := { tool .issued (.toStation 32 60) with link := some 255 }
     let s := asking [{ stationed 255 with state := .issued, tool := some 7 }]
       ((hall r).setStation 32 { Station.reset with magazine := [(60, ⟨7, false, some 3, false⟩)] })
     s.tool 7 = some r ∧ tableSorted s.trg.insts = true ∧ s.typeHeld 5 = false ∧
      ((s.stationEffect 32 (.loaded 7 60)).1.tool 7).map (·.custody) = some .loaded ∧
      (s.stationEffect 32 (.loaded 7 60)).1.isc.queue = []) ∧
    (let s := hall { tool .issued (.toStation 32 60) with owed := true }
     tget (s.station 32).magazine 60 = none ∧ ((s.stationEffect 32 (.loaded 7 60)).1.tool 7).map (·.loc) = some (.station 32 60) ∧
      ((s.stationEffect 32 (.loaded 7 60)).1.station 32).queue = []) ∧
    (let s := hall (tool .issued (.toStation 32 60))
     ((s.stationEffect 32 (.loaded 7 60)).1.station 32).queue.map (·.kind) = [.toolData 7 60 3]) ∧
    (let s := queued ((List.range 16).map (fun k => pendingTxn (k + 2) (.toolData 8 59 2))) (hall (tool .issued (.toStation 32 60)))
     16 ≤ (s.station 32).queue.length ∧ ((s.stationEffect 32 (.loaded 7 60)).1.tool 7).map (·.owed) = some true) := by decide +kernel

/-- The queue of the LOADED that asks for data. -/
theorem queued_loaded :
    ((hall (tool .issued (.toStation 32 60))).station 32).Queued (hall (tool .issued (.toStation 32 60))).hoe.entries :=
  queued_nil (by decide +kernel)

theorem witness_Unloaded :
    (running.stationEffect 32 (.unloaded 7 0 true)).2 = (.placeRange, none) ∧
    (running.stationEffect 32 (.unloaded 7 60 true)).2 = (.unknownInstance, none) ∧
    ((hall (tool .returning (.backStation 32))).stationEffect 32 (.unloaded 7 60 false)).2 = (.ok, none) ∧
    ((loaded inMachine).stationEffect 32 (.unloaded 7 59 false)).2 = (.wrongPlace, none) ∧
    (let s := (loaded inMachine).setStation 32 { ((loaded inMachine).station 32) with queue := [pendingTxn 2 (.lifeUpdate 7 60 false)] }
     s.tool 7 = some inMachine ∧ tableSorted s.trg.insts = true ∧ ((s.station 32).queue.map (·.id)).Nodup ∧
      (s.stationEffect 32 (.unloaded 7 60 true)).2 = (.ok, none) ∧
      ((s.stationEffect 32 (.unloaded 7 60 true)).1.tool 7).map (fun r => (r.custody, r.loc, r.last)) =
        some (.returning, .backStation 32, some ⟨32, 3⟩) ∧
      (s.stationEffect 32 (.unloaded 7 60 true)).1.isDamaged 7 = true ∧
      ((s.stationEffect 32 (.unloaded 7 60 true)).1.station 32).queue = [] ∧
      ((s.stationEffect 32 (.unloaded 7 60 true)).1.station 32).magazine = []) ∧
    (let r := { inMachine with life := 0, marks := 2 }
     typeA.regrindLimit ≤ r.marks ∧ (((loaded r).stationEffect 32 (.unloaded 7 60 false)).1.tool 7).map (fun r => (r.custody, r.loc)) =
        some (.retired, .nowhere)) ∧
    (let r := { tool .issued (.station 32 60) with link := some 255 }
     let s := asking [{ stationed 255 with state := .issued, tool := some 7 }] (loaded r)
     s.tool 7 = some r ∧ (s.stationEffect 32 (.unloaded 7 60 false)).1.isc.queue = []) := by decide +kernel

theorem witness_LinkStopped :
    let s := queued fourTxns running
    s.inFlight 32 = some { flyingTxn with id := 1, number := 1 } ∧ ((s.station 32).queue.map (·.id)).Nodup ∧
      (∀ y ∈ (s.station 32).queue, y.broadcast = none) ∧
      ((s.linkStopped 32).station 32).queue.map (fun y => (y.number, y.state)) =
        [(1, .pending), (2, .pending), (3, .pending), (4, .pending)] := by decide +kernel

/-! ### Chapters 10 and 11, and the machine as a whole -/

theorem witness_ResetEffect :
    (let s := { running with svp := { running.svp with
       resetting := true, buffer := [⟨resetFrame, some (0, ⟨.ok, .nothing⟩)⟩], tx := some { item := .reply 0, part := 1, parts := 1 } } }
     s.svp.resetting = true ∧ after (exec .resetEffect s) = after (exec .frameSent s)) ∧
    (let s := { running with svp := { running.svp with
       resetting := true, buffer := [⟨resetFrame, some (0, ⟨.ok, .nothing⟩)⟩], tx := some { item := .busy, part := 1, parts := 1 } } }
     s.svp.tx ≠ some { item := .reply 0, part := 1, parts := 1 } ∧ after (exec .resetEffect s) = s.idled) ∧
    after (exec .resetEffect running) = running.idled := by decide +kernel

/-- R189 and 11.2, byte by byte but for the check: the reply OK to START with tag 9, and a refusal BUSY. -/
theorem witness_BytesSent :
    (SentFrame.reply 9 0x50 (.plain .ok) 1 1).frame.bytes.take 9 = [0xA5, 0, 6, 0x80, 9, 0x50, 0, 2, 1] ∧
    (SentFrame.busy 9 0x50).frame.bytes.take 9 = [0xA5, 0, 6, 0x80, 9, 0x50, 9, 3, 1] ∧
    (let q : QueuedReport := { report := .custodyChange 7 5 (some .ready) (.pocket 12 64) none .nowhere .delete none,
                               overrun := 258, time := ⟨1, 999⟩, stamp := 8 }
     (SentFrame.report q).frame.bytes.take 14 = [0xA5, 0, 27, 0x81, 0, 3, 1, 2, 0, 0, 0, 1, 3, 0xE7] ∧
      ((SentFrame.report q).frame.bytes.drop 14).take 16 =
        [0, 7, 0, 5, 4, 1, 0, 12, 64, 0, 0, 0, 0, 0, 26, 0]) ∧
    (ReplyData.handle 258).bytes 0x13 = [1, 2] ∧ (ReplyData.sessionEnd none .staged).oneBody = true := by decide +kernel

theorem witness_Reads_ranges :
    ([(.readType 9 [0, 0], ReplyCode.range), (.readType 9 [2, 0], .noSuch), (.readInstance 9 [8, 1], .range),
      (.readInstance 9 [8, 0], .noSuch), (.readPocket 9 [12, 65], .range), (.readPocket 9 [12, 64], .ok),
      (.readCabinet 9 [13], .range), (.readRequest 9 [0], .range), (.readRequest 9 [255], .noSuch), (.listRequests 9 [0], .range),
      (.listRequests 9 [65], .range), (.listRequests 9 [64], .ok), (.readPutaway 9 [8, 1], .range), (.readPutaway 9 [8, 0], .ok),
      (.readHead 9 [3], .range), (.readHead 9 [2], .ok), (.readLink 9 [33], .range), (.readHandoff 9 [0], .range),
      (.readBroadcast 9 [0], .range), (.readBroadcast 9 [255], .noSuch), (.readTime 9 [], .ok), (.readGroups 9 [], .ok),
      (.listInstances 9 [0, 0, 0, 0, 0, 0], .range), (.nextToMeasure 9 [], .ok)].all
      (fun e => replied (exec e.1 running) == some e.2)) = true ∧
    (running.takesNow 0x20 9 [8, 0] = true ∧ running.tool 2048 = none ∧
      data (exec (.readPutaway 9 [8, 0]) running) = some (.putaway .neither none)) ∧
    (let s := clock { Hck.powerOn with primary := usablePath, tick := 997, lastDiscipline := some (-3) }
     s.takesNow 0x4A 9 [] = true ∧ (data (exec (.readTime 9 []) s)).map (fun d => match d with
       | .time v => (v.primary.sinceReference, v.sinceDiscipline)
       | _ => (none, none)) = some (some 997, some 1000)) := by decide +kernel

/-- One instance in each of the custodies that other blocks name: 7 reserved in a pocket, 8 in a machine, 9 on its way to a
pocket, 10 at head A, 11 at regrinding with its mark. -/
def oneOfEach : State :=
  { running with
    trg := { types := [(5, typeA)], insts := [(7, claimed), (8, inMachine), (9, tool .staged .bench), (10, millTool),
      (11, { tool .atRegrind .offsite with life := 0 })] }
    psc :=
      { pockets := [(pocketKey 12 62, { holding .occupied none with mark := some ⟨11, .regrind⟩ }),
          (pocketKey 12 63, holding .expectTake (some 7)), (pocketKey 12 64, waitingPocket .expectPlace)]
        cabinets := [(12, { Cabinet.reset with settings := settingsA })] }
    isc := { Isc.reset with queue := [reserved 255], assigned := [(9, ⟨12, 64, .stock, false, 0⟩)] }
    msu := { a := { headA with session := some (measureSession 10 []) }, b := Head.reset }
    hoe := { Hoe.reset with stations := [(32, { Station.reset with magazine := [(60, ⟨8, true, some 3, false⟩)] })] } }

theorem witness_accounted : oneOfEach.Accounted ∧ went (step oneOfEach) = true := by
  have insts : ∀ {P : Nat × InstRec → Prop}, P (7, claimed) → P (8, inMachine) → P (9, tool .staged .bench) → P (10, millTool) →
      P (11, { tool .atRegrind .offsite with life := 0 }) → ∀ e ∈ oneOfEach.trg.insts, P e := by
    intro P h1 h2 h3 h4 h5 e he
    simp only [oneOfEach, List.mem_cons, List.not_mem_nil, or_false] at he
    rcases he with rfl | rfl | rfl | rfl | rfl <;> assumption
  have pockets : ∀ {P : Nat × Pocket → Prop}, P (pocketKey 12 62, { holding .occupied none with mark := some ⟨11, .regrind⟩ }) →
      P (pocketKey 12 63, holding .expectTake (some 7)) → P (pocketKey 12 64, waitingPocket .expectPlace) →
      ∀ e ∈ oneOfEach.psc.pockets, P e := by
    intro P h1 h2 h3 e he
    simp only [oneOfEach, List.mem_cons, List.not_mem_nil, or_false] at he
    rcases he with rfl | rfl | rfl <;> assumption
  refine ⟨?_, by decide +kernel⟩
  refine
    { register := ⟨by decide +kernel, by decide +kernel, by decide +kernel, ?_⟩
      crib := ⟨by decide +kernel, by decide +kernel, ?_, ?_⟩
      issue := by unfold Isc.Within; decide +kernel
      tables := ⟨by decide +kernel, by decide +kernel, by decide +kernel, by unfold Station.Within; decide +kernel⟩
      pairs := by decide +kernel
      alone := by decide +kernel
      inPocket := ?_
      named := by decide +kernel
      fits := ?_
      atStation := ?_
      magazine := by decide +kernel
      atHead := ?_
      session := ?_
      reserved := by decide +kernel
      reserving := by decide +kernel
      issued := by decide +kernel
      live := by decide +kernel
      expectTake := ?_
      assigned := by decide +kernel
      assignedOnce := by decide +kernel
      expectPlace := by decide +kernel
      waiting := by decide +kernel
      marks := by decide +kernel
      enabled := by decide +kernel
      loading := fun h => absurd h (by decide +kernel) }
  · refine insts ?_ ?_ ?_ ?_ ?_ <;>
      exact ⟨by decide +kernel, ⟨typeA, by decide +kernel, by decide +kernel, by decide +kernel⟩, by decide +kernel,
        by decide +kernel⟩
  · intro e h
    obtain rfl := List.mem_singleton.mp (show e ∈ [(12, { Cabinet.reset with settings := settingsA })] from h)
    refine ⟨by unfold CabSettings.Within; decide +kernel, ?_, ?_, ?_⟩ <;> (intro c hc; cases hc)
  · refine pockets ?_ ?_ ?_ <;> (unfold Pocket.Within; decide +kernel)
  · refine insts ?_ ?_ ?_ ?_ ?_ <;> (intro c p h; cases h <;> decide +kernel)
  · refine pockets ?_ ?_ ?_ <;> simp [Pocket.Fits, holding, waitingPocket, sensingPocket]
  · refine insts ?_ ?_ ?_ ?_ ?_ <;> (intro c p h; cases h <;> decide +kernel)
  · refine insts ?_ ?_ ?_ ?_ ?_ <;> (intro h hh; cases hh <;> exact ⟨measureSession 10 [], rfl, rfl⟩)
  · intro h q hq n hn
    cases h with
    | a => obtain rfl := Option.mem_some.mp hq; subst hn; decide +kernel
    | b => cases hq
  · refine pockets ?_ ?_ ?_ <;> decide +kernel

/-! ### Timers and the life updates of LOAD_TYPE -/

/-- Every timer of the part runs, and comes at the tick after n. -/
def timed (n : Nat) : State :=
  let head : Head :=
    { headA with
      lastFrame := some (n - 1999), rx := [0xA5], rxTick := n - 10
      zero := some { z := 0, x := 0, time := ⟨0, 0⟩, tick := n - 3600000, temp := 2290 }
      settings := { headA.settings with zeroLife := 1 } }
  let link : Link :=
    { linkIn .echo with lastByte := some (n - 99), outstanding := [entry 0 .reply], held := some ⟨[], some 0⟩, period := 8 }
  let s := ((running.setCab 12 { Cabinet.reset with settings := settingsA, boundary := some (n + 1) }).setLink 32 link).setLink 31
    { linkIn .checked with lastByte := some n }
  let s := (s.setStation 32 { Station.reset with queue := [{ flyingTxn with firstSent := some (n - 1999) }] }).setStation 31
    { Station.reset with queue := [{ pendingTxn 1 (.notice .hold 6) with holdOff := some (n + 1) }] }
  { s with
    hck := { Hck.powerOn with tick := n, hall := ⟨5, 999⟩ }, msu := { a := Head.reset, b := head }
    svp := { s.svp with rx := [0xA5], rxTick := n - 10 }
    isc := { s.isc with
      queue := [{ reserved 255 with reserveTick := some (n - 999) }], pickTimeout := 1, putawayTimeout := 1
      latePicks := [(pocketKey 12 64, ⟨255, 7, n + 1⟩)], assigned := [(2048, ⟨12, 63, .stock, false, n - 999⟩)] }
    hoe := { s.hoe with
      broadcasts := [some { number := 255, kind := .hold, type := 5, results := [], done := false, tick := n - 4999, time := ⟨0, 0⟩ },
        none, none, none] } }

/-- What comes of it with a block period. -/
def periodEvents : List Instr := [.blockPeriod 1, .outstandingTimeout 32, .echoHeldTimeout 32]

/-- The events of the timers of `timed`. -/
def timedEvents : List Instr :=
  [.frameByteTimeout, .headFrameByteTimeout .b, .scanInterval 12, .pickTimeout 255, .latePickEnd 12 64, .putawayTimeout 2048,
   .headSilence .b, .zeroAgeLapse .b, .linkSilence 32, .handoffTimeout 32, .holdOffExpiry 31, .broadcastExpiry 255]

theorem witness_EmptyQueue_timers :
    (timed 3600003).pending = [] ∧ (timed 3600003).svp.untaken = [] ∧
    (timedEvents ++ periodEvents ++ [Instr.hallSecond]).all
      (fun c => (after (step (timed 3600003))).pending.contains c) = true ∧
    (let early := { timed 3600003 with hck := { (timed 3600003).hck with tick := 3600002 } }
     (timedEvents ++ periodEvents).all (fun c => !(after (step early)).pending.contains c) = true) := by decide +kernel

/-- R139: an acquisition whose count has run out; the lowest such link is the model's choice (log entry 2). -/
theorem witness_EmptyQueue_acquire :
    let s := (linked { linkIn .acquiring with acqCount := 200, acqRun := 7 }).setLink 31
      { linkIn .acquiring with acqCount := 200, acqRun := 8 }
    s.pending = [] ∧ s.svp.untaken = [] ∧ (∀ m ∈ List.range 31, (s.link m).state ≠ .acquiring) ∧
      (after (step s)).pending = [.acquireTimeout 32] ∧ (after (step s)).tick = s.tick := by decide +kernel

/-- R5: the station of a clamped instance is sent its new life: at once where the link runs in RUNNING, queued otherwise. -/
theorem witness_LoadType_told :
    let b := typeBytes 5 typeShort
    let s := (hall inMachine).setLink 32 (linkIn .checked)
    s.takesNow 0x01 9 b = true ∧ tableSorted s.trg.insts = true ∧ typeShort.budget < inMachine.life ∧
      inMachine.heldPlace = some (32, 60) ∧
      ((after (exec (.loadType 9 b) s)).station 32).queue.map (fun x => (x.kind, x.state, x.body)) =
        [(.lifeUpdate 7 60 false, .inFlight, lifeUpdateBody 7 60 3000 false)] ∧
      ((after (exec (.loadType 9 b) (hall inMachine))).station 32).queue.map (fun x => (x.kind, x.state)) =
        [(.lifeUpdate 7 60 false, .pending)] ∧
      (let full := (hall inMachine).setStation 32 { Station.reset with queue := List.replicate 16 (pendingTxn 1 (.notice .hold 6)) }
       ((after (exec (.loadType 9 b) full)).station 32).queue.length = 16) := by decide +kernel

theorem witness_LoadType_queued (st : Nat) :
    (((hall inMachine).setLink 32 (linkIn .checked)).station st).Queued 0 := by
  show Station.reset.Queued 0
  exact ⟨by decide, by decide, fun _ h => (List.not_mem_nil h).elim, .nil, fun _ h => (List.not_mem_nil h).elim,
    fun _ h => (List.not_mem_nil h).elim⟩

end Sys2Proof.Tests
end

namespace Sys2Proof.Machine

/-- A type, and an instance of it lying in the only enabled pocket, which has no baseline but shows PRESENT: R29's row for OCCUPIED
as `Pocket.Fits` writes it asks for a baseline only beside UNDECIDED. -/
def unlearnedHolder : State :=
  { State.reset with
    pending := [.retire 9 [0, 1]]
    trg :=
      { types := [(1,
          { cls := .lengthOnly, adjustable := false, nominalLength := 0, nominalRadius := 0, lengthBand := ⟨0, 0⟩
            radiusBand := ⟨0, 0⟩, adjustBand := none, runoutLimit := 0, expansion := 0, adapter := 0, lifeUnit := .hits
            budget := 1, warnLevel := 0, governed := .length, regrindStep := 0, regrindLimit := 0, keepOnReturn := false
            autoPrefetch := false, autoReplace := false, home := none, held := false })]
        insts := [(1, { newInstance 1 0 1 with loc := .pocket 1 1 })] }
    psc := { pockets := [(64, { Pocket.reset with enabled := true, state := .occupied, tool := some 1, sensed := .present })]
             cabinets := [] } }

theorem unlearnedHolder_accounted : unlearnedHolder.Accounted where
  register := by
    refine ⟨by decide, by decide, by decide, ?_⟩
    intro e he
    obtain rfl : e = _ := List.mem_singleton.1 he
    exact ⟨by decide, ⟨_, rfl, by decide, by decide⟩, by decide, by decide⟩
  crib := by
    refine ⟨by decide, by decide, by simp [unlearnedHolder], ?_⟩
    intro e he
    obtain rfl : e = _ := List.mem_singleton.1 he
    exact ⟨by decide, by decide, by decide, rfl, rfl⟩
  issue := ⟨by decide, by decide, by decide, by decide, by decide, by decide, by decide, by decide, by decide, by decide⟩
  tables := ⟨by decide, by decide, by decide, by simp [unlearnedHolder, State.reset, Hoe.reset]⟩
  pairs := by decide
  alone := by decide
  inPocket := by
    intro e he c p hl
    obtain rfl : e = _ := List.mem_singleton.1 he
    cases hl
    decide
  named := by decide
  fits := by
    intro e he
    obtain rfl : e = _ := List.mem_singleton.1 he
    exact ⟨by decide, by decide, by decide, by decide, by decide⟩
  atStation := by
    intro e he st p hl
    obtain rfl : e = _ := List.mem_singleton.1 he
    cases hl
  magazine := by decide
  atHead := by
    intro e he h hl
    obtain rfl : e = _ := List.mem_singleton.1 he
    cases hl
  session := by
    intro h q hq
    cases h <;> cases hq
  reserved := by decide
  reserving := by decide
  issued := by decide
  live := by decide
  expectTake := by decide
  assigned := by decide
  assignedOnce := by decide
  expectPlace := by decide
  waiting := by decide
  marks := by decide
  enabled := by decide
  loading := by
    intro _
    exact ⟨rfl, rfl, rfl, by intro h; cases h <;> rfl, by decide⟩

/-- RETIRE drops the instance; the pocket senses PRESENT and so becomes UNKNOWN (R43), which R29 allows no pocket without a
baseline. -/
theorem unlearnedHolder_retired :
    ∃ t, step unlearnedHolder = .next t ∧
      t.psc.pockets = [(64, { Pocket.reset with enabled := true, state := .unknown, sensed := .present })] :=
  ⟨_, rfl, by decide +kernel⟩

/-- Refutes O60: the clause for OCCUPIED of `Pocket.Fits` admits PRESENT without a baseline, the one for UNKNOWN does not, and a
RETIRE of the instance in such a pocket makes the one of the other. -/
theorem not_resetMeetsInvariants : ¬ Obligations.ResetMeetsInvariants := by
  unfold Obligations.ResetMeetsInvariants
  rintro ⟨hstep, -⟩
  obtain ⟨t, ht, hp⟩ := unlearnedHolder_retired
  have fits := (hstep _ t unlearnedHolder_accounted ht).fits _ (hp ▸ List.mem_singleton_self _)
  exact fits.2.2.2.1 rfl

end Sys2Proof.Machine

/-! What the operations that do not write TRG leave of it: everything. One lemma for each, for `simp`. -/

namespace Sys2Proof.Machine

/-- A fold whose every step leaves a part of the state as it was leaves it so. -/
theorem State.foldl_keeps {α β : Type} {π : State → β} {f : State → α → State} (h : ∀ s x, π (f s x) = π s) (xs : List α)
    (s : State) : π (xs.foldl f s) = π s := by
  induction xs generalizing s with
  | nil => rfl
  | cons x xs ih => exact (ih _).trans (h s x)

/-! ### The crib and put-away -/

@[simp] theorem State.settleMarkAt_trg (s : State) (n key : Nat) : (s.settleMarkAt n key).trg = s.trg := by
  unfold State.settleMarkAt
  dsimp only
  split
  · split <;> rfl
  · rfl

@[simp] theorem State.settleMarks_trg (s : State) (n : Nat) : (s.settleMarks n).trg = s.trg :=
  State.foldl_keeps (fun s _ => s.settleMarkAt_trg n _) _ s

@[simp] theorem State.dropMagazine_trg (s : State) (station n : Nat) : (s.dropMagazine station n).trg = s.trg := rfl

@[simp] theorem State.tryPutaway_trg (s : State) (n : Nat) : (s.tryPutaway n).trg = s.trg :=
  ((State.PutsAway.refl s).tryPutaway n).trg_eq

@[simp] theorem State.noticeIfFree_trg (s : State) (c p : Nat) : (s.noticeIfFree c p).trg = s.trg :=
  ((State.PutsAway.refl s).noticeIfFree c p).trg_eq

@[simp] theorem State.vacateAssigned_trg (s : State) (a : Assignment) : (s.vacateAssigned a).trg = s.trg :=
  ((State.PutsAway.refl s).vacateAssigned a).trg_eq

@[simp] theorem State.forgetAssignment_trg (s : State) (n : Nat) : (s.forgetAssignment n).trg = s.trg := rfl

@[simp] theorem State.leavePutaway_trg (s : State) (n : Nat) : (s.leavePutaway n).trg = s.trg :=
  ((State.PutsAway.refl s).leavePutaway n).trg_eq

@[simp] theorem State.unknownPlacement_trg (s : State) (c p : Nat) (tool : Option Nat) (custody : Option Custody) :
    (s.unknownPlacement c p tool custody).trg = s.trg := rfl

@[simp] theorem State.faultNow_trg (s : State) (c p count : Nat) (before : PocketState) :
    (s.faultNow c p count before).trg = s.trg := rfl

@[simp] theorem State.departPocket_trg (s : State) (l : Location) (n : Nat) (cause : MarkCause) :
    (s.departPocket l n cause).trg = s.trg := by
  unfold State.departPocket
  split
  · split <;> simp
  · rfl

@[simp] theorem State.dropPocket_trg (s : State) (l : Location) (n : Nat) : (s.dropPocket l n).trg = s.trg := by
  unfold State.dropPocket
  split
  · split <;> simp
  · rfl

@[simp] theorem State.vacate_trg (s : State) (n : Nat) : (s.vacate n).trg = s.trg := by
  unfold State.vacate
  split
  · rfl
  · dsimp only
    split <;> simp

@[simp] theorem State.learnOn_trg (s : State) (c handle : Nat) (pockets learned refused failed : List Nat) :
    (s.learnOn c handle pockets learned refused failed).trg = s.trg := by
  unfold State.learnOn
  dsimp only
  split <;> rfl

@[simp] theorem State.startAuto_trg (s : State) (c : Nat) : (s.startAuto c).trg = s.trg := by
  unfold State.startAuto
  split <;> rfl

@[simp] theorem State.restartBoundary_trg (s : State) (c : Nat) : (s.restartBoundary c).trg = s.trg := by
  simp [State.restartBoundary]

@[simp] theorem State.takeSettings_trg (s : State) (c : Nat) (new : CabSettings) : (s.takeSettings c new).1.trg = s.trg := by
  unfold State.takeSettings
  dsimp only
  rw [State.setCab_trg]
  apply State.foldl_keeps
  intro t p
  exact State.setPocket_trg _ _ _ _

@[simp] theorem State.endPass_trg (s : State) (c : Nat) : (s.endPass c).trg = s.trg := by
  unfold State.endPass
  simp only [apply_ite State.trg, State.restartBoundary_trg, ite_self]
  split
  · simp only [State.learnOn_trg, State.setCab_trg]
    split
    · rw [State.takeSettings_trg, State.setCab_trg]
    · rfl
  · split
    · rw [State.takeSettings_trg, State.setCab_trg]
    · rfl

@[simp] theorem State.passOn_trg (s : State) (c : Nat) (pass : Pass) : (s.passOn c pass).trg = s.trg := by
  unfold State.passOn
  repeat' split
  all_goals simp

@[simp] theorem State.startSingle_trg (s : State) (c handle : Nat) : (s.startSingle c handle).trg = s.trg := by
  unfold State.startSingle
  split <;> rfl

@[simp] theorem State.takeLearn_trg (s : State) (c cycles : Nat) : (s.takeLearn c cycles).trg = s.trg := by
  unfold State.takeLearn
  dsimp only
  repeat' split
  all_goals simp

@[simp] theorem State.fireBoundary_trg (s : State) (c : Nat) : (s.fireBoundary c).trg = s.trg := by
  unfold State.fireBoundary
  dsimp only
  split
  · split <;> simp
  · rfl

@[simp] theorem State.beginBoundaries_trg (s : State) (c : Nat) : (s.beginBoundaries c).trg = s.trg := by
  unfold State.beginBoundaries
  split <;> simp

@[simp] theorem State.setCabinet_trg (s : State) (c : Nat) (new : CabSettings) : (s.setCabinet c new).trg = s.trg := by
  unfold State.setCabinet
  dsimp only
  split
  · rfl
  · split <;> simp

@[simp] theorem State.configurePocket_trg (s : State) (c p : Nat) (enabled : Option Bool) (zone : Option Zone) :
    (s.configurePocket c p enabled zone).trg = s.trg := by
  unfold State.configurePocket
  simp only [apply_ite State.trg, State.noticeIfFree_trg, State.setPocket_trg, ite_self]

@[simp] theorem State.setPockets_trg (s : State) (c enabled zone : Nat) (pockets : List Nat) :
    (s.setPockets c enabled zone pockets).1.trg = s.trg := by
  unfold State.setPockets
  dsimp only
  split
  · rfl
  · split
    · rfl
    · exact State.foldl_keeps (π := State.trg) (fun s p => s.configurePocket_trg c p _ _) _ s

@[simp] theorem State.learnEmpty_trg (s : State) (c : Nat) (pockets : List Nat) : (s.learnEmpty c pockets).1.trg = s.trg := by
  unfold State.learnEmpty
  dsimp only
  repeat' split
  all_goals simp

@[simp] theorem State.scanOnce_trg (s : State) (c : Nat) : (s.scanOnce c).1.trg = s.trg := by
  unfold State.scanOnce
  repeat' split
  all_goals simp

/-! ### Requests -/

@[simp] theorem State.setQueue_trg (s : State) (q : List Request) : (s.setQueue q).trg = s.trg := rfl

@[simp] theorem State.putRequest_trg (s : State) (r : Request) : (s.putRequest r).trg = s.trg := rfl

@[simp] theorem State.replaceRequest_trg (s : State) (r : Request) : (s.replaceRequest r).trg = s.trg := rfl

@[simp] theorem State.endRequest_trg (s : State) (r : Request) (state : ReqState) (cause : ReqCause) :
    (s.endRequest r state cause).trg = s.trg := rfl

@[simp] theorem State.changeRequest_trg (s : State) (r : Request) (cause : ReqCause) : (s.changeRequest r cause).trg = s.trg :=
  rfl

@[simp] theorem State.enterAs_trg (s : State) (q : NewRequest) (number : Nat) : (s.enterAs q number).trg = s.trg := rfl

@[simp] theorem State.loseRequest_trg (s : State) (link : Option Nat) : (s.loseRequest link).trg = s.trg := by
  unfold State.loseRequest
  split <;> rfl

@[simp] theorem State.deliverRequest_trg (s : State) (link : Option Nat) : (s.deliverRequest link).trg = s.trg := by
  unfold State.deliverRequest
  split <;> rfl

@[simp] theorem State.clearLatePick_trg (s : State) (key : Nat) : (s.clearLatePick key).trg = s.trg := rfl

@[simp] theorem State.clearLatePicksOf_trg (s : State) (n : Nat) : (s.clearLatePicksOf n).trg = s.trg := rfl

@[simp] theorem State.expiryTest_trg (s : State) : s.expiryTest.trg = s.trg :=
  State.foldl_keeps (fun s r => s.endRequest_trg r .expired .expired) _ s

/-! ### Handoff -/

@[simp] theorem State.setTxns_trg (s : State) (n : Nat) (q : List Txn) : (s.setTxns n q).trg = s.trg := rfl

@[simp] theorem State.putTxn_trg (s : State) (n : Nat) (x : Txn) : (s.putTxn n x).trg = s.trg := rfl

@[simp] theorem State.countTxn_trg (s : State) : s.countTxn.trg = s.trg := rfl

@[simp] theorem State.putBroadcast_trg (s : State) (b : Broadcast) : (s.putBroadcast b).trg = s.trg := rfl

@[simp] theorem State.settleBroadcast_trg (s : State) (b : Broadcast) : (s.settleBroadcast b).trg = s.trg := by
  unfold State.settleBroadcast
  split <;> rfl

@[simp] theorem State.memberResult_trg (s : State) (number : Option Nat) (n : Nat) (code : MemberCode) :
    (s.memberResult number n code).trg = s.trg := by
  unfold State.memberResult
  split
  · rfl
  · split <;> simp

@[simp] theorem State.setUnacked_trg (s : State) (n : Nat) (u : Table HoldEntry) : (s.setUnacked n u).trg = s.trg := rfl

@[simp] theorem State.noticeEnded_trg (s : State) (n id : Nat) (kind : NoticeKind) (type : Nat) (state : TxnState) :
    (s.noticeEnded n id kind type state).trg = s.trg := by
  unfold State.noticeEnded
  dsimp only
  split <;> split <;> rfl

@[simp] theorem State.finishTxn_trg (s : State) (n : Nat) (x : Txn) (state : TxnState) (code : TxnCode) :
    (s.finishTxn n x state code).trg = s.trg := by
  unfold State.finishTxn
  dsimp only
  split <;> simp

@[simp] theorem State.supersede_trg (s : State) (n : Nat) (old : Txn) (kind : TxnKind) (broadcast : Option Nat) :
    (s.supersede n old kind broadcast).trg = s.trg := by
  simp [State.supersede]

@[simp] theorem State.enterTxn_trg (s : State) (n : Nat) (kind : TxnKind) (broadcast : Option Nat) :
    (s.enterTxn n kind broadcast).trg = s.trg := rfl

@[simp] theorem State.askUnblocked_trg (s : State) (n place tool : Nat) : (s.askUnblocked n place tool).trg = s.trg := by
  unfold State.askUnblocked
  split <;> rfl

@[simp] theorem State.enterOwedNotices_trg (s : State) (n : Nat) : (s.enterOwedNotices n).trg = s.trg := by
  unfold State.enterOwedNotices
  split
  · refine State.foldl_keeps (π := State.trg) (fun s e => ?_) _ s
    split <;> rfl
  · rfl

@[simp] theorem State.startTxn_trg (s : State) (n : Nat) : (s.startTxn n).trg = s.trg := by
  unfold State.startTxn
  split
  · split <;> rfl
  · rfl

@[simp] theorem State.markNotice_trg (s : State) (n tool place : Nat) : (s.markNotice n tool place).trg = s.trg := by
  unfold State.markNotice
  dsimp only
  split
  · split <;> rfl
  · rfl

@[simp] theorem State.confirmEntry_trg (s : State) (n tool place generation : Nat) (blocked : Bool) :
    (s.confirmEntry n tool place generation blocked).trg = s.trg := rfl

@[simp] theorem State.linkStarted_trg (s : State) (n : Nat) : (s.linkStarted n).trg = s.trg := by
  simp [State.linkStarted]

@[simp] theorem State.fireHoldOff_trg (s : State) (n : Nat) : (s.fireHoldOff n).trg = s.trg := by
  unfold State.fireHoldOff
  split <;> simp

@[simp] theorem State.stationReply_trg (s : State) (n : Nat) (r : StationReply) : (s.stationReply n r).trg = s.trg := rfl

@[simp] theorem State.holdEntry_trg (s : State) (n type : Nat) (kind : NoticeKind) : (s.holdEntry n type kind).trg = s.trg := by
  simp [State.holdEntry]

@[simp] theorem State.inviteMember_trg (s : State) (number n type : Nat) (kind : NoticeKind) :
    (s.inviteMember number n type kind).trg = s.trg := by
  unfold State.inviteMember
  dsimp only
  repeat' split
  all_goals simp

@[simp] theorem State.createBroadcast_trg (s : State) (kind : NoticeKind) (type : Nat) (members : List Nat) :
    (s.createBroadcast kind type members).1.trg = s.trg := by
  unfold State.createBroadcast
  dsimp only
  split
  · exact State.foldl_keeps (fun s n => s.holdEntry_trg n type kind) members s
  · split <;> simp only [State.settleBroadcast_trg] <;>
      exact State.foldl_keeps (fun s n => s.inviteMember_trg _ n type kind) members _

@[simp] theorem State.fireBroadcast_trg (s : State) (number : Nat) : (s.fireBroadcast number).trg = s.trg := by
  unfold State.fireBroadcast
  split
  · rfl
  · split
    · rw [State.settleBroadcast_trg]
      generalize allStations = ns
      exact State.foldl_keeps (fun s n => s.setTxns_trg n _) ns s
    · rfl

@[simp] theorem State.setPlaces_trg (s : State) (n count : Nat) : (s.setPlaces n count).1.trg = s.trg := by
  unfold State.setPlaces
  repeat' split
  all_goals rfl

/-! ### The heads -/

@[simp] theorem State.sendSession_trg (s : State) (h : HeadId) : (s.sendSession h).trg = s.trg := by cases h <;> rfl

@[simp] theorem State.sendResult_trg (s : State) (h : HeadId) (r : Result) : (s.sendResult h r).trg = s.trg := by
  cases h <;> rfl

@[simp] theorem State.testZero_trg (s : State) (h : HeadId) (cause : ZeroReason) : (s.testZero h cause).trg = s.trg := by
  unfold State.testZero
  dsimp only
  split <;> simp

@[simp] theorem State.setScaleTemp_trg (s : State) (h : HeadId) (t : Int) : (s.setScaleTemp h t).trg = s.trg := by
  simp [State.setScaleTemp]

@[simp] theorem State.idleSession_trg (s : State) (h : HeadId) : (s.idleSession h).trg = s.trg := by
  simp [State.idleSession]

@[simp] theorem State.setSession_trg (s : State) (h : HeadId) (x : Session) : (s.setSession h x).trg = s.trg := by
  simp [State.setSession]

@[simp] theorem State.openSession_trg (s : State) (h : HeadId) (kind : SessionKind) (handle : Nat) :
    (s.openSession h kind handle).trg = s.trg := by
  simp [State.openSession]

@[simp] theorem State.setZero_trg (s : State) (h : HeadId) (x : Session) (cs : List (Nat × Capture)) (temp : Int) :
    (s.setZero h x cs temp).trg = s.trg := by
  simp [State.setZero]

@[simp] theorem State.judge_trg (s : State) (h : HeadId) (x : Session) (tool : Nat) (cs : List (Nat × Capture)) :
    (s.judge h x tool cs).trg = s.trg := by
  unfold State.judge
  split
  · rfl
  · split <;> simp

@[simp] theorem State.captureLimit_trg (s : State) (h : HeadId) (x : Session) : (s.captureLimit h x).trg = s.trg := by
  unfold State.captureLimit
  dsimp only
  split <;> simp

@[simp] theorem State.storeCapture_trg (s : State) (h : HeadId) (x : Session) (c : Capture) :
    (s.storeCapture h x c).trg = s.trg := by
  unfold State.storeCapture
  dsimp only
  split
  · simp
  · split <;> simp

@[simp] theorem State.takeCapture_trg (s : State) (h : HeadId) (z x : BitVec 24) (spindle scaleTemp toolTemp : BitVec 16)
    (flags : Byte) : (s.takeCapture h z x spindle scaleTemp toolTemp flags).trg = s.trg := by
  unfold State.takeCapture
  dsimp only
  repeat' split
  all_goals simp

@[simp] theorem State.fireLapse_trg (s : State) (h : HeadId) : (s.fireLapse h).trg = s.trg := by
  unfold State.fireLapse
  split <;> simp

@[simp] theorem State.headFramed_trg (s : State) (h : HeadId) : (s.headFramed h).trg = s.trg := by simp [State.headFramed]

@[simp] theorem State.fireHeadBytes_trg (s : State) (h : HeadId) : (s.fireHeadBytes h).trg = s.trg := by
  unfold State.fireHeadBytes
  split <;> simp

@[simp] theorem State.removeZero_trg (s : State) (h : HeadId) : (s.removeZero h).trg = s.trg := by
  unfold State.removeZero
  dsimp only
  split <;> simp

@[simp] theorem State.putHeadSettings_trg (s : State) (h : HeadId) (new : HeadSettings) :
    (s.putHeadSettings h new).trg = s.trg := by
  simp [State.putHeadSettings]

@[simp] theorem State.zeroHead_trg (s : State) (head : Nat) : (s.zeroHead head).1.trg = s.trg := by
  unfold State.zeroHead
  repeat' split
  all_goals simp

/-! ### The links -/

@[simp] theorem State.modLink_trg (s : State) (n : Nat) (f : Link → Link) : (s.modLink n f).trg = s.trg := rfl

@[simp] theorem State.fireEchoHeld_trg (s : State) (n : Nat) : (s.fireEchoHeld n).trg = s.trg := by
  unfold State.fireEchoHeld
  split <;> rfl

theorem State.offer_trg {s t : State} {n : Nat} {b : List Byte} {o : BlockOrigin} (h : s.offer n = some (b, o, t)) :
    t.trg = s.trg := by
  unfold State.offer at h
  dsimp only at h
  split at h
  · cases h; rfl
  · split at h
    · split at h <;> cases h; rfl
    · cases h

theorem State.sendNew_trg {s t : State} {n room : Nat} {o : Outgoing} (h : s.sendNew n room = some (t, o)) : t.trg = s.trg := by
  unfold State.sendNew at h
  split at h
  · split at h
    next ho => cases h; exact (State.offer_trg ho :)
    next => cases h
  · cases h

theorem State.resendOldest_trg {s t : State} {n : Nat} {o : Outgoing} (h : s.resendOldest n = some (t, o)) : t.trg = s.trg := by
  unfold State.resendOldest at h
  dsimp only at h
  split at h <;> cases h
  rfl

theorem State.sendEcho_trg {s t : State} {n : Nat} {o : Outgoing} (h : s.sendEcho n = some (t, o)) : t.trg = s.trg := by
  unfold State.sendEcho at h
  dsimp only at h
  split at h
  · split at h <;> cases h
    rfl
  · cases h

theorem mem_or_mem_of_orElse {α : Type} {a : Option α} {f : Unit → Option α} {x : α} (h : x ∈ a.orElse f) :
    x ∈ a ∨ x ∈ f () := by
  cases a with
  | none => exact .inr h
  | some y => exact .inl h

@[simp] theorem State.chooseBlock_trg (s : State) (n : Nat) : (s.chooseBlock n).1.trg = s.trg := by
  have chosen : ∀ o : Option (State × Outgoing), (∀ x ∈ o, x.1.trg = s.trg) → (o.getD (s, fillBlock)).1.trg = s.trg := by
    intro o ho
    cases o with
    | none => rfl
    | some x => exact ho x rfl
  unfold State.chooseBlock
  split
  · refine chosen _ fun x hx => ?_
    rcases mem_or_mem_of_orElse hx with hx | hx
    · exact State.resendOldest_trg (o := x.2) hx
    · exact State.sendNew_trg (o := x.2) hx
  · refine chosen _ fun x hx => ?_
    rcases mem_or_mem_of_orElse hx with hx | hx
    · exact State.sendEcho_trg (o := x.2) hx
    · rcases mem_or_mem_of_orElse hx with hx | hx
      · exact State.resendOldest_trg (o := x.2) hx
      · exact State.sendNew_trg (o := x.2) hx
  · rfl

@[simp] theorem State.sendBlock_trg (s : State) (n : Nat) : (s.sendBlock n).trg = s.trg := by simp [State.sendBlock]

/-! ### The clock and the port -/

theorem State.RunsClock.trg_eq {s t : State} (h : s.RunsClock t) : t.trg = s.trg := by rw [h.2.2.2]

theorem State.bringIn_trg (s : State) (f : HostFrame) : (s.bringIn f).trg = s.trg := by rw [s.bringIn_only]

end Sys2Proof.Machine

/-! The record rules of TRG (R1, R8, R9) through every operation that writes an instance: one lemma for each, from the custody
transition up to the messages of the stations. -/

namespace Sys2Proof.Machine

/-- TRG is lawful, and these are its types. -/
def Trg.LawfulOver (g : Trg) (types : Table TypeRec) : Prop := g.types = types ∧ g.Lawful

/-- The number is an instance's and the record lawful under these types: what TRG may list. -/
def Listable (types : Table TypeRec) (n : Nat) (r : InstRec) : Prop := toolNo n = true ∧ r.Lawful types

variable {s : State} {T : Table TypeRec}

/-! ### Records -/

/-- What TRG lists may be listed again. -/
theorem Trg.LawfulOver.tool (h : s.trg.LawfulOver T) {n : Nat} {r : InstRec} (hr : s.tool n = some r) : Listable T n r := by
  obtain ⟨rfl, -, -, -, hi⟩ := h
  exact hi _ (mem_of_tget hr)

theorem Trg.LawfulOver.foldl {α : Type} {f : State → α → State}
    (k : ∀ (u : State) (x : α), u.trg.LawfulOver T → (f u x).trg.LawfulOver T) (xs : List α) {s : State}
    (h : s.trg.LawfulOver T) : (xs.foldl f s).trg.LawfulOver T := by
  induction xs generalizing s with
  | nil => exact h
  | cons x xs ih => exact ih (k s x h)

theorem Trg.LawfulOver.setTool (h : s.trg.LawfulOver T) {n : Nat} {r : InstRec} (hr : Listable T n r) :
    (s.setTool n r).trg.LawfulOver T := by
  obtain ⟨rfl, ht, hs, htypes, hi⟩ := h
  refine ⟨rfl, ht, tableSorted_tset n r hs, htypes, fun e he => ?_⟩
  rcases mem_tset he with rfl | he
  · exact hr
  · exact hi e he

theorem Trg.LawfulOver.delTool (h : s.trg.LawfulOver T) (n : Nat) : (s.delTool n).trg.LawfulOver T := by
  obtain ⟨rfl, ht, hs, htypes, hi⟩ := h
  exact ⟨rfl, ht, tableSorted_tdel n hs, htypes, fun e he => hi e (mem_tdel he)⟩

/-- A change of fields that no record rule reads. -/
def InstRec.SameRules (r q : InstRec) : Prop :=
  q.type = r.type ∧ q.life ≤ r.life ∧ q.marks = r.marks ∧ q.custody = r.custody ∧ q.qcause = r.qcause ∧ q.link = r.link

theorem InstRec.SameRules.lawful {r q : InstRec} (h : r.SameRules q) (hr : r.Lawful T) : q.Lawful T := by
  obtain ⟨htype, hlife, hmarks, hcustody, hqcause, hlink⟩ := h
  obtain ⟨⟨t, ht, hl, hm⟩, hq, hk⟩ := hr
  exact ⟨⟨t, htype ▸ ht, hlife.trans hl, hmarks ▸ hm⟩, by rw [hqcause, hcustody]; exact hq, by rw [hlink, hcustody]; exact hk⟩

@[simp] theorem Trg.LawfulOver.modTool (h : s.trg.LawfulOver T) (n : Nat) {f : InstRec → InstRec} (hf : ∀ r : InstRec, r.SameRules (f r)) :
    (s.modTool n f).trg.LawfulOver T := by
  unfold State.modTool
  split
  next r hr => exact h.setTool ⟨(h.tool hr).1, (hf r).lawful (h.tool hr).2⟩
  next => exact h

/-! ### Custody -/

theorem redirect_eq_quarantine {c : Custody} {life : Nat} : redirect c life = .quarantine ↔ c = .quarantine := by
  unfold redirect
  split <;> cases c <;> simp

/-- R9: a transition leaves a lawful record lawful, if one into QUARANTINE names a cause. -/
theorem InstRec.Lawful.moved {r : InstRec} {m : Move} (h : r.Lawful T) (hq : m.custody = .quarantine → m.qcause.isSome = true) :
    (r.moved m).Lawful T := by
  obtain ⟨htype, -, -⟩ := h
  refine ⟨htype, ?_, ?_⟩
  · simp only [InstRec.moved, redirect_eq_quarantine]
    split
    next hc => simp [hq hc, hc]
    next hc => simp [hc]
  · simp only [InstRec.moved]
    split <;> simp_all

theorem Listable.moved {n : Nat} {r : InstRec} {m : Move} (h : Listable T n r)
    (hq : m.custody = .quarantine → m.qcause.isSome = true) : Listable T n (r.moved m) := ⟨h.1, h.2.moved hq⟩

theorem Trg.LawfulOver.transition (h : s.trg.LawfulOver T) {n : Nat} {r : InstRec} (hr : Listable T n r) {m : Move}
    (hq : m.custody = .quarantine → m.qcause.isSome = true) {also : InstRec → InstRec} (ha : ∀ i : InstRec, i.SameRules (also i)) :
    (s.transition n r m also).trg.LawfulOver T :=
  h.setTool ⟨hr.1, (ha _).lawful (hr.2.moved hq)⟩

theorem Trg.LawfulOver.move (h : s.trg.LawfulOver T) {n : Nat} {r : InstRec} (hr : Listable T n r) {m : Move}
    (hq : m.custody = .quarantine → m.qcause.isSome = true) : (s.move n r m).trg.LawfulOver T :=
  h.transition hr hq fun _ => ⟨rfl, le_rfl, rfl, rfl, rfl, rfl⟩

/-! ### Requests -/

@[simp] theorem Trg.LawfulOver.allocateFor (h : s.trg.LawfulOver T) (number : Nat) : (s.allocateFor number).trg.LawfulOver T := by
  unfold State.allocateFor
  split
  · exact h
  · split
    · split
      next n i hc =>
        obtain ⟨rfl, hl⟩ := h
        obtain ⟨hn, hr⟩ := hl.2.2.2 _ (State.chooseCandidate_spec hc).1
        rw [State.reserve_trg]
        exact Trg.LawfulOver.setTool ⟨rfl, hl⟩ ⟨hn, hr.1, by simp, by simp⟩
      next => split <;> simpa [State.enterWaiting_trg] using h
    · exact h

@[simp] theorem Trg.LawfulOver.allocationPass (h : s.trg.LawfulOver T) : s.allocationPass.trg.LawfulOver T := by
  unfold State.allocationPass
  split
  · exact Trg.LawfulOver.foldl (fun u x hu => hu.allocateFor x) _ h
  · exact h

@[simp] theorem Trg.LawfulOver.announce (h : s.trg.LawfulOver T) (n : Nat) : (s.announce n).trg.LawfulOver T := by
  unfold State.announce
  split
  · exact h
  · split <;> simp [h]

@[simp] theorem Trg.LawfulOver.releaseTool (h : s.trg.LawfulOver T) (n : Nat) (redirected : Bool) :
    (s.releaseTool n redirected).trg.LawfulOver T := by
  unfold State.releaseTool
  split
  · exact h
  next i hi =>
    obtain ⟨hn, hr⟩ := h.tool hi
    have kept : ∀ g : Custody, g ≠ .quarantine → (s.setTool n { i.moved { cause := .release, custody := g, loc := i.loc } with
        custody := g, qcause := none, link := none }).trg.LawfulOver T :=
      fun g hg => h.setTool ⟨hn, hr.1, by simp [hg], by simp⟩
    cases redirected <;> dsimp only <;> split
    all_goals simp only [apply_ite State.trg, State.setPocket_trg, ite_self, State.report_trg, if_true, if_false, Bool.false_eq_true]
    · exact kept .ready (by simp)
    · exact kept .staged (by simp)
    · exact h.move ⟨hn, hr⟩ (by simp)
    · exact h.move ⟨hn, hr⟩ (by simp)

@[simp] theorem Trg.LawfulOver.afterRelease (h : s.trg.LawfulOver T) (n : Nat) : (s.afterRelease n).trg.LawfulOver T := by
  simp [State.afterRelease, h]

@[simp] theorem Trg.LawfulOver.releaseToQueue (h : s.trg.LawfulOver T) (n : Nat) (redirected : Bool) :
    (s.releaseToQueue n redirected).trg.LawfulOver T := by
  unfold State.releaseToQueue
  split <;> simp [h]

@[simp] theorem Trg.LawfulOver.pickTimesOut (h : s.trg.LawfulOver T) (r : Request) (n : Nat) :
    (s.pickTimesOut r n).trg.LawfulOver T := by
  unfold State.pickTimesOut
  dsimp only
  have hr := h.releaseTool n true
  apply Trg.LawfulOver.afterRelease
  split
  · exact hr
  · split <;> exact hr

@[simp] theorem Trg.LawfulOver.firePick (h : s.trg.LawfulOver T) (number : Nat) : (s.firePick number).trg.LawfulOver T := by
  unfold State.firePick
  repeat' split
  all_goals simp [h]

@[simp] theorem Trg.LawfulOver.evict (h : s.trg.LawfulOver T) (r : Request) : (s.evict r).trg.LawfulOver T := by
  unfold State.evict
  dsimp only
  split <;> simp [h]

@[simp] theorem Trg.LawfulOver.enter (h : s.trg.LawfulOver T) (q : NewRequest) : (s.enter q).1.trg.LawfulOver T := by
  unfold State.enter
  with_reducible repeat' first
    | assumption | apply Trg.LawfulOver.allocationPass | apply Trg.LawfulOver.evict | apply Trg.LawfulOver.afterRelease
    | (simp only [State.enterAs_trg]) | split

@[simp] theorem Trg.LawfulOver.merge (h : s.trg.LawfulOver T) (r : Request) (q : NewRequest) :
    (s.merge r q).trg.LawfulOver T := by
  unfold State.merge
  dsimp only
  with_reducible repeat' first
    | assumption | apply Trg.LawfulOver.afterRelease | apply Trg.LawfulOver.releaseToQueue | apply Trg.LawfulOver.allocationPass
    | (simp only [State.report_trg, State.replaceRequest_trg]) | split

@[simp] theorem Trg.LawfulOver.autoRequest (h : s.trg.LawfulOver T) (station place type : Nat) (prio : Priority) :
    (s.autoRequest station place type prio).trg.LawfulOver T := by
  unfold State.autoRequest
  dsimp only
  split
  · exact h.merge _ _
  · split <;> rename_i he <;> have hs := congrArg Prod.fst he <;> dsimp only at hs <;> subst hs <;> exact h.enter _

@[simp] theorem Trg.LawfulOver.cancelRequest (h : s.trg.LawfulOver T) (r : Request) (cause : ReqCause) :
    (s.cancelRequest r cause).trg.LawfulOver T := by
  unfold State.cancelRequest
  with_reducible repeat' first
    | assumption | apply Trg.LawfulOver.afterRelease | apply Trg.LawfulOver.releaseTool | (simp only [State.endRequest_trg])
    | split

@[simp] theorem Trg.LawfulOver.putawayTimesOut (h : s.trg.LawfulOver T) (n : Nat) (a : Assignment) :
    (s.putawayTimesOut n a).trg.LawfulOver T := by
  have hv : ((s.forgetAssignment n).vacateAssigned a).trg.LawfulOver T := by simpa using h
  unfold State.putawayTimesOut
  dsimp only
  split
  · exact hv
  next r hr =>
    simp only [State.report_trg, State.leavePutaway_trg]
    exact hv.move (hv.tool hr) (by simp)

@[simp] theorem Trg.LawfulOver.firePutaway (h : s.trg.LawfulOver T) (n : Nat) : (s.firePutaway n).trg.LawfulOver T := by
  unfold State.firePutaway
  repeat' split
  all_goals simp [h]

@[simp] theorem Trg.LawfulOver.fireTimings (h : s.trg.LawfulOver T) : s.fireTimings.trg.LawfulOver T :=
  Trg.LawfulOver.foldl (fun _ x hu => hu.firePutaway x) _ (Trg.LawfulOver.foldl (fun _ x hu => hu.firePick x) _ h)

/-! ### Handoff -/

@[simp] theorem Trg.LawfulOver.setOwed (h : s.trg.LawfulOver T) (tool : Nat) (owed : Bool) :
    (s.setOwed tool owed).trg.LawfulOver T := h.modTool tool fun _ => ⟨rfl, le_rfl, rfl, rfl, rfl, rfl⟩

@[simp] theorem Trg.LawfulOver.askToolData (h : s.trg.LawfulOver T) (n place tool : Nat) :
    (s.askToolData n place tool).trg.LawfulOver T := by
  unfold State.askToolData
  dsimp only
  repeat' split
  all_goals simp [h]

@[simp] theorem Trg.LawfulOver.askBlocked (h : s.trg.LawfulOver T) (n place tool : Nat) :
    (s.askBlocked n place tool).trg.LawfulOver T := by
  unfold State.askBlocked
  split <;> simp [h]

@[simp] theorem Trg.LawfulOver.fillFor (h : s.trg.LawfulOver T) (n tool : Nat) : (s.fillFor n tool).trg.LawfulOver T := by
  unfold State.fillFor
  repeat' split
  all_goals simp [h]

@[simp] theorem Trg.LawfulOver.fillSpace (h : s.trg.LawfulOver T) (n : Nat) : (s.fillSpace n).trg.LawfulOver T :=
  Trg.LawfulOver.foldl (fun _ x hu => hu.fillFor n x) _ (by simpa using h)

@[simp] theorem Trg.LawfulOver.reaskBlocked (h : s.trg.LawfulOver T) (n : Nat) (x : Txn) (state : TxnState) :
    (s.reaskBlocked n x state).trg.LawfulOver T := by
  unfold State.reaskBlocked
  repeat' split
  all_goals simp [h]

@[simp] theorem Trg.LawfulOver.endTxn (h : s.trg.LawfulOver T) (n : Nat) (x : Txn) (state : TxnState) (code : TxnCode) :
    (s.endTxn n x state code).trg.LawfulOver T := by
  simp [State.endTxn, h]

@[simp] theorem Trg.LawfulOver.endQueued (h : s.trg.LawfulOver T) (n id : Nat) (state : TxnState) (code : TxnCode) :
    (s.endQueued n id state code).trg.LawfulOver T := by
  unfold State.endQueued
  split <;> simp [h]

@[simp] theorem Trg.LawfulOver.cancelAt (h : s.trg.LawfulOver T) (n : Nat) (p : TxnKind → Bool) :
    (s.cancelAt n p).trg.LawfulOver T := Trg.LawfulOver.foldl (fun _ x hu => hu.endQueued n x _ _) _ h

@[simp] theorem Trg.LawfulOver.cancelAll (h : s.trg.LawfulOver T) (p : TxnKind → Bool) : (s.cancelAll p).trg.LawfulOver T :=
  Trg.LawfulOver.foldl (fun _ n hu => hu.cancelAt n p) _ h

@[simp] theorem Trg.LawfulOver.leftIssued (h : s.trg.LawfulOver T) (tool : Nat) : (s.leftIssued tool).trg.LawfulOver T :=
  h.cancelAll _

@[simp] theorem Trg.LawfulOver.gone (h : s.trg.LawfulOver T) (tool : Nat) : (s.gone tool).trg.LawfulOver T := h.cancelAll _

@[simp] theorem Trg.LawfulOver.supplyData (h : s.trg.LawfulOver T) (n place tool : Nat) :
    (s.supplyData n place tool).trg.LawfulOver T := by
  simp [State.supplyData, h]

@[simp] theorem Trg.LawfulOver.returnTxn (h : s.trg.LawfulOver T) (n : Nat) (x : Txn) (behind : Txn → Bool) :
    (s.returnTxn n x behind).trg.LawfulOver T := by
  unfold State.returnTxn
  dsimp only
  generalize (match x.kind with
    | .toolData tool _ _ => s.pendingTxn n (fun k => k.isDataOf tool)
    | .notice _ type => s.pendingTxn n (fun k => k.isNoticeOf type)
    | _ => none) = rival
  split <;> simp [h]

@[simp] theorem Trg.LawfulOver.linkStopped (h : s.trg.LawfulOver T) (n : Nat) : (s.linkStopped n).trg.LawfulOver T := by
  unfold State.linkStopped
  dsimp only
  generalize ((s.station n).queue.filter _).map _ = ids
  have hf : (ids.foldl (fun s id => s.endQueued n id .failed .offline) s).trg.LawfulOver T :=
    Trg.LawfulOver.foldl (fun _ x hu => hu.endQueued n x _ _) _ h
  split <;> simp [hf]

@[simp] theorem Trg.LawfulOver.delivered (h : s.trg.LawfulOver T) (n id : Nat) : (s.delivered n id).trg.LawfulOver T := by
  unfold State.delivered
  split
  · exact h
  · split
    · split <;> simp [h]
    · simp [h]

@[simp] theorem Trg.LawfulOver.sendFailed (h : s.trg.LawfulOver T) (n id : Nat) : (s.sendFailed n id).trg.LawfulOver T := by
  unfold State.sendFailed
  split <;> simp [h]

@[simp] theorem Trg.LawfulOver.fireHandoff (h : s.trg.LawfulOver T) (n : Nat) : (s.fireHandoff n).trg.LawfulOver T := by
  unfold State.fireHandoff
  split <;> simp [h]

@[simp] theorem Trg.LawfulOver.afterPick (h : s.trg.LawfulOver T) (r : Request) (tool : Nat) :
    (s.afterPick r tool).trg.LawfulOver T := by
  unfold State.afterPick
  split <;> simp [h]

/-! ### Life -/

@[simp] theorem Trg.LawfulOver.afterRetired (h : s.trg.LawfulOver T) (n : Nat) : (s.afterRetired n).trg.LawfulOver T := by
  simp [State.afterRetired, h]

@[simp] theorem Trg.LawfulOver.spentAtLimit (h : s.trg.LawfulOver T) (n : Nat) : (s.spentAtLimit n).trg.LawfulOver T := by
  unfold State.spentAtLimit
  split
  next r hr => exact (h.move (h.tool hr) (by simp)).afterRetired n
  next => exact h

@[simp] theorem Trg.LawfulOver.lifeZero (h : s.trg.LawfulOver T) (n : Nat) : (s.lifeZero n).trg.LawfulOver T := by
  unfold State.lifeZero
  split
  next r hr => exact h.move (h.tool hr) (by simp)
  next => exact h

@[simp] theorem Trg.LawfulOver.prefetch (h : s.trg.LawfulOver T) (r : InstRec) : (s.prefetch r).trg.LawfulOver T := by
  unfold State.prefetch
  repeat' split
  all_goals simp [h]

@[simp] theorem Trg.LawfulOver.replacement (h : s.trg.LawfulOver T) (r : InstRec) : (s.replacement r).trg.LawfulOver T := by
  unfold State.replacement
  dsimp only
  with_reducible repeat' first | assumption | apply Trg.LawfulOver.autoRequest | split

@[simp] theorem Trg.LawfulOver.warnTest (h : s.trg.LawfulOver T) (n : Nat) : (s.warnTest n).trg.LawfulOver T := by
  unfold State.warnTest
  split
  · exact h
  next r hr =>
    obtain ⟨hn, hl⟩ := h.tool hr
    split
    · exact h
    · split
      · have hw : (s.setTool n { r with warned := true }).trg.LawfulOver T :=
          h.setTool ⟨hn, InstRec.SameRules.lawful (r := r) ⟨rfl, le_rfl, rfl, rfl, rfl, rfl⟩ hl⟩
        dsimp only
        apply Trg.LawfulOver.prefetch
        exact hw
      · exact h

theorem Trg.LawfulOver.spentActions (h : s.trg.LawfulOver T) {n : Nat} {r : InstRec} (hr : Listable T n r) (units : Nat)
    (late : Bool) : (s.spentActions n r units late).trg.LawfulOver T := by
  have hs : (s.setTool n { r with spent := true }).trg.LawfulOver T :=
    h.setTool ⟨hr.1, InstRec.SameRules.lawful (r := r) ⟨rfl, le_rfl, rfl, rfl, rfl, rfl⟩ hr.2⟩
  unfold State.spentActions
  apply Trg.LawfulOver.replacement
  simp only [State.report_trg]
  split
  · rw [State.startTxn_trg]
    exact hs.askBlocked _ _ _
  · exact hs

@[simp] theorem Trg.LawfulOver.zeroTest (h : s.trg.LawfulOver T) (n units : Nat) (late : Bool) :
    (s.zeroTest n units late).trg.LawfulOver T := by
  unfold State.zeroTest
  split
  · exact h
  next r hr =>
    have hn := h.tool hr
    split
    · exact h
    · split
      · split
        · exact h
        · exact h.spentActions hn units late
      · split
        · exact h
        · exact h.spentActions hn units late
      · exact h.lifeZero n
      · exact (h.lifeZero n).announce n
      · exact (h.lifeZero n).announce n
      · rw [State.tryPutaway_trg]
        exact (h.releaseToQueue n false).allocationPass.lifeZero n
      · split
        · exact h.spentAtLimit n
        · exact h
      · exact h

@[simp] theorem Trg.LawfulOver.applyUsage (h : s.trg.LawfulOver T) (n units : Nat) (late : Bool) :
    (s.applyUsage n units late).trg.LawfulOver T := by
  have hm : (s.modTool n fun r => { r with life := r.life - units }).trg.LawfulOver T :=
    h.modTool n fun r => ⟨rfl, Nat.sub_le _ _, rfl, rfl, rfl, rfl⟩
  exact (hm.warnTest n).zeroTest n units late

@[simp] theorem Trg.LawfulOver.usage (h : s.trg.LawfulOver T) (st n place units : Nat) :
    (s.usage st n place units).1.trg.LawfulOver T := by
  unfold State.usage
  repeat' split
  all_goals simp [h]

@[simp] theorem Trg.LawfulOver.verifiedLife (h : s.trg.LawfulOver T) (n : Nat) : (s.verifiedLife n).trg.LawfulOver T := by
  unfold State.verifiedLife
  repeat' split
  all_goals simp [h]

/-! ### Pockets -/

/-- R69: a placement into QUARANTINE has a cause, from a lawful record. -/
theorem placement_cause {r : InstRec} (h : r.qcause.isSome = true ↔ r.custody = .quarantine) (damaged held keep : Bool) :
    (placement r damaged held keep).1 = .quarantine → (placement r damaged held keep).2.isSome = true := by
  unfold placement
  dsimp only
  repeat' split
  all_goals simp_all

@[simp] theorem Trg.LawfulOver.pick (h : s.trg.LawfulOver T) (c p n : Nat) : (s.pick c p n).trg.LawfulOver T := by
  unfold State.pick
  split
  · exact h
  next i hi =>
    split
    · exact h
    · simp only [State.noticeIfFree_trg]
      apply Trg.LawfulOver.afterPick
      simp only [State.changeRequest_trg, State.setPocket_trg]
      exact h.move (h.tool hi) (by simp)

@[simp] theorem Trg.LawfulOver.latePick (h : s.trg.LawfulOver T) (c p n : Nat) (r : Request) :
    (s.latePick c p n r).trg.LawfulOver T := by
  unfold State.latePick
  split
  · exact h
  next i hi =>
    simp only [State.noticeIfFree_trg]
    apply Trg.LawfulOver.afterPick
    simp only [State.changeRequest_trg, State.setPocket_trg]
    exact h.move (h.tool hi) (by simp)

@[simp] theorem Trg.LawfulOver.unsanctioned (h : s.trg.LawfulOver T) (c p n : Nat) :
    (s.unsanctioned c p n).trg.LawfulOver T := by
  unfold State.unsanctioned
  simp only [State.noticeIfFree_trg, State.setPocket_trg]
  split
  next i hi => exact Trg.LawfulOver.move (by simpa using h) (h.tool hi) (by simp)
  next => exact h

@[simp] theorem Trg.LawfulOver.removed (h : s.trg.LawfulOver T) (c p : Nat) : (s.removed c p).trg.LawfulOver T := by
  unfold State.removed
  dsimp only
  with_reducible repeat' first
    | assumption | apply Trg.LawfulOver.pick | apply Trg.LawfulOver.latePick | apply Trg.LawfulOver.unsanctioned
    | (simp only [State.clearLatePick_trg, State.noticeIfFree_trg, State.setPocket_trg]) | split

@[simp] theorem Trg.LawfulOver.place (h : s.trg.LawfulOver T) (c p n : Nat) : (s.place c p n).trg.LawfulOver T := by
  unfold State.place
  split
  · exact h
  next i hi =>
    have hn := h.tool hi
    split
    · apply Trg.LawfulOver.announce
      simp only [State.leavePutaway_trg, State.forgetAssignment_trg, State.setPocket_trg]
      exact h.move hn (placement_cause hn.2.2.1 _ _ _)
    · simp [h]

@[simp] theorem Trg.LawfulOver.placed (h : s.trg.LawfulOver T) (c p : Nat) : (s.placed c p).trg.LawfulOver T := by
  unfold State.placed
  split
  · split <;> simp [h]
  all_goals simp [h]

@[simp] theorem Trg.LawfulOver.enterFault (h : s.trg.LawfulOver T) (c p count : Nat) :
    (s.enterFault c p count).trg.LawfulOver T := by
  unfold State.enterFault
  dsimp only
  with_reducible repeat' first
    | assumption | apply Trg.LawfulOver.afterRelease | apply Trg.LawfulOver.releaseToQueue
    | (simp only [State.faultNow_trg, State.tryPutaway_trg, State.forgetAssignment_trg]) | split

@[simp] theorem Trg.LawfulOver.recover (h : s.trg.LawfulOver T) (c p : Nat) : (s.recover c p).trg.LawfulOver T := by
  unfold State.recover
  dsimp only
  with_reducible repeat' first
    | assumption | apply Trg.LawfulOver.allocationPass
    | (simp only [State.noticeIfFree_trg, State.report_trg, State.setPocket_trg]) | split

@[simp] theorem Trg.LawfulOver.presenceEvent (h : s.trg.LawfulOver T) (c p : Nat) (e : Presence) :
    (s.presenceEvent c p e).trg.LawfulOver T := by
  unfold State.presenceEvent
  dsimp only
  with_reducible repeat' first
    | assumption | apply Trg.LawfulOver.placed | apply Trg.LawfulOver.removed
    | (simp only [State.report_trg, State.setPocket_trg]) | split

@[simp] theorem Trg.LawfulOver.debounce (h : s.trg.LawfulOver T) (c p : Nat) (seen : Option Presence) :
    (s.debounce c p seen).trg.LawfulOver T := by
  unfold State.debounce
  dsimp only
  with_reducible repeat' first | assumption | apply Trg.LawfulOver.presenceEvent | (simp only [State.setPocket_trg]) | split

@[simp] theorem Trg.LawfulOver.inRangeCount (h : s.trg.LawfulOver T) (c p : Nat) : (s.inRangeCount c p).trg.LawfulOver T := by
  unfold State.inRangeCount
  dsimp only
  with_reducible repeat' first | assumption | apply Trg.LawfulOver.recover | (simp only [State.setPocket_trg]) | split

@[simp] theorem Trg.LawfulOver.countPocket (h : s.trg.LawfulOver T) (c p count : Nat) :
    (s.countPocket c p count).trg.LawfulOver T := by
  unfold State.countPocket
  dsimp only
  with_reducible repeat' first
    | assumption | apply Trg.LawfulOver.enterFault | apply Trg.LawfulOver.inRangeCount | apply Trg.LawfulOver.debounce
    | (simp only [State.setPocket_trg]) | split

@[simp] theorem Trg.LawfulOver.takeCount (h : s.trg.LawfulOver T) (c cycles : Nat) : (s.takeCount c cycles).trg.LawfulOver T := by
  unfold State.takeCount
  with_reducible repeat' first | assumption | apply Trg.LawfulOver.countPocket | (simp only [State.passOn_trg]) | split

/-! ### The messages of the stations -/

@[simp] theorem Trg.LawfulOver.verify (h : s.trg.LawfulOver T) (n : Nat) : (s.verify n).trg.LawfulOver T := by
  unfold State.verify
  split
  · exact h
  next r hr =>
    have hn := h.tool hr
    split
    · dsimp only
      split
      · split
        · apply Trg.LawfulOver.verifiedLife
          rw [State.deliverRequest_trg]
          exact Trg.LawfulOver.move (by simpa using h) hn (by simp)
        · exact h
      · exact h
    · exact h

@[simp] theorem Trg.LawfulOver.call (h : s.trg.LawfulOver T) (n type place : Nat) (prio : Priority) (offset minLife : Option Nat) :
    (s.call n type place prio offset minLife).1.trg.LawfulOver T := by
  unfold State.call
  dsimp only
  repeat' split
  all_goals simp [h]

@[simp] theorem Trg.LawfulOver.callCancel (h : s.trg.LawfulOver T) (n place type : Nat) :
    (s.callCancel n place type).1.trg.LawfulOver T := by
  unfold State.callCancel
  repeat' split
  all_goals simp [h]

@[simp] theorem Trg.LawfulOver.loaded (h : s.trg.LawfulOver T) (n tool place : Nat) :
    (s.loaded n tool place).1.trg.LawfulOver T := by
  unfold State.loaded
  split
  · exact h
  · split
    · exact h
    next r hr =>
      have hm : ∀ l, (s.move tool r { cause := .stationLoaded, custody := .issued, loc := l }).trg.LawfulOver T :=
        fun l => h.move (h.tool hr) (by simp)
      dsimp only
      with_reducible repeat' first
        | assumption | apply hm | apply Trg.LawfulOver.verify | apply Trg.LawfulOver.supplyData
        | (simp only [State.setStation_trg]) | split


@[simp] theorem Trg.LawfulOver.unload (h : s.trg.LawfulOver T) (n tool : Nat) {r : InstRec} (hr : Listable T tool r)
    (damaged : Bool) : (s.unload n tool r damaged).trg.LawfulOver T := by
  have hq : Listable T tool { r with owed := false } :=
    ⟨hr.1, InstRec.SameRules.lawful (r := r) ⟨rfl, le_rfl, rfl, rfl, rfl, rfl⟩ hr.2⟩
  have hu : ∀ u : State, u.trg.LawfulOver T → (u.transition tool { r with owed := false }
      { cause := .unloaded, custody := .returning, loc := .backStation n }
      (fun i => { i with last := some ⟨n, i.generation⟩, owed := false })).trg.LawfulOver T :=
    fun u h => h.transition hq (by simp) fun _ => ⟨rfl, le_rfl, rfl, rfl, rfl, rfl⟩
  unfold State.unload
  dsimp only
  with_reducible repeat' first
    | assumption | apply hu | apply Trg.LawfulOver.spentAtLimit | apply Trg.LawfulOver.leftIssued | apply Trg.LawfulOver.cancelAt
    | apply Trg.LawfulOver.setOwed
    | (simp only [State.tryPutaway_trg, State.loseRequest_trg, State.dropMagazine_trg, State.setIsc_trg]) | split

@[simp] theorem Trg.LawfulOver.unloaded (h : s.trg.LawfulOver T) (n tool place : Nat) (damaged : Bool) :
    (s.unloaded n tool place damaged).1.trg.LawfulOver T := by
  unfold State.unloaded
  split
  · exact h
  · split
    · exact h
    next r hr =>
      have hu := h.unload n tool (h.tool hr) damaged
      with_reducible repeat' first | assumption | split

@[simp] theorem Trg.LawfulOver.stored (h : s.trg.LawfulOver T) (n tool place generation : Nat) :
    (s.stored n tool place generation).1.trg.LawfulOver T := by
  unfold State.stored
  dsimp only
  with_reducible repeat' first
    | assumption | apply Trg.LawfulOver.endTxn | apply Trg.LawfulOver.verify | (simp only [State.confirmEntry_trg]) | split

@[simp] theorem Trg.LawfulOver.refusedData (h : s.trg.LawfulOver T) (n tool place : Nat) (code : RefusedCode) :
    (s.refusedData n tool place code).1.trg.LawfulOver T := by
  unfold State.refusedData
  dsimp only
  with_reducible repeat' first
    | assumption | apply Trg.LawfulOver.endTxn | apply Trg.LawfulOver.returnTxn
    | (simp only [State.startTxn_trg, State.putTxn_trg]) | split

@[simp] theorem Trg.LawfulOver.holdAck (h : s.trg.LawfulOver T) (n type : Nat) : (s.holdAck n type).1.trg.LawfulOver T := by
  unfold State.holdAck
  with_reducible repeat' first | assumption | apply Trg.LawfulOver.endTxn | split

@[simp] theorem Trg.LawfulOver.stationEffect (h : s.trg.LawfulOver T) (n : Nat) (m : StationMsg) :
    (s.stationEffect n m).1.trg.LawfulOver T := by
  unfold State.stationEffect
  dsimp only
  split
  · exact h
  · split <;> simp [h]

@[simp] theorem Trg.LawfulOver.stationMessage (h : s.trg.LawfulOver T) (n message : Nat) (body : List Byte) :
    (s.stationMessage n message body).trg.LawfulOver T := by
  unfold State.stationMessage
  split <;> simp [h]

end Sys2Proof.Machine

/-! The record rules of TRG (R1, R8, R9) through the lines, the heads and the commands, and so through every step. -/

namespace Sys2Proof.Machine

variable {s : State} {T : Table TypeRec}

/-! ### The links -/

@[simp] theorem Trg.LawfulOver.changeLink (h : s.trg.LawfulOver T) (n : Nat) (after : LinkState) (cause : LinkCause)
    (f : Link → Link) : (s.changeLink n after cause f).trg.LawfulOver T := by
  unfold State.changeLink
  dsimp only
  with_reducible repeat' first
    | assumption | apply Trg.LawfulOver.linkStopped
    | (simp only [State.linkStarted_trg, State.report_trg, State.setLink_trg]) | split

@[simp] theorem Trg.LawfulOver.toSearching (h : s.trg.LawfulOver T) (n : Nat) (cause : LinkCause) :
    (s.toSearching n cause).trg.LawfulOver T := h.changeLink n _ _ _

@[simp] theorem Trg.LawfulOver.toEcho (h : s.trg.LawfulOver T) (n : Nat) (cause : LinkCause) :
    (s.toEcho n cause).trg.LawfulOver T := h.changeLink n _ _ _

@[simp] theorem Trg.LawfulOver.fireLinkSilence (h : s.trg.LawfulOver T) (n : Nat) : (s.fireLinkSilence n).trg.LawfulOver T := by
  unfold State.fireLinkSilence
  split <;> simp [h]

@[simp] theorem Trg.LawfulOver.fireAcquire (h : s.trg.LawfulOver T) (n : Nat) : (s.fireAcquire n).trg.LawfulOver T := by
  unfold State.fireAcquire
  split
  · split <;> simp [h]
  · exact h

@[simp] theorem Trg.LawfulOver.densityTest (h : s.trg.LawfulOver T) (n : Nat) : (s.densityTest n).trg.LawfulOver T := by
  unfold State.densityTest
  split <;> simp [h]

@[simp] theorem Trg.LawfulOver.failEntry (h : s.trg.LawfulOver T) (n : Nat) (e : Outstanding) :
    (s.failEntry n e).trg.LawfulOver T := by
  unfold State.failEntry
  dsimp only
  with_reducible repeat' first
    | assumption | apply Trg.LawfulOver.sendFailed | (simp only [State.modLink_trg]) | split

@[simp] theorem Trg.LawfulOver.confirmEntry' (h : s.trg.LawfulOver T) (n : Nat) (e : Outstanding) :
    (s.confirmEntry' n e).trg.LawfulOver T := by
  unfold State.confirmEntry'
  dsimp only
  with_reducible repeat' first
    | assumption | apply Trg.LawfulOver.delivered | (simp only [State.modLink_trg]) | split

@[simp] theorem Trg.LawfulOver.settleVerdict (h : s.trg.LawfulOver T) (n position : Nat) (good : Bool) :
    (s.settleVerdict n position good).trg.LawfulOver T := by
  unfold State.settleVerdict
  split
  · split <;> simp [h]
  · exact h

@[simp] theorem Trg.LawfulOver.takeData (h : s.trg.LawfulOver T) (n : Nat) (b : List Byte) : (s.takeData n b).trg.LawfulOver T := by
  unfold State.takeData
  dsimp only
  with_reducible repeat' first
    | assumption | apply Trg.LawfulOver.stationMessage | (simp only [State.setLink_trg]) | split

@[simp] theorem Trg.LawfulOver.takeChecked (h : s.trg.LawfulOver T) (n : Nat) (b : List Byte) :
    (s.takeChecked n b).trg.LawfulOver T := by
  unfold State.takeChecked
  dsimp only
  with_reducible repeat' first
    | assumption | apply Trg.LawfulOver.takeData | apply Trg.LawfulOver.settleVerdict | split

@[simp] theorem Trg.LawfulOver.judgeEcho (h : s.trg.LawfulOver T) (n : Nat) (b : List Byte) :
    (s.judgeEcho n b).1.trg.LawfulOver T := by
  unfold State.judgeEcho
  repeat' split
  all_goals simp [h]

@[simp] theorem Trg.LawfulOver.takeEcho (h : s.trg.LawfulOver T) (n : Nat) (b : List Byte) : (s.takeEcho n b).trg.LawfulOver T := by
  unfold State.takeEcho
  dsimp only
  with_reducible repeat' first
    | assumption | apply Trg.LawfulOver.densityTest | apply Trg.LawfulOver.judgeEcho | apply Trg.LawfulOver.takeData
    | (simp only [State.modLink_trg]) | split

@[simp] theorem Trg.LawfulOver.brokenBlock (h : s.trg.LawfulOver T) (n position : Nat) (b : List Byte) :
    (s.brokenBlock n position b).trg.LawfulOver T := by
  unfold State.brokenBlock
  dsimp only
  with_reducible repeat' first
    | assumption | apply Trg.LawfulOver.densityTest | apply Trg.LawfulOver.toSearching | (simp only [State.modLink_trg]) | split

@[simp] theorem Trg.LawfulOver.goodBlock (h : s.trg.LawfulOver T) (n : Nat) (b : List Byte) :
    (s.goodBlock n b).trg.LawfulOver T := by
  unfold State.goodBlock
  dsimp only
  with_reducible repeat' first
    | assumption | apply Trg.LawfulOver.changeLink | apply Trg.LawfulOver.takeChecked | apply Trg.LawfulOver.densityTest
    | (simp only [State.setLink_trg]) | split

@[simp] theorem Trg.LawfulOver.takeBlock (h : s.trg.LawfulOver T) (n : Nat) (b : List Byte) :
    (s.takeBlock n b).trg.LawfulOver T := by
  unfold State.takeBlock
  dsimp only
  with_reducible repeat' first
    | assumption | apply Trg.LawfulOver.takeEcho | apply Trg.LawfulOver.goodBlock | apply Trg.LawfulOver.brokenBlock
    | apply Trg.LawfulOver.fireAcquire | (simp only [State.modLink_trg, State.setLink_trg]) | split

@[simp] theorem Trg.LawfulOver.align (h : s.trg.LawfulOver T) (n : Nat) : (s.align n).trg.LawfulOver T := by
  unfold State.align
  dsimp only
  with_reducible repeat' first
    | assumption | apply Trg.LawfulOver.takeEcho | apply Trg.LawfulOver.changeLink | (simp only [State.setLink_trg]) | split

@[simp] theorem Trg.LawfulOver.pump (h : s.trg.LawfulOver T) (n turns : Nat) : (s.pump n turns).trg.LawfulOver T := by
  induction turns generalizing s with
  | zero => exact h
  | succ k ih =>
    unfold State.pump
    dsimp only
    with_reducible repeat' first
      | assumption | apply ih | apply Trg.LawfulOver.align | apply Trg.LawfulOver.takeBlock
      | (simp only [State.modLink_trg, State.setLink_trg]) | split

@[simp] theorem Trg.LawfulOver.linkBytes (h : s.trg.LawfulOver T) (n : Nat) (bytes : List Byte) :
    (s.linkBytes n bytes).trg.LawfulOver T := by
  unfold State.linkBytes
  dsimp only
  with_reducible repeat' first
    | assumption | apply Trg.LawfulOver.pump | apply Trg.LawfulOver.changeLink | (simp only [State.modLink_trg]) | split

@[simp] theorem Trg.LawfulOver.fireOutstanding (h : s.trg.LawfulOver T) (n : Nat) : (s.fireOutstanding n).trg.LawfulOver T :=
  Trg.LawfulOver.foldl (fun _ e hu => hu.failEntry n e) _ h

@[simp] theorem Trg.LawfulOver.firePeriod (h : s.trg.LawfulOver T) (n : Nat) : (s.firePeriod n).trg.LawfulOver T := by
  unfold State.firePeriod
  split <;> simp [h]

@[simp] theorem Trg.LawfulOver.setPolicy (h : s.trg.LawfulOver T) (n : Nat) (p : Policy) : (s.setPolicy n p).trg.LawfulOver T := by
  unfold State.setPolicy
  dsimp only
  with_reducible repeat' first
    | assumption | apply Trg.LawfulOver.toEcho | (simp only [State.modLink_trg]) | split

@[simp] theorem Trg.LawfulOver.linkRestart (h : s.trg.LawfulOver T) (n : Nat) : (s.linkRestart n).1.trg.LawfulOver T := by
  unfold State.linkRestart
  split <;> simp [h]

/-! ### The heads -/

theorem Trg.LawfulOver.closeMeasure (h : s.trg.LawfulOver T) (k : HeadId) (x : Session) (n : Nat) (cause : CloseCause)
    (acted : Option Verdict) {m : Move} (hq : m.custody = .quarantine → m.qcause.isSome = true) {also : InstRec → InstRec}
    (ha : ∀ i : InstRec, i.SameRules (also i)) : (s.closeMeasure k x n cause acted m also).trg.LawfulOver T := by
  unfold State.closeMeasure
  split
  · simpa using h
  next r hr =>
    apply Trg.LawfulOver.announce
    simp only [State.settleMarks_trg, State.idleSession_trg, State.report_trg]
    exact h.transition (h.tool hr) hq ha

theorem noVerdictMove_custody (s : State) (n : Nat) (entry : Custody) (entryCause : Option QCause) :
    (s.noVerdictMove n entry entryCause).custody ≠ .quarantine := by
  unfold State.noVerdictMove
  dsimp only
  split_ifs <;> simp

@[simp] theorem Trg.LawfulOver.abandonSession (h : s.trg.LawfulOver T) (k : HeadId) (cause : CloseCause) :
    (s.abandonSession k cause).trg.LawfulOver T := by
  unfold State.abandonSession
  split
  · exact h
  · split
    · exact h.closeMeasure k _ _ _ _ (fun hc => absurd hc (noVerdictMove_custody _ _ _ _)) fun _ => ⟨rfl, le_rfl, rfl, rfl, rfl, rfl⟩
    · simpa using h

/-- R89 to R91: MEASURE_END sends an instance into QUARANTINE with a cause, and changes no field that a record rule reads. -/
theorem endMove_rules (s : State) (k : HeadId) (x : Session) (n : Nat) (entry : Custody) (entryCause : Option QCause) :
    ((s.endMove k x n entry entryCause).1.custody = .quarantine → (s.endMove k x n entry entryCause).1.qcause.isSome = true) ∧
    ∀ i : InstRec, i.SameRules ((s.endMove k x n entry entryCause).2 i) := by
  unfold State.endMove
  split
  · dsimp only
    refine ⟨?_, fun i => ⟨rfl, le_rfl, rfl, rfl, rfl, rfl⟩⟩
    split <;> simp
  · exact ⟨fun _ => rfl, fun i => ⟨rfl, le_rfl, rfl, rfl, rfl, rfl⟩⟩
  · exact ⟨fun hc => absurd hc (noVerdictMove_custody _ _ _ _), fun i => ⟨rfl, le_rfl, rfl, rfl, rfl, rfl⟩⟩

@[simp] theorem Trg.LawfulOver.testAvailable (h : s.trg.LawfulOver T) (k : HeadId) (before : Bool) :
    (s.testAvailable k before).trg.LawfulOver T := by
  unfold State.testAvailable
  dsimp only
  with_reducible repeat' first
    | assumption | apply Trg.LawfulOver.abandonSession | (simp only [State.report_trg]) | split

@[simp] theorem Trg.LawfulOver.takeStatus (h : s.trg.LawfulOver T) (k : HeadId) (ready : Bool) (temp : Int) :
    (s.takeStatus k ready temp).trg.LawfulOver T := by
  unfold State.takeStatus
  dsimp only
  with_reducible repeat' first
    | assumption | apply Trg.LawfulOver.testAvailable
    | (simp only [State.setScaleTemp_trg, State.sendSession_trg, State.setHead_trg]) | split

@[simp] theorem Trg.LawfulOver.fireSilence (h : s.trg.LawfulOver T) (k : HeadId) : (s.fireSilence k).trg.LawfulOver T := by
  unfold State.fireSilence
  dsimp only
  with_reducible repeat' first
    | assumption | apply Trg.LawfulOver.testAvailable | (simp only [State.setHead_trg]) | split

theorem Trg.LawfulOver.headPayload (h : s.trg.LawfulOver T) {k : HeadId} {p : List Byte} {t : State}
    (ht : s.headPayload k p = some t) : t.trg.LawfulOver T := by
  unfold State.headPayload at ht
  split at ht
  · split at ht <;> cases ht
    simpa using h
  · split at ht <;> cases ht <;> simp [h]
  · cases ht

@[simp] theorem Trg.LawfulOver.headPump (h : s.trg.LawfulOver T) (k : HeadId) (turns : Nat) :
    (s.headPump k turns).trg.LawfulOver T := by
  induction turns generalizing s with
  | zero => exact h
  | succ m ih =>
    have hs : ∀ r, (s.setHead k r).trg.LawfulOver T := by simp [h]
    unfold State.headPump
    dsimp only
    split
    · exact h
    · exact ih (hs _)
    · exact ih (hs _)
    · split
      next t ht => exact ih ((hs _).headPayload ht)
      next => exact ih (hs _)

@[simp] theorem Trg.LawfulOver.headBytes (h : s.trg.LawfulOver T) (k : HeadId) (bs : List Byte) :
    (s.headBytes k bs).trg.LawfulOver T := by
  unfold State.headBytes
  split
  · exact h
  · apply Trg.LawfulOver.headPump
    simpa using h

@[simp] theorem Trg.LawfulOver.headFailed (h : s.trg.LawfulOver T) (k : HeadId) (frame : List Byte) :
    (s.headFailed k frame).trg.LawfulOver T := by
  apply Trg.LawfulOver.headPump
  simpa using h

@[simp] theorem Trg.LawfulOver.setCurve (h : s.trg.LawfulOver T) (head axis : Nat) (values : List Int) :
    (s.setCurve head axis values).1.trg.LawfulOver T := by
  unfold State.setCurve State.loadCurve
  dsimp only
  with_reducible repeat' first
    | assumption | apply Trg.LawfulOver.testAvailable | (simp only [State.removeZero_trg, State.setHead_trg]) | split

theorem Trg.LawfulOver.beginMeasure (h : s.trg.LawfulOver T) (k : HeadId) {n : Nat} {r : InstRec} (hr : s.tool n = some r) :
    (s.beginMeasure k n r).trg.LawfulOver T := by
  unfold State.beginMeasure
  simp only [State.openSession_trg, State.clearLatePicksOf_trg, State.leavePutaway_trg, State.departPocket_trg]
  exact Trg.LawfulOver.move (by simpa using h) (h.tool hr) (by simp)

/-! ### The commands -/

/-- R21: a command on one instance runs on a record that TRG lists. -/
theorem Trg.LawfulOver.withTool (h : s.trg.LawfulOver T) {n : Nat} {f : State → InstRec → State × Reply}
    (hf : ∀ r, s.tool n = some r → (f s r).1.trg.LawfulOver T) : (withTool n f s).1.trg.LawfulOver T := by
  unfold Machine.withTool
  split
  · exact h
  · split
    · exact h
    next r hr => exact hf r hr

theorem Trg.LawfulOver.whenRunning (h : s.trg.LawfulOver T) {f : State → State × Reply} (hf : (f s).1.trg.LawfulOver T) :
    (whenRunning f s).1.trg.LawfulOver T := by
  unfold Machine.whenRunning
  split
  · exact hf
  · exact h

theorem Trg.LawfulOver.withRequest (h : s.trg.LawfulOver T) {n : Nat} {f : State → Request → State × Reply}
    (hf : ∀ r, (f s r).1.trg.LawfulOver T) : (withRequest n f s).1.trg.LawfulOver T := by
  unfold Machine.withRequest
  split
  · exact h
  · split
    · exact h
    · exact hf _

@[simp] theorem Trg.LawfulOver.register (h : s.trg.LawfulOver T) (n type : Nat) (marks life : Option Nat) :
    (s.register n type marks life).1.trg.LawfulOver T := by
  unfold State.register
  extract_lets lifeOk
  by_cases hrange : (toolNo n && typeNo type && decide (marks.getD 0 ≤ 4) && lifeOk) = false
  · rw [if_pos hrange]
    exact h
  rw [if_neg hrange]
  cases ht : s.type type with
  | none => exact h
  | some t =>
    dsimp only
    split_ifs with _ hmarks hlife
    · exact h
    · exact h
    · exact h
    · have hn : toolNo n = true := by simp_all
      have hl : life.getD t.budget ≤ t.budget := by cases life <;> simp_all
      apply Trg.LawfulOver.announce
      rw [State.report_trg]
      exact h.setTool ⟨hn, ⟨t, h.1 ▸ ht, hl, Nat.not_lt.1 hmarks⟩, by simp [newInstance], by simp [newInstance]⟩

/-- R14: a record that LOAD_INSTANCE accepts is lawful. -/
theorem InstRec.lawful_of_loadRefusal {n : Nat} {r : InstRec} (h : s.loadRefusal n r = none) : r.Lawful s.trg.types := by
  unfold State.loadRefusal at h
  split at h
  · cases h
  next t ht =>
    split_ifs at h with _ _ _ hlife hmarks _ _ hq _ hlink
    refine ⟨⟨t, ht, Nat.not_lt.1 hlife, Nat.not_lt.1 hmarks⟩, ?_, fun hl => absurd hl hlink⟩
    simp only [ne_eq, Decidable.not_not] at hq
    rw [hq, beq_iff_eq]

theorem Trg.LawfulOver.takeUp (h : s.trg.LawfulOver T) {n : Nat} {r : InstRec} (hr : Listable T n r) :
    (s.takeUp n r).trg.LawfulOver T := by
  unfold State.takeUp
  split
  · exact h.setTool hr
  · exact h.setTool hr
  · exact h.setTool ⟨hr.1, InstRec.SameRules.lawful (r := r) ⟨rfl, le_rfl, rfl, rfl, rfl, rfl⟩ hr.2⟩
  · exact h.setTool hr

@[simp] theorem Trg.LawfulOver.quarantineTool (h : s.trg.LawfulOver T) (n : Nat) (r : InstRec) :
    (s.quarantineTool n r).1.trg.LawfulOver T := by
  have bar : ∀ (u : State), u.trg.LawfulOver T → ∀ l, (match u.tool n with
      | some i => u.move n i { cause := .quarantineTool, custody := .quarantine, loc := l, qcause := some .host }
      | none => u).trg.LawfulOver T := by
    intro u hu l
    split
    next i hi => exact hu.move (hu.tool hi) fun _ => rfl
    next => exact hu
  unfold State.quarantineTool
  dsimp only
  split
  · exact (bar _ (h.releaseToQueue n false) _).afterRelease n
  · exact (bar _ h _).announce n
  · exact (bar _ h _).announce n
  · exact (bar _ h _).announce n
  · exact (bar _ h _).announce n
  · exact h

theorem Trg.LawfulOver.clearQuarantine (h : s.trg.LawfulOver T) {n : Nat} {r : InstRec} (hr : s.tool n = some r) :
    (s.clearQuarantine n r).1.trg.LawfulOver T := by
  unfold State.clearQuarantine
  split
  · exact h
  · split
    · exact h
    · exact (h.move (h.tool hr) (by simp)).announce n

@[simp] theorem Trg.LawfulOver.retire (h : s.trg.LawfulOver T) (n : Nat) (r : InstRec) : (s.retire n r).trg.LawfulOver T := by
  unfold State.retire
  extract_lets reserved u w atStation
  have hu : u.trg.LawfulOver T := by simp only [u]; split <;> simp [h]
  have hw : w.trg.LawfulOver T := by simp only [w]; split <;> simp [hu]
  cases hi : w.tool n with
  | none => exact hw
  | some i =>
    have ht : (w.transition n i { cause := .retire, custody := .retired, loc := .nowhere }
        (fun i => if atStation then { i with owed := false } else i)).trg.LawfulOver T :=
      hw.transition (hw.tool hi) (by simp) fun j => by split <;> exact ⟨rfl, le_rfl, rfl, rfl, rfl, rfl⟩
    dsimp only
    with_reducible repeat' first
      | assumption | apply Trg.LawfulOver.allocationPass | apply Trg.LawfulOver.afterRetired
      | (simp only [State.clearLatePicksOf_trg, State.loseRequest_trg, State.dropPocket_trg]) | split

@[simp] theorem Trg.LawfulOver.deleteTool (h : s.trg.LawfulOver T) (n : Nat) (r : InstRec) :
    (s.deleteTool n r).trg.LawfulOver T :=
  Trg.LawfulOver.afterRetired (s := ((s.delTool n).report _).clearLatePicksOf n) (h.delTool n) n

theorem Trg.LawfulOver.regrindOut (h : s.trg.LawfulOver T) {n : Nat} {r : InstRec} (hr : s.tool n = some r) :
    (s.regrindOut n r).1.trg.LawfulOver T := by
  unfold State.regrindOut
  split_ifs
  · exact h
  · exact h
  · simp only [State.leavePutaway_trg, State.departPocket_trg]
    exact h.move (h.tool hr) (by simp)

/-- R129: the record that comes back has the full budget and one more mark, which the limit allows. -/
theorem Listable.reground {n : Nat} {r : InstRec} (h : Listable s.trg.types n r) (hl : s.atLimit r = false) :
    Listable s.trg.types n (r.reground (((s.type r.type).map (·.budget)).getD r.life)) := by
  obtain ⟨hn, ⟨t, ht, hlife, hmarks⟩, hq, hk⟩ := h
  have ht' : s.type r.type = some t := ht
  simp only [State.atLimit, ht', decide_eq_false_iff_not] at hl
  exact ⟨hn, ⟨t, ht, by simp [InstRec.reground, ht'], Nat.lt_of_not_le hl⟩, hq, hk⟩

theorem Trg.LawfulOver.regrindBack (h : s.trg.LawfulOver T) {n : Nat} {r : InstRec} (hr : s.tool n = some r) :
    (s.regrindBack n r).1.trg.LawfulOver T := by
  unfold State.regrindBack
  split_ifs with _ hl
  · exact h
  · exact h
  · obtain ⟨rfl, hg⟩ := h
    have hn := (Trg.LawfulOver.tool ⟨rfl, hg⟩ hr).reground (Bool.not_eq_true _ ▸ hl)
    rw [State.settleMarks_trg]
    exact (Trg.LawfulOver.move (s := s) ⟨rfl, hg⟩ hn (by simp)).announce n

theorem Trg.LawfulOver.identify (h : s.trg.LawfulOver T) {n : Nat} {r : InstRec} (hr : s.tool n = some r) (c p : Nat) :
    (s.identify n r c p).trg.LawfulOver T := by
  have hn := h.tool hr
  have hq : (s.identifiedAs n r).1 = .quarantine → (s.identifiedAs n r).2.isSome = true := by
    unfold State.identifiedAs
    split
    · exact fun _ => rfl
    · exact placement_cause (r := { r with custody := .returning })
        (by simpa [‹r.custody = .issued›] using hn.2.2.1) _ _ _
    · exact placement_cause hn.2.2.1 _ _ _
  have hm : ((s.leavePutaway n).move n r
      { cause := .identify, custody := (s.identifiedAs n r).1, loc := .pocket c p, qcause := (s.identifiedAs n r).2 }).trg.LawfulOver
      T := Trg.LawfulOver.move (by simpa using h) hn hq
  unfold State.identify
  dsimp only
  with_reducible repeat' first
    | assumption | apply Trg.LawfulOver.announce | apply Trg.LawfulOver.leftIssued
    | (simp only [State.loseRequest_trg, State.setPocket_trg]) | split

@[simp] theorem Trg.LawfulOver.issue (h : s.trg.LawfulOver T) (q : NewRequest) : (s.issue q).1.trg.LawfulOver T := by
  have he := h.enter q
  unfold State.issue
  split
  · exact h
  · split
    · exact h.merge _ _
    · split <;> rename_i hs <;> rw [hs] at he <;> exact he

theorem Trg.LawfulOver.handOut (h : s.trg.LawfulOver T) (r : Request) : (s.handOut r).1.trg.LawfulOver T := by
  unfold State.handOut
  split
  · split
    · exact h
    next i hi =>
      split
      · dsimp only
        apply Trg.LawfulOver.afterPick
        rw [State.changeRequest_trg]
        exact h.move (h.tool hi) (by simp)
      · exact h
  · exact h

theorem Trg.LawfulOver.benchReturn (h : s.trg.LawfulOver T) {n : Nat} {r : InstRec} (hr : s.tool n = some r) :
    (s.benchReturn n r).1.trg.LawfulOver T := by
  unfold State.benchReturn
  split
  · apply Trg.LawfulOver.announce
    rw [State.loseRequest_trg]
    exact (h.move (h.tool hr) (by simp)).leftIssued n
  · exact h

@[simp] theorem Trg.LawfulOver.setIssue (h : s.trg.LawfulOver T) (pick grace putaway : Option Nat) :
    (s.setIssue pick grace putaway).1.trg.LawfulOver T := by
  unfold State.setIssue
  dsimp only
  with_reducible repeat' first
    | assumption | apply Trg.LawfulOver.fireTimings | (simp only [State.setIsc_trg]) | split

theorem Trg.LawfulOver.measureBegin (h : s.trg.LawfulOver T) (head n : Nat) : (s.measureBegin head n).1.trg.LawfulOver T := by
  unfold State.measureBegin
  split
  · exact h
  · refine h.withTool fun r hr => ?_
    split_ifs
    · exact h
    · exact h
    · exact h
    · exact h.beginMeasure _ hr
    · exact h

theorem Trg.LawfulOver.measureEnd (h : s.trg.LawfulOver T) (head : Nat) : (s.measureEnd head).1.trg.LawfulOver T := by
  unfold State.measureEnd
  split
  · exact h
  · split
    · exact h
    · split
      · exact h
      · exact h.closeMeasure _ _ _ _ _ (endMove_rules _ _ _ _ _ _).1 (endMove_rules _ _ _ _ _ _).2

theorem Trg.LawfulOver.measureAbort (h : s.trg.LawfulOver T) (head : Nat) : (s.measureAbort head).1.trg.LawfulOver T := by
  unfold State.measureAbort
  split
  · exact h
  · split <;> simp [h]

@[simp] theorem Trg.LawfulOver.sendData (h : s.trg.LawfulOver T) (n : Nat) (r : InstRec) :
    (s.sendData n r).1.trg.LawfulOver T := by
  unfold State.sendData
  split
  · exact h
  · split_ifs <;> simp [h]

/-! ### Holding and releasing a type -/

@[simp] theorem Trg.LawfulOver.holdTool (h : s.trg.LawfulOver T) (n : Nat) : (s.holdTool n).trg.LawfulOver T := by
  unfold State.holdTool
  split
  next r hr =>
    rw [State.tryPutaway_trg]
    exact h.move (h.tool hr) fun _ => rfl
  next => exact h

@[simp] theorem Trg.LawfulOver.holdReserved (h : s.trg.LawfulOver T) (n : Nat) : (s.holdReserved n).trg.LawfulOver T := by
  unfold State.holdReserved
  apply Trg.LawfulOver.holdTool
  split
  · rw [State.enterWaiting_trg]
    exact h.releaseTool n false
  · exact h.releaseTool n false

@[simp] theorem Trg.LawfulOver.releaseHeld (h : s.trg.LawfulOver T) (n : Nat) : (s.releaseHeld n).trg.LawfulOver T := by
  unfold State.releaseHeld
  split
  next r hr =>
    refine h.move (h.tool hr) ?_
    unfold InstRec.releasedAs
    dsimp only
    repeat' split
    all_goals simp
  next => exact h

@[simp] theorem Trg.LawfulOver.supplyIssued (h : s.trg.LawfulOver T) (n : Nat) : (s.supplyIssued n).trg.LawfulOver T := by
  unfold State.supplyIssued
  dsimp only
  have hv := h.verify n
  with_reducible repeat' first | assumption | apply Trg.LawfulOver.supplyData | split

@[simp] theorem Trg.LawfulOver.supplyLoaded (h : s.trg.LawfulOver T) (n : Nat) : (s.supplyLoaded n).trg.LawfulOver T := by
  unfold State.supplyLoaded
  with_reducible repeat' first | assumption | apply Trg.LawfulOver.supplyData | split

end Sys2Proof.Machine

/-! O59: TRG's tables and records at every step. The commands that write the type table, START, and one lemma over all commands. -/

namespace Sys2Proof.Machine

variable {s : State} {T : Table TypeRec}

/-! ### The type table -/

theorem Trg.Lawful.over {g : Trg} (h : g.Lawful) : g.LawfulOver g.types := ⟨rfl, h⟩

/-- A type may be written where the records that name it fit its budget and limit. -/
theorem Trg.Lawful.setType (h : s.trg.Lawful) {n : Nat} {t : TypeRec} (hn : typeNo n = true) (ht : t.inRange = true)
    (hfit : ∀ e ∈ s.trg.insts, e.2.type = n → e.2.life ≤ t.budget ∧ e.2.marks ≤ t.regrindLimit) :
    (s.setType n t).trg.Lawful := by
  obtain ⟨hs, hi, htypes, hinsts⟩ := h
  refine ⟨tableSorted_tset n t hs, hi, fun e he => ?_, fun e he => ?_⟩
  · rcases mem_tset he with rfl | he
    · exact ⟨hn, ht⟩
    · exact htypes e he
  · obtain ⟨hk, ⟨u, hu, hlife, hmarks⟩, hq, hl⟩ := hinsts e he
    refine ⟨hk, ?_, hq, hl⟩
    show ∃ t', tget (tset s.trg.types n t) e.2.type = some t' ∧ _
    rw [tget_tset]
    split
    next hen => exact ⟨t, rfl, hfit e he hen⟩
    next => exact ⟨u, hu, hlife, hmarks⟩

/-- R170, R171: the held flag changes no rule. -/
theorem Trg.Lawful.setHeld (h : s.trg.Lawful) {n : Nat} {t : TypeRec} (ht : s.type n = some t) (held : Bool) :
    (s.setHeld n t held).trg.Lawful := by
  obtain ⟨hn, hr⟩ := h.2.2.1 _ (mem_of_tget ht)
  refine h.setType hn hr fun e he hen => ?_
  obtain ⟨-, ⟨u, hu, hlife, hmarks⟩, -⟩ := h.2.2.2 e he
  rw [hen] at hu
  obtain rfl : t = u := Option.some.inj (ht.symm.trans hu)
  exact ⟨hlife, hmarks⟩

/-- R6: a type may go that no record names. -/
theorem Trg.Lawful.delType (h : s.trg.Lawful) {n : Nat} (hu : s.typeUsed n = false) : (s.delType n).trg.Lawful := by
  obtain ⟨hs, hi, htypes, hinsts⟩ := h
  refine ⟨tableSorted_tdel n hs, hi, fun e he => htypes e (mem_tdel he), fun e he => ?_⟩
  obtain ⟨hk, ⟨u, hu', hfit⟩, hq, hl⟩ := hinsts e he
  have hne : e.2.type ≠ n := by
    have := List.any_eq_false.1 hu e he
    simpa using this
  exact ⟨hk, ⟨u, by simpa [State.delType, tget_tdel, hne] using hu', hfit⟩, hq, hl⟩

/-! ### LOAD_TYPE on a present slot -/

/-- R5: a record of the type with its life clamped to the budget. -/
def InstRec.clamped (type budget : Nat) (r : InstRec) : InstRec :=
  if r.type = type then { r with life := min r.life budget } else r

theorem InstRec.clamped_of_not {type budget : Nat} {r : InstRec} (h : ¬ (r.type = type ∧ budget < r.life)) :
    r.clamped type budget = r := by
  unfold InstRec.clamped
  split
  next ht =>
    have : r.life ≤ budget := Nat.not_lt.1 fun hl => h ⟨ht, hl⟩
    rw [Nat.min_eq_left this]
  next => rfl

theorem InstRec.clamped_of {type budget : Nat} {r : InstRec} (h : r.type = type ∧ budget < r.life) :
    r.clamped type budget = { r with life := budget } := by
  rw [InstRec.clamped, if_pos h.1, Nat.min_eq_right h.2.le]

theorem InstRec.clamped_clamped (type budget : Nat) (r : InstRec) :
    (r.clamped type budget).clamped type budget = r.clamped type budget := by
  unfold InstRec.clamped
  split <;> simp_all

/-- What CLAMP does to TRG: the instance's life where it is above the budget. -/
theorem State.clampLife_trg (s : State) (k type budget : Nat) :
    (s.clampLife k type budget).trg =
      match s.tool k with
      | some r => if r.type = type ∧ budget < r.life then (s.setTool k { r with life := budget }).trg else s.trg
      | none => s.trg := by
  unfold State.clampLife
  cases s.tool k with
  | none => rfl
  | some r =>
    dsimp only
    split
    · split <;> simp only [State.startTxn_trg, State.askUnblocked_trg]
    · rfl

theorem State.clampLife_types (s : State) (k type budget : Nat) : (s.clampLife k type budget).trg.types = s.trg.types := by
  rw [State.clampLife_trg]
  repeat' split
  all_goals rfl

theorem State.clampLife_sorted {s : State} (h : tableSorted s.trg.insts = true) (k type budget : Nat) :
    tableSorted (s.clampLife k type budget).trg.insts = true := by
  rw [State.clampLife_trg]
  repeat' split
  · exact tableSorted_tset _ _ h
  · exact h
  · exact h

theorem State.tool_of_trg {s t : State} (h : t.trg = s.trg) (m : Nat) : t.tool m = s.tool m := by
  unfold State.tool
  rw [h]

theorem State.clampLife_tool (s : State) (k type budget m : Nat) :
    (s.clampLife k type budget).tool m = if m = k then (s.tool m).map (·.clamped type budget) else s.tool m := by
  have ht := s.clampLife_trg k type budget
  by_cases hm : m = k
  · subst hm
    rw [if_pos rfl]
    cases hr : s.tool m with
    | none =>
      rw [hr] at ht
      rw [State.tool_of_trg ht, hr]
      rfl
    | some r =>
      rw [hr] at ht
      dsimp only at ht
      split at ht
      next h => rw [State.tool_of_trg ht, State.tool_setTool, if_pos rfl, Option.map_some, InstRec.clamped_of h]
      next h => rw [State.tool_of_trg ht, hr, Option.map_some, InstRec.clamped_of_not h]
  · rw [if_neg hm]
    repeat' split at ht
    · rw [State.tool_of_trg ht, State.tool_setTool, if_neg hm]
    · exact State.tool_of_trg ht m
    · exact State.tool_of_trg ht m

theorem State.clampAll_tool (ks : List Nat) (s : State) (type budget m : Nat) :
    (ks.foldl (fun s k => s.clampLife k type budget) s).tool m =
      if m ∈ ks then (s.tool m).map (·.clamped type budget) else s.tool m := by
  induction ks generalizing s with
  | nil => simp
  | cons k ks ih =>
    rw [List.foldl_cons, ih, State.clampLife_tool]
    by_cases hk : m = k <;> by_cases hm : m ∈ ks <;> simp [hk, hm, Function.comp_def, InstRec.clamped_clamped]

/-- R5: LOAD_TYPE clamps every instance of the type. -/
theorem State.clampAll_listed (s : State) (type budget m : Nat) :
    ((s.trg.insts.map (·.1)).foldl (fun s k => s.clampLife k type budget) s).tool m = (s.tool m).map (·.clamped type budget) := by
  rw [State.clampAll_tool]
  split
  · rfl
  next hm =>
    have hnone : s.tool m = none := by
      by_contra hs
      obtain ⟨r, hr⟩ := Option.ne_none_iff_exists'.1 hs
      exact hm (List.mem_map.2 ⟨_, mem_of_tget hr, rfl⟩)
    rw [hnone]
    rfl

theorem State.clampAll_types (ks : List Nat) (s : State) (type budget : Nat) :
    (ks.foldl (fun s k => s.clampLife k type budget) s).trg.types = s.trg.types := by
  induction ks generalizing s with
  | nil => rfl
  | cons k ks ih => rw [List.foldl_cons, ih, State.clampLife_types]

theorem State.clampAll_sorted (ks : List Nat) {s : State} (h : tableSorted s.trg.insts = true) (type budget : Nat) :
    tableSorted (ks.foldl (fun s k => s.clampLife k type budget) s).trg.insts = true := by
  induction ks generalizing s with
  | nil => exact h
  | cons k ks ih => exact ih (State.clampLife_sorted h k type budget)

/-- R2: held is not looked at. -/
theorem TypeRec.inRange_held (r : TypeRec) (held : Bool) : ({ r with held := held } : TypeRec).inRange = r.inRange := rfl

theorem Trg.Lawful.loadType (h : s.trg.Lawful) {n : Nat} {r : TypeRec} (hn : typeNo n = true) (hr : r.inRange = true) :
    (s.loadType n r).1.trg.Lawful := by
  unfold State.loadType
  split
  next hnone =>
    refine h.setType hn (by rwa [TypeRec.inRange_held]) fun e he hen => ?_
    obtain ⟨-, ⟨u, hu, -⟩, -⟩ := h.2.2.2 e he
    exact absurd (hen ▸ hu) (by rw [show tget s.trg.types n = none from hnone]; simp)
  next old hold =>
    split_ifs with _ hmarks
    · exact h
    · exact h
    · dsimp only
      set u := s.setType n { r with held := old.held } with hu
      have hsorted := State.clampAll_sorted (u.trg.insts.map (·.1)) (s := u) h.2.1 n r.budget
      obtain ⟨hs, hi, htypes, hinsts⟩ := h
      have hT := State.clampAll_types (u.trg.insts.map (·.1)) u n r.budget
      refine ⟨?_, hsorted, ?_, fun e he => ?_⟩
      · rw [hT]
        exact tableSorted_tset _ _ hs
      · rw [hT]
        intro e he
        rcases mem_tset he with rfl | he
        · exact ⟨hn, by rwa [TypeRec.inRange_held]⟩
        · exact htypes e he
      · have hget := State.clampAll_listed u n r.budget e.1
        have hmem := tget_of_mem hsorted he
        rw [State.tool, hmem] at hget
        obtain ⟨i, hi', hei⟩ := Option.map_eq_some_iff.1 hget.symm
        obtain ⟨hk, ⟨t, ht, hlife, hm⟩, hq, hl⟩ := hinsts _ (mem_of_tget hi')
        refine ⟨hk, ?_⟩
        rw [hT, ← hei]
        show InstRec.Lawful (tset s.trg.types n _) _
        unfold InstRec.clamped
        split
        next hin =>
          have hlimit : i.marks ≤ r.regrindLimit := by
            have := List.any_eq_false.1 (Bool.not_eq_true _ ▸ hmarks) _ (mem_of_tget hi')
            simpa [hin] using this
          refine ⟨⟨{ r with held := old.held }, ?_, Nat.min_le_right _ _, hlimit⟩, hq, hl⟩
          rw [tget_tset]
          exact if_pos hin
        next hin => exact ⟨⟨t, by rw [tget_tset, if_neg hin]; exact ht, hlife, hm⟩, hq, hl⟩

/-! ### Holds, releases and START -/

theorem Trg.Lawful.hold (h : s.trg.Lawful) {n : Nat} {t : TypeRec} (ht : s.type n = some t) (group : Nat) :
    (s.hold n t group).1.trg.Lawful := by
  unfold State.hold
  extract_lets a reserved b c tools d out
  have ha : a.trg.LawfulOver a.trg.types := (h.setHeld ht true).over
  have hb : b.trg.LawfulOver a.trg.types := Trg.LawfulOver.foldl (fun _ k hu => hu.holdReserved k) _ ha
  have hc : c.trg.LawfulOver a.trg.types := Trg.LawfulOver.foldl (fun _ k hu => hu.holdTool k) _ hb
  have hd : d.trg.LawfulOver a.trg.types := hc.cancelAll _
  have hout : out.1.trg.LawfulOver a.trg.types := by
    rw [State.createBroadcast_trg]
    exact hd
  dsimp only
  split
  · exact hout.2
  · exact hout.allocationPass.2

theorem Trg.Lawful.release (h : s.trg.Lawful) {n : Nat} {t : TypeRec} (ht : s.type n = some t) (group : Nat) :
    (s.release n t group).1.trg.Lawful := by
  unfold State.release
  extract_lets a held b c d out
  have ha : a.trg.LawfulOver a.trg.types := (h.setHeld ht false).over
  have hb : b.trg.LawfulOver a.trg.types := Trg.LawfulOver.foldl (fun _ k hu => hu.releaseHeld k) _ ha
  have hc : c.trg.LawfulOver a.trg.types := Trg.LawfulOver.foldl (fun _ k hu => hu.supplyIssued k) _ hb
  have hd : d.trg.LawfulOver a.trg.types := Trg.LawfulOver.foldl (fun _ k hu => hu.supplyLoaded k) _ hc
  have hout : out.1.trg.LawfulOver a.trg.types := by
    rw [State.createBroadcast_trg]
    exact hd
  refine (Trg.LawfulOver.foldl (fun u k hu => ?_) _ hout.allocationPass).2
  rw [State.tryPutaway_trg]
  exact hu

/-- The checks that TYPE_HOLD and TYPE_RELEASE share (R170, R171). -/
theorem Trg.Lawful.withType (h : s.trg.Lawful) {n group : Nat} {f : State → TypeRec → State × Reply}
    (hf : ∀ t, s.type n = some t → (f s t).1.trg.Lawful) : (withType n group f s).1.trg.Lawful := by
  unfold Machine.withType
  split
  · exact h
  · split
    · exact h
    next t ht => exact hf t ht

@[simp] theorem Trg.LawfulOver.blockedAtStart (h : s.trg.LawfulOver T) (n : Nat) : (s.blockedAtStart n).trg.LawfulOver T := by
  unfold State.blockedAtStart
  with_reducible repeat' first | assumption | apply Trg.LawfulOver.askBlocked | split

@[simp] theorem Trg.LawfulOver.begin (h : s.trg.LawfulOver T) : s.begin.trg.LawfulOver T := by
  unfold State.begin
  extract_lets v a b tools c d e
  have hb : b.trg.LawfulOver T := Trg.LawfulOver.foldl (fun u k hu => by rw [State.beginBoundaries_trg]; exact hu) _ h
  have hc : c.trg.LawfulOver T := Trg.LawfulOver.foldl (fun u k hu => by rw [State.tryPutaway_trg]; exact hu) _ hb
  have hd : d.trg.LawfulOver T := Trg.LawfulOver.foldl (fun _ k hu => hu.fillSpace k) _ hc
  have he : e.trg.LawfulOver T := Trg.LawfulOver.foldl (fun _ k hu => hu.blockedAtStart k) _ hd
  exact Trg.LawfulOver.foldl (fun u k hu => by rw [State.startTxn_trg]; exact hu) _ he

theorem Trg.lawful_reset : State.reset.trg.Lawful := by
  refine ⟨rfl, rfl, ?_, ?_⟩ <;> intro e he <;> cases he

theorem Trg.Lawful.frameSent (h : s.trg.Lawful) : s.frameSent.trg.Lawful := by
  unfold State.frameSent
  dsimp only
  split
  · exact h
  · split
    · split
      · exact h
      · split_ifs
        · exact h
        · exact Trg.lawful_reset
        · exact h
    · split <;> exact h
    · split
      · exact h
      · split <;> exact h

/-! ### Every command and event -/

theorem event_lawful {f : State → State} {t : State} (ht : event f s = .next t) (h : s.trg.Lawful)
    (hf : ∀ u : State, u.trg.Lawful → (f u).trg.Lawful) : t.trg.Lawful := by
  rw [event_next] at ht
  cases ht
  exact hf s.quiet h

theorem hostCommand_lawful {kind tag : Byte} {body : List Byte} {run : State → State × Reply} {t : State}
    (ht : hostCommand kind tag body run s = .next t) (h : s.trg.Lawful)
    (hf : ∀ u : State, u.trg.Lawful → (run u).1.trg.Lawful) : t.trg.Lawful := by
  refine event_lawful ht h fun u hu => ?_
  have hb : (u.bringIn ⟨kind, tag, body⟩).trg.Lawful := by rwa [State.bringIn_trg]
  dsimp only
  split
  · rw [State.setSvp_trg]
    split
    · exact hf _ hb
    · exact hb
  · exact hb

theorem readCommand_lawful {kind tag : Byte} {body : List Byte} {answer : State → Reply} {t : State}
    (ht : readCommand kind tag body answer s = .next t) (h : s.trg.Lawful) : t.trg.Lawful :=
  hostCommand_lawful ht h fun _ hu => hu

theorem stationEvent_lawful {n : Nat} {f : State → State} {t : State} (ht : stationEvent n f s = .next t) (h : s.trg.Lawful)
    (hf : ∀ u : State, u.trg.Lawful → (f u).trg.Lawful) : t.trg.Lawful := by
  unfold stationEvent at ht
  split at ht
  · exact event_lawful ht h hf
  · cases ht

theorem cabinetEvent_lawful {n : Nat} {f : State → State} {t : State} (ht : cabinetEvent n f s = .next t) (h : s.trg.Lawful)
    (hf : ∀ u : State, u.trg.Lawful → (f u).trg.Lawful) : t.trg.Lawful := by
  unfold cabinetEvent at ht
  split at ht
  · exact event_lawful ht h hf
  · cases ht

theorem pocketEvent_lawful {c p : Nat} {f : State → State} {t : State} (ht : pocketEvent c p f s = .next t) (h : s.trg.Lawful)
    (hf : ∀ u : State, u.trg.Lawful → (f u).trg.Lawful) : t.trg.Lawful := by
  unfold pocketEvent at ht
  split at ht
  · exact event_lawful ht h hf
  · cases ht

end Sys2Proof.Machine

/-! O59, command by command and at the step. -/

namespace Sys2Proof.Machine

variable {s : State} {T : Table TypeRec}

theorem Trg.LawfulOver.vacate (h : s.trg.LawfulOver T) (n : Nat) : (s.vacate n).trg.LawfulOver T := by
  unfold State.vacate
  dsimp only
  with_reducible repeat' first
    | assumption | (simp only [State.settleMarks_trg, State.dropPocket_trg, State.dropMagazine_trg]) | split

theorem State.setClock_trg (s : State) (tol revertive : Option Nat) : (s.setClock tol revertive).1.trg = s.trg := by
  unfold State.setClock
  dsimp only
  split
  · cases tol <;> cases revertive
    · rfl
    · exact ((State.RunsClock.refl s).setRevertive _).trg_eq
    · exact ((State.RunsClock.refl s).setTolerance _).trg_eq
    · exact (((State.RunsClock.refl s).setTolerance _).setRevertive _).trg_eq
  · rfl

theorem execUnknownKindFrame_lawful (kind tag : Byte) (body : List Byte) {t : State} (h : s.trg.Lawful)
    (ht : execUnknownKindFrame kind tag body s = .next t) : t.trg.Lawful := by
  unfold execUnknownKindFrame at ht
  refine event_lawful ht h fun u hu => ?_
  have hb : (u.bringIn ⟨kind, tag, body⟩).trg.Lawful := by rwa [State.bringIn_trg]
  dsimp only
  split <;> exact hb

theorem execResetEffect_lawful {t : State} (h : s.trg.Lawful)
    (ht : execResetEffect s = .next t) : t.trg.Lawful := by
  unfold execResetEffect at ht
  refine event_lawful ht h fun u hu => ?_
  split
  · exact hu.frameSent
  · exact hu

theorem execLoadType_lawful (tag : Byte) (body : List Byte) {t : State} (h : s.trg.Lawful)
    (ht : execLoadType tag body s = .next t) : t.trg.Lawful := by
  unfold execLoadType at ht
  refine hostCommand_lawful ht h fun u hu => ?_
  dsimp only
  split
  · exact hu
  · split
    next hok => exact hu.loadType (Bool.and_eq_true_iff.1 hok).1 (Bool.and_eq_true_iff.1 hok).2
    next => exact hu

theorem execDeleteType_lawful (tag : Byte) (body : List Byte) {t : State} (h : s.trg.Lawful)
    (ht : execDeleteType tag body s = .next t) : t.trg.Lawful := by
  unfold execDeleteType at ht
  refine hostCommand_lawful ht h fun u hu => ?_
  dsimp only
  split
  · exact hu
  · split
    · exact hu
    · split_ifs with _ hused
      · exact hu
      · exact hu
      · exact hu.delType (by simp_all)

theorem execRegister_lawful (tag : Byte) (body : List Byte) {t : State} (h : s.trg.Lawful)
    (ht : execRegister tag body s = .next t) : t.trg.Lawful := by
  unfold execRegister at ht
  refine hostCommand_lawful ht h fun u hu => ?_
  exact (hu.over.register _ _ _ _).2

theorem execLoadInstance_lawful (tag : Byte) (body : List Byte) {t : State} (h : s.trg.Lawful)
    (ht : execLoadInstance tag body s = .next t) : t.trg.Lawful := by
  unfold execLoadInstance at ht
  refine hostCommand_lawful ht h fun u hu => ?_
  dsimp only
  split
  · exact hu
  · split
    · exact hu
    next r _ =>
      split
      · exact hu
      next hrange =>
        split
        · exact hu
        next hok =>
          have hn : toolNo (fieldAt body 0 2) = true := by simp_all
          have hv := hu.over.vacate (fieldAt body 0 2)
          exact (hv.takeUp ⟨hn, InstRec.lawful_of_loadRefusal hok⟩).2

theorem execQuarantineTool_lawful (tag : Byte) (body : List Byte) {t : State} (h : s.trg.Lawful)
    (ht : execQuarantineTool tag body s = .next t) : t.trg.Lawful := by
  unfold execQuarantineTool at ht
  refine hostCommand_lawful ht h fun u hu => ?_
  exact (hu.over.withTool fun r _ => hu.over.quarantineTool _ r).2

theorem execClearQuarantine_lawful (tag : Byte) (body : List Byte) {t : State} (h : s.trg.Lawful)
    (ht : execClearQuarantine tag body s = .next t) : t.trg.Lawful := by
  unfold execClearQuarantine at ht
  refine hostCommand_lawful ht h fun u hu => ?_
  exact (hu.over.withTool fun r hr => hu.over.clearQuarantine hr).2

theorem execRetire_lawful (tag : Byte) (body : List Byte) {t : State} (h : s.trg.Lawful)
    (ht : execRetire tag body s = .next t) : t.trg.Lawful := by
  unfold execRetire at ht
  refine hostCommand_lawful ht h fun u hu => ?_
  refine (hu.over.withTool fun r _ => ?_).2
  split
  · exact hu.over
  · exact hu.over.retire _ r

theorem execDelete_lawful (tag : Byte) (body : List Byte) {t : State} (h : s.trg.Lawful)
    (ht : execDelete tag body s = .next t) : t.trg.Lawful := by
  unfold execDelete at ht
  refine hostCommand_lawful ht h fun u hu => ?_
  refine (hu.over.withTool fun r _ => ?_).2
  split
  · exact hu.over.deleteTool (fieldAt body 0 2) r
  · exact hu.over

theorem execReadInstance_lawful (tag : Byte) (body : List Byte) {t : State} (h : s.trg.Lawful)
    (ht : execReadInstance tag body s = .next t) : t.trg.Lawful := by
  unfold execReadInstance at ht
  refine hostCommand_lawful ht h fun u hu => ?_
  exact (hu.over.withTool fun _ _ => hu.over).2

theorem execSetCabinet_lawful (tag : Byte) (body : List Byte) {t : State} (h : s.trg.Lawful)
    (ht : execSetCabinet tag body s = .next t) : t.trg.Lawful := by
  unfold execSetCabinet at ht
  refine hostCommand_lawful ht h fun u hu => ?_
  split
  · exact (State.setCabinet_trg u _ _).symm ▸ hu
  · exact hu

theorem execSetPockets_lawful (tag : Byte) (body : List Byte) {t : State} (h : s.trg.Lawful)
    (ht : execSetPockets tag body s = .next t) : t.trg.Lawful := by
  unfold execSetPockets at ht
  refine hostCommand_lawful ht h fun u hu => ?_
  exact (State.setPockets_trg u _ _ _ _).symm ▸ hu

theorem execLearnEmpty_lawful (tag : Byte) (body : List Byte) {t : State} (h : s.trg.Lawful)
    (ht : execLearnEmpty tag body s = .next t) : t.trg.Lawful := by
  unfold execLearnEmpty at ht
  refine hostCommand_lawful ht h fun u hu => ?_
  exact (State.learnEmpty_trg u _ _).symm ▸ hu

theorem execScanOnce_lawful (tag : Byte) (body : List Byte) {t : State} (h : s.trg.Lawful)
    (ht : execScanOnce tag body s = .next t) : t.trg.Lawful := by
  unfold execScanOnce at ht
  refine hostCommand_lawful ht h fun u hu => ?_
  exact (State.scanOnce_trg u _).symm ▸ hu

theorem execIdentify_lawful (tag : Byte) (body : List Byte) {t : State} (h : s.trg.Lawful)
    (ht : execIdentify tag body s = .next t) : t.trg.Lawful := by
  unfold execIdentify at ht
  refine hostCommand_lawful ht h fun u hu => ?_
  refine (hu.over.whenRunning ?_).2
  dsimp only
  split
  · exact hu.over
  · split
    · exact hu.over
    next r hr =>
      split
      · exact hu.over.identify hr _ _
      · exact hu.over

theorem execIssue_lawful (tag : Byte) (body : List Byte) {t : State} (h : s.trg.Lawful)
    (ht : execIssue tag body s = .next t) : t.trg.Lawful := by
  unfold execIssue at ht
  refine hostCommand_lawful ht h fun u hu => ?_
  refine (hu.over.whenRunning ?_).2
  split
  · exact hu.over
  · exact hu.over.issue _

theorem execCancel_lawful (tag : Byte) (body : List Byte) {t : State} (h : s.trg.Lawful)
    (ht : execCancel tag body s = .next t) : t.trg.Lawful := by
  unfold execCancel at ht
  refine hostCommand_lawful ht h fun u hu => ?_
  refine (hu.over.whenRunning (hu.over.withRequest fun r => ?_)).2
  split
  · exact hu.over
  · exact hu.over.cancelRequest r _

theorem execHandOut_lawful (tag : Byte) (body : List Byte) {t : State} (h : s.trg.Lawful)
    (ht : execHandOut tag body s = .next t) : t.trg.Lawful := by
  unfold execHandOut at ht
  refine hostCommand_lawful ht h fun u hu => ?_
  exact (hu.over.whenRunning (hu.over.withRequest fun r => hu.over.handOut r)).2

theorem execBenchReturn_lawful (tag : Byte) (body : List Byte) {t : State} (h : s.trg.Lawful)
    (ht : execBenchReturn tag body s = .next t) : t.trg.Lawful := by
  unfold execBenchReturn at ht
  refine hostCommand_lawful ht h fun u hu => ?_
  exact (hu.over.whenRunning (hu.over.withTool fun _ hr => hu.over.benchReturn hr)).2

theorem execSetIssue_lawful (tag : Byte) (body : List Byte) {t : State} (h : s.trg.Lawful)
    (ht : execSetIssue tag body s = .next t) : t.trg.Lawful := by
  unfold execSetIssue at ht
  refine hostCommand_lawful ht h fun u hu => ?_
  exact (hu.over.setIssue _ _ _).2

theorem execReadRequest_lawful (tag : Byte) (body : List Byte) {t : State} (h : s.trg.Lawful)
    (ht : execReadRequest tag body s = .next t) : t.trg.Lawful := by
  unfold execReadRequest at ht
  refine hostCommand_lawful ht h fun u hu => ?_
  exact (hu.over.withRequest fun _ => hu.over).2

theorem execSetCurve_lawful (tag : Byte) (body : List Byte) {t : State} (h : s.trg.Lawful)
    (ht : execSetCurve tag body s = .next t) : t.trg.Lawful := by
  unfold execSetCurve at ht
  refine hostCommand_lawful ht h fun u hu => ?_
  exact (hu.over.setCurve _ _ _).2

theorem execSetHead_lawful (tag : Byte) (body : List Byte) {t : State} (h : s.trg.Lawful)
    (ht : execSetHead tag body s = .next t) : t.trg.Lawful := by
  unfold execSetHead at ht
  refine hostCommand_lawful ht h fun u hu => ?_
  dsimp only
  split
  · exact hu
  · split
    · exact hu
    · split
      · exact (State.putHeadSettings_trg u _ _).symm ▸ hu
      · exact hu

theorem execZeroHead_lawful (tag : Byte) (body : List Byte) {t : State} (h : s.trg.Lawful)
    (ht : execZeroHead tag body s = .next t) : t.trg.Lawful := by
  unfold execZeroHead at ht
  refine hostCommand_lawful ht h fun u hu => ?_
  exact (hu.over.whenRunning ((State.zeroHead_trg u _).symm ▸ hu.over)).2

theorem execMeasureBegin_lawful (tag : Byte) (body : List Byte) {t : State} (h : s.trg.Lawful)
    (ht : execMeasureBegin tag body s = .next t) : t.trg.Lawful := by
  unfold execMeasureBegin at ht
  refine hostCommand_lawful ht h fun u hu => ?_
  exact (hu.over.whenRunning (hu.over.measureBegin _ _)).2

theorem execMeasureEnd_lawful (tag : Byte) (body : List Byte) {t : State} (h : s.trg.Lawful)
    (ht : execMeasureEnd tag body s = .next t) : t.trg.Lawful := by
  unfold execMeasureEnd at ht
  refine hostCommand_lawful ht h fun u hu => ?_
  exact (hu.over.whenRunning (hu.over.measureEnd _)).2

theorem execMeasureAbort_lawful (tag : Byte) (body : List Byte) {t : State} (h : s.trg.Lawful)
    (ht : execMeasureAbort tag body s = .next t) : t.trg.Lawful := by
  unfold execMeasureAbort at ht
  refine hostCommand_lawful ht h fun u hu => ?_
  exact (hu.over.whenRunning (hu.over.measureAbort _)).2

theorem execRegrindOut_lawful (tag : Byte) (body : List Byte) {t : State} (h : s.trg.Lawful)
    (ht : execRegrindOut tag body s = .next t) : t.trg.Lawful := by
  unfold execRegrindOut at ht
  refine hostCommand_lawful ht h fun u hu => ?_
  exact (hu.over.whenRunning (hu.over.withTool fun _ hr => hu.over.regrindOut hr)).2

theorem execRegrindBack_lawful (tag : Byte) (body : List Byte) {t : State} (h : s.trg.Lawful)
    (ht : execRegrindBack tag body s = .next t) : t.trg.Lawful := by
  unfold execRegrindBack at ht
  refine hostCommand_lawful ht h fun u hu => ?_
  exact (hu.over.whenRunning (hu.over.withTool fun _ hr => hu.over.regrindBack hr)).2

theorem execSetLink_lawful (tag : Byte) (body : List Byte) {t : State} (h : s.trg.Lawful)
    (ht : execSetLink tag body s = .next t) : t.trg.Lawful := by
  unfold execSetLink at ht
  refine hostCommand_lawful ht h fun u hu => ?_
  split
  · exact hu
  · split
    · exact (hu.over.setPolicy _ _).2
    · exact hu

theorem execLinkRestart_lawful (tag : Byte) (body : List Byte) {t : State} (h : s.trg.Lawful)
    (ht : execLinkRestart tag body s = .next t) : t.trg.Lawful := by
  unfold execLinkRestart at ht
  refine hostCommand_lawful ht h fun u hu => ?_
  split
  · exact (hu.over.linkRestart _).2
  · exact hu

theorem execSetStation_lawful (tag : Byte) (body : List Byte) {t : State} (h : s.trg.Lawful)
    (ht : execSetStation tag body s = .next t) : t.trg.Lawful := by
  unfold execSetStation at ht
  refine hostCommand_lawful ht h fun u hu => ?_
  unfold State.setPlaces
  split_ifs <;> exact hu

theorem execSetGroup_lawful (tag : Byte) (body : List Byte) {t : State} (h : s.trg.Lawful)
    (ht : execSetGroup tag body s = .next t) : t.trg.Lawful := by
  unfold execSetGroup at ht
  refine hostCommand_lawful ht h fun u hu => ?_
  split <;> exact hu

theorem execTypeHold_lawful (tag : Byte) (body : List Byte) {t : State} (h : s.trg.Lawful)
    (ht : execTypeHold tag body s = .next t) : t.trg.Lawful := by
  unfold execTypeHold at ht
  refine hostCommand_lawful ht h fun u hu => ?_
  unfold whenRunning
  split
  · refine hu.withType fun t ht => ?_
    split
    · exact hu
    · exact hu.hold ht _
  · exact hu

theorem execTypeRelease_lawful (tag : Byte) (body : List Byte) {t : State} (h : s.trg.Lawful)
    (ht : execTypeRelease tag body s = .next t) : t.trg.Lawful := by
  unfold execTypeRelease at ht
  refine hostCommand_lawful ht h fun u hu => ?_
  unfold whenRunning
  split
  · refine hu.withType fun t ht => ?_
    split
    · exact hu.release ht _
    · exact hu
  · exact hu

theorem execSendData_lawful (tag : Byte) (body : List Byte) {t : State} (h : s.trg.Lawful)
    (ht : execSendData tag body s = .next t) : t.trg.Lawful := by
  unfold execSendData at ht
  refine hostCommand_lawful ht h fun u hu => ?_
  exact (hu.over.whenRunning (hu.over.withTool fun r _ => hu.over.sendData _ r)).2

theorem execSetTime_lawful (tag : Byte) (body : List Byte) {t : State} (h : s.trg.Lawful)
    (ht : execSetTime tag body s = .next t) : t.trg.Lawful := by
  unfold execSetTime at ht
  refine hostCommand_lawful ht h fun u hu => ?_
  exact ((State.RunsClock.refl u).setTime _).trg_eq.symm ▸ hu

theorem execSetClock_lawful (tag : Byte) (body : List Byte) {t : State} (h : s.trg.Lawful)
    (ht : execSetClock tag body s = .next t) : t.trg.Lawful := by
  unfold execSetClock at ht
  refine hostCommand_lawful ht h fun u hu => ?_
  exact (State.setClock_trg u _ _).symm ▸ hu

theorem execStart_lawful (tag : Byte) (body : List Byte) {t : State} (h : s.trg.Lawful)
    (ht : execStart tag body s = .next t) : t.trg.Lawful := by
  unfold execStart at ht
  refine hostCommand_lawful ht h fun u hu => ?_
  split
  · exact hu
  · split
    · exact hu
    · exact hu.over.begin.2

theorem execReset_lawful (tag : Byte) (body : List Byte) {t : State} (h : s.trg.Lawful)
    (ht : execReset tag body s = .next t) : t.trg.Lawful := by
  unfold execReset at ht
  refine hostCommand_lawful ht h fun u hu => ?_
  exact hu

theorem execReportEnable_lawful (tag : Byte) (body : List Byte) {t : State} (h : s.trg.Lawful)
    (ht : execReportEnable tag body s = .next t) : t.trg.Lawful := by
  unfold execReportEnable at ht
  refine hostCommand_lawful ht h fun u hu => ?_
  dsimp only
  split <;> exact hu

theorem execReadPort_lawful (tag : Byte) (body : List Byte) {t : State} (h : s.trg.Lawful)
    (ht : execReadPort tag body s = .next t) : t.trg.Lawful := by
  unfold execReadPort at ht
  refine hostCommand_lawful ht h fun u hu => ?_
  dsimp only
  split <;> exact hu

theorem execLatePickEnd_lawful (c p : Nat) {t : State} (h : s.trg.Lawful)
    (ht : execLatePickEnd c p s = .next t) : t.trg.Lawful := by
  unfold execLatePickEnd at ht
  refine pocketEvent_lawful ht h fun u hu => ?_
  split
  · exact (Trg.LawfulOver.allocationPass (s := u.clearLatePick _) hu.over).2
  · exact hu

theorem execHeadStatus_lawful (head : HeadId) (status : Byte) (scaleTemp : BitVec 16) {t : State} (h : s.trg.Lawful)
    (ht : execHeadStatus head status scaleTemp s = .next t) : t.trg.Lawful := by
  unfold execHeadStatus at ht
  refine event_lawful ht h fun u hu => ?_
  have hf : (u.headFramed head).trg.Lawful := by rwa [State.headFramed, State.setHead_trg]
  split_ifs
  · exact (hf.over.takeStatus _ _ _).2
  · exact (hf.over.takeStatus _ _ _).2
  · exact (hu.over.headFailed _ _).2

theorem execCapture_lawful (head : HeadId) (z x : BitVec 24) (spindle scaleTemp toolTemp : BitVec 16) (flags : Byte) {t : State} (h : s.trg.Lawful)
    (ht : execCapture head z x spindle scaleTemp toolTemp flags s = .next t) : t.trg.Lawful := by
  unfold execCapture at ht
  refine event_lawful ht h fun u hu => ?_
  split
  · rw [State.takeCapture_trg, State.headFramed, State.setHead_trg]
    exact hu
  · exact (hu.over.headFailed _ _).2

/-- What every command and event keeps of TRG. -/
theorem exec_lawful {i : Instr} {t : State} (h : s.trg.Lawful) (ht : exec i s = .next t) : t.trg.Lawful := by
  cases i with
  | powerOn baud1 baud0 =>
    cases ht
    exact Trg.lawful_reset
  | resetN =>
    unfold exec execResetN at ht
    exact event_lawful ht h (fun _ _ => Trg.lawful_reset)
  | supervisoryFrame bytes =>
    unfold exec execSupervisoryFrame at ht
    exact event_lawful ht h (fun _ hu => hu)
  | frameByteTimeout =>
    unfold exec execFrameByteTimeout at ht
    exact event_lawful ht h (fun _ hu => hu)
  | unknownKindFrame kind tag body => exact execUnknownKindFrame_lawful _ _ _ h ht
  | frameSent =>
    unfold exec execFrameSent at ht
    exact event_lawful ht h (fun _ hu => hu.frameSent)
  | resetEffect => exact execResetEffect_lawful h ht
  | loadType tag body => exact execLoadType_lawful _ _ h ht
  | deleteType tag body => exact execDeleteType_lawful _ _ h ht
  | readType tag body =>
    unfold exec execReadType at ht
    exact readCommand_lawful ht h
  | register tag body => exact execRegister_lawful _ _ h ht
  | loadInstance tag body => exact execLoadInstance_lawful _ _ h ht
  | quarantineTool tag body => exact execQuarantineTool_lawful _ _ h ht
  | clearQuarantine tag body => exact execClearQuarantine_lawful _ _ h ht
  | retire tag body => exact execRetire_lawful _ _ h ht
  | delete tag body => exact execDelete_lawful _ _ h ht
  | readInstance tag body => exact execReadInstance_lawful _ _ h ht
  | listInstances tag body =>
    unfold exec execListInstances at ht
    exact readCommand_lawful ht h
  | setCabinet tag body => exact execSetCabinet_lawful _ _ h ht
  | setPockets tag body => exact execSetPockets_lawful _ _ h ht
  | learnEmpty tag body => exact execLearnEmpty_lawful _ _ h ht
  | scanOnce tag body => exact execScanOnce_lawful _ _ h ht
  | identify tag body => exact execIdentify_lawful _ _ h ht
  | readPocket tag body =>
    unfold exec execReadPocket at ht
    exact readCommand_lawful ht h
  | readCabinet tag body =>
    unfold exec execReadCabinet at ht
    exact readCommand_lawful ht h
  | issue tag body => exact execIssue_lawful _ _ h ht
  | cancel tag body => exact execCancel_lawful _ _ h ht
  | handOut tag body => exact execHandOut_lawful _ _ h ht
  | benchReturn tag body => exact execBenchReturn_lawful _ _ h ht
  | setIssue tag body => exact execSetIssue_lawful _ _ h ht
  | nextToMeasure tag body =>
    unfold exec execNextToMeasure at ht
    exact readCommand_lawful ht h
  | readRequest tag body => exact execReadRequest_lawful _ _ h ht
  | listRequests tag body =>
    unfold exec execListRequests at ht
    exact readCommand_lawful ht h
  | readPutaway tag body =>
    unfold exec execReadPutaway at ht
    exact readCommand_lawful ht h
  | setCurve tag body => exact execSetCurve_lawful _ _ h ht
  | setHead tag body => exact execSetHead_lawful _ _ h ht
  | zeroHead tag body => exact execZeroHead_lawful _ _ h ht
  | measureBegin tag body => exact execMeasureBegin_lawful _ _ h ht
  | measureEnd tag body => exact execMeasureEnd_lawful _ _ h ht
  | measureAbort tag body => exact execMeasureAbort_lawful _ _ h ht
  | readHead tag body =>
    unfold exec execReadHead at ht
    exact readCommand_lawful ht h
  | regrindOut tag body => exact execRegrindOut_lawful _ _ h ht
  | regrindBack tag body => exact execRegrindBack_lawful _ _ h ht
  | setLink tag body => exact execSetLink_lawful _ _ h ht
  | linkRestart tag body => exact execLinkRestart_lawful _ _ h ht
  | readLink tag body =>
    unfold exec execReadLink at ht
    exact readCommand_lawful ht h
  | setStation tag body => exact execSetStation_lawful _ _ h ht
  | setGroup tag body => exact execSetGroup_lawful _ _ h ht
  | typeHold tag body => exact execTypeHold_lawful _ _ h ht
  | typeRelease tag body => exact execTypeRelease_lawful _ _ h ht
  | sendData tag body => exact execSendData_lawful _ _ h ht
  | readHandoff tag body =>
    unfold exec execReadHandoff at ht
    exact readCommand_lawful ht h
  | readGroups tag body =>
    unfold exec execReadGroups at ht
    exact readCommand_lawful ht h
  | readBroadcast tag body =>
    unfold exec execReadBroadcast at ht
    exact readCommand_lawful ht h
  | setTime tag body => exact execSetTime_lawful _ _ h ht
  | setClock tag body => exact execSetClock_lawful _ _ h ht
  | readTime tag body =>
    unfold exec execReadTime at ht
    exact readCommand_lawful ht h
  | start tag body => exact execStart_lawful _ _ h ht
  | reset tag body => exact execReset_lawful _ _ h ht
  | reportEnable tag body => exact execReportEnable_lawful _ _ h ht
  | readPort tag body => exact execReadPort_lawful _ _ h ht
  | scanInterval cabinet =>
    unfold exec execScanInterval at ht
    exact cabinetEvent_lawful ht h (fun u hu => (State.fireBoundary_trg u _).symm ▸ hu)
  | pocketCount cabinet cycles =>
    unfold exec execPocketCount at ht
    exact cabinetEvent_lawful ht h (fun _ hu => (hu.over.takeCount _ _).2)
  | learnMeasurement cabinet cycles =>
    unfold exec execLearnMeasurement at ht
    exact cabinetEvent_lawful ht h (fun u hu => (State.takeLearn_trg u _ _).symm ▸ hu)
  | pickTimeout request =>
    unfold exec execPickTimeout at ht
    exact event_lawful ht h (fun _ hu => (hu.over.firePick _).2)
  | latePickEnd cabinet pocket => exact execLatePickEnd_lawful _ _ h ht
  | putawayTimeout tool =>
    unfold exec execPutawayTimeout at ht
    exact event_lawful ht h (fun _ hu => (hu.over.firePutaway _).2)
  | headStatus head status scaleTemp => exact execHeadStatus_lawful _ _ _ h ht
  | capture head z x spindle scaleTemp toolTemp flags => exact execCapture_lawful _ _ _ _ _ _ _ h ht
  | headFrameByteTimeout head =>
    unfold exec execHeadFrameByteTimeout at ht
    exact event_lawful ht h (fun u hu => (State.fireHeadBytes_trg u _).symm ▸ hu)
  | headSilence head =>
    unfold exec execHeadSilence at ht
    exact event_lawful ht h (fun _ hu => (hu.over.fireSilence _).2)
  | zeroAgeLapse head =>
    unfold exec execZeroAgeLapse at ht
    exact event_lawful ht h (fun u hu => (State.fireLapse_trg u _).symm ▸ hu)
  | handoffTimeout station =>
    unfold exec execHandoffTimeout at ht
    exact stationEvent_lawful ht h (fun _ hu => (hu.over.fireHandoff _).2)
  | holdOffExpiry station =>
    unfold exec execHoldOffExpiry at ht
    exact stationEvent_lawful ht h (fun u hu => (State.fireHoldOff_trg u _).symm ▸ hu)
  | broadcastExpiry number =>
    unfold exec execBroadcastExpiry at ht
    exact event_lawful ht h (fun u hu => (State.fireBroadcast_trg u _).symm ▸ hu)
  | stationBlock station bytes =>
    unfold exec execStationBlock at ht
    exact stationEvent_lawful ht h (fun _ hu => (hu.over.linkBytes _ _).2)
  | acquireTimeout station =>
    unfold exec execAcquireTimeout at ht
    exact stationEvent_lawful ht h (fun _ hu => (hu.over.fireAcquire _).2)
  | linkSilence station =>
    unfold exec execLinkSilence at ht
    exact stationEvent_lawful ht h (fun _ hu => (hu.over.fireLinkSilence _).2)
  | blockPeriod station =>
    unfold exec execBlockPeriod at ht
    exact stationEvent_lawful ht h (fun _ hu => (hu.over.firePeriod _).2)
  | outstandingTimeout station =>
    unfold exec execOutstandingTimeout at ht
    exact stationEvent_lawful ht h (fun _ hu => (hu.over.fireOutstanding _).2)
  | echoHeldTimeout station =>
    unfold exec execEchoHeldTimeout at ht
    exact stationEvent_lawful ht h (fun u hu => (State.fireEchoHeld_trg u _).symm ▸ hu)
  | ppsPulse line =>
    unfold exec execPpsPulse at ht
    exact event_lawful ht h (fun u hu => ((State.RunsClock.refl u).pulse _).trg_eq.symm ▸ hu)
  | stepDeadline line =>
    unfold exec execStepDeadline at ht
    exact event_lawful ht h (fun u hu => ((State.RunsClock.refl u).fireDeadline _).trg_eq.symm ▸ hu)
  | hallSecond =>
    unfold exec execHallSecond at ht
    exact event_lawful ht h (fun u hu => (State.expiryTest_trg u).symm ▸ hu)
  | headFrameDiscarded head bytes =>
    unfold exec execHeadFrameDiscarded at ht
    exact event_lawful ht h (fun _ hu => (hu.over.headBytes _ _).2)

/-- The state that runs a waiting command or the time base has the register of the state before. -/
theorem idle_lawful {t : State} (h : s.trg.Lawful) (ht : s.idle = .next t) : t.trg.Lawful := by
  unfold State.idle at ht
  split at ht
  · exact exec_lawful h ht
  · split at ht
    · cases ht
      exact h
    · cases ht
      exact h

/-- Settles O59: each command and event keeps TRG lawful, by one lemma for each operation that writes it. -/
theorem stepKeepsRegisterLawful : Obligations.StepKeepsRegisterLawful := by
  intro s t h ht
  unfold step at ht
  split at ht
  next i rest _ => exact exec_lawful (s := { s with pending := rest }) h ht
  next => exact idle_lawful h ht

end Sys2Proof.Machine

/-! O54: the reads. A read answers from the state with its frame taken, which has every block but SVP as before. -/

namespace Sys2Proof.Machine

/-! ### Fields of a body -/

theorem numberOf_foldl_lt (bytes : List Byte) (a : Nat) :
    bytes.foldl (fun a b => a * 256 + b.toNat) a < (a + 1) * 256 ^ bytes.length := by
  induction bytes generalizing a with
  | nil => simp
  | cons b bytes ih =>
    have hb : b.toNat < 256 := b.isLt
    calc (b :: bytes).foldl (fun a b => a * 256 + b.toNat) a
        < (a * 256 + b.toNat + 1) * 256 ^ bytes.length := ih _
      _ ≤ ((a + 1) * 256) * 256 ^ bytes.length := Nat.mul_le_mul_right _ (by omega)
      _ = (a + 1) * 256 ^ (b :: bytes).length := by rw [List.length_cons, pow_succ]; ring

theorem fieldAt_lt (body : List Byte) (off len : Nat) : fieldAt body off len < 256 ^ len :=
  calc fieldAt body off len < (0 + 1) * 256 ^ ((body.drop off).take len).length := numberOf_foldl_lt _ 0
    _ ≤ 256 ^ len := by
      rw [Nat.zero_add, one_mul]
      exact Nat.pow_le_pow_right (by decide) (List.length_take_le _ _)

theorem fieldAt_byte_lt (body : List Byte) (off : Nat) : fieldAt body off 1 < 256 := fieldAt_lt body off 1

/-! ### Numbers out of range -/

theorem typeNo_iff {n : Nat} : typeNo n = true ↔ 1 ≤ n ∧ n ≤ 512 := by simp [typeNo]

theorem toolNo_iff {n : Nat} : toolNo n = true ↔ 1 ≤ n ∧ n ≤ 2048 := by simp [toolNo]

theorem within_iff {lo hi n : Nat} : within lo hi n = true ↔ lo ≤ n ∧ n ≤ hi := by simp [within]

theorem not_iff_outside {b : Bool} {lo hi n : Nat} (h : b = true ↔ lo ≤ n ∧ n ≤ hi) : b = false ↔ n < lo ∨ hi < n := by
  rw [← Bool.not_eq_true, h]
  omega

/-- The answer of a read to a number out of its range is RANGE. -/
theorem ite_outside {α : Type} {b : Bool} {lo hi n : Nat} (h : b = true ↔ lo ≤ n ∧ n ≤ hi) (x y : α) :
    (if b = false then x else y) = if n < lo ∨ hi < n then x else y := by simp only [not_iff_outside h]

theorem ite_inside {α : Type} {b : Bool} {lo hi n : Nat} (h : b = true ↔ lo ≤ n ∧ n ≤ hi) (x y : α) :
    (if b = true then y else x) = if n < lo ∨ hi < n then x else y := by
  rw [← ite_outside h]
  cases b <;> simp

/-! ### The reads -/

/-- A read answers what its answer is in the state before: the frame taken changes no block but SVP. -/
theorem readCommand_reads {s : State} {kind tag : Byte} {body : List Byte} {answer : State → Reply} {r : Reply}
    (h : s.takesNow kind tag body = true) (hr : answer (s.taken kind tag body) = r) :
    readCommand kind tag body answer s = .next (s.answered kind tag body r) := by
  rw [readCommand_answers h, hr]

/-- R26, R75: a read of one record answers RANGE, NO_SUCH or the record. -/
theorem withTool_reads (s : State) (n : Nat) (d : InstRec → ReplyData) :
    withTool n (fun s r => (s, .with .ok (d r))) s =
      (s, if n < 1 ∨ 2048 < n then .plain .range
        else match s.tool n with
          | none => .plain .noSuch
          | some r => { code := .ok, data := d r }) := by
  unfold withTool
  rw [ite_outside toolNo_iff]
  split_ifs
  · rfl
  · cases s.tool n <;> rfl

theorem withRequest_reads (s : State) (n : Nat) (hn : n < 256) (d : Request → ReplyData) :
    withRequest n (fun s r => (s, .with .ok (d r))) s =
      (s, if n = 0 then .plain .range
        else match s.isc.queue.find? (fun r => decide (r.number = n)) with
          | none => .plain .noSuch
          | some r => { code := .ok, data := d r }) := by
  unfold withRequest
  rw [ite_outside within_iff]
  have hzero : (n < 1 ∨ 255 < n) ↔ n = 0 := by omega
  simp only [hzero]
  split_ifs
  · rfl
  · show (match s.isc.queue.find? (fun r => decide (r.number = n)) with
        | none => _
        | some r => _) = _
    cases s.isc.queue.find? (fun r => decide (r.number = n)) <;> rfl

/-- R193: two numbers out of their ranges. -/
theorem ite_inside_two {α : Type} {b c : Bool} {lo hi n lo' hi' m : Nat} (h : b = true ↔ lo ≤ n ∧ n ≤ hi)
    (k : c = true ↔ lo' ≤ m ∧ m ≤ hi') (x y : α) :
    (if (b && c) = true then y else x) = if n < lo ∨ hi < n ∨ m < lo' ∨ hi' < m then x else y := by
  have hiff : (b && c) = true ↔ ¬ (n < lo ∨ hi < n ∨ m < lo' ∨ hi' < m) := by
    rw [Bool.and_eq_true, h, k]
    omega
  by_cases hb : (b && c) = true
  · rw [if_pos hb, if_neg (hiff.1 hb)]
  · rw [if_neg hb, if_pos (Decidable.not_not.1 (mt hiff.2 hb))]

theorem Pocket.sensing_eq (p : Pocket) :
    p.sensing = (p.enabled && p.baseline.isSome && decide (p.state ≠ .fault)) := by
  unfold Pocket.sensing
  cases p.state <;> rfl

theorem Link.bad_eq (l : Link) : l.bad = (l.density.filter (fun g => decide (g = false))).length := by
  unfold Link.bad
  congr 2
  funext g
  cases g <;> rfl

theorem execListInstances_answers {s : State} {tag : Byte} {body : List Byte} (h : s.takesNow 0x0F tag body = true) :
    execListInstances tag body s = .next (s.answered 0x0F tag body
      (s.listInstances (fieldAt body 0 2) (fieldAt body 2 2) (fieldAt body 4 2))) :=
  readCommand_answers h fun s => s.listInstances (fieldAt body 0 2) (fieldAt body 2 2) (fieldAt body 4 2)

theorem State.listInstances_codes (s : State) (type set start : Nat) :
    (s.listInstances type set start).code = .range ∨ (s.listInstances type set start).code = .noSuch ∨
      ∃ ns more, s.listInstances type set start = { code := .ok, data := .instList ns more } := by
  unfold State.listInstances
  split_ifs
  · exact Or.inl rfl
  · exact Or.inr (Or.inl rfl)
  · exact Or.inr (Or.inr ⟨_, _, rfl⟩)

/-- R204: the counters that READ_PORT clears choose no frame for the transmitter. -/
theorem Svp.startTx_cleared (v : Svp) (d r p : Nat) :
    ({ v with discards := d, refusals := r, drops := p } : Svp).startTx =
      { v.startTx with discards := d, refusals := r, drops := p } := by
  unfold Svp.startTx
  cases hv : v.tx with
  | none => rfl
  | some t => simp only [hv]

theorem Svp.startTx_enabled (v : Svp) (set : Nat) :
    ({ v with enable := set } : Svp).startTx = { v.startTx with enable := set } := by
  unfold Svp.startTx
  cases hv : v.tx with
  | none => rfl
  | some t => simp only [hv]

theorem execReadPort_clears (s : State) (tag : Byte) (body : List Byte) (h : s.takesNow 0x53 tag body = true) :
    let d : Reply := .with .ok (s.bringIn ⟨0x53, tag, body⟩).svp.portData
    execReadPort tag body s = .next { s with
      svp := if flagAt body 0 0 = true then
          { s.svpAnswered 0x53 tag body [] d with discards := 0, refusals := 0, drops := 0 }
        else s.svpAnswered 0x53 tag body [] d
      lines := Lines.quiet } := by
  intro d
  unfold execReadPort
  rw [hostCommand_taken h]
  cases hc : flagAt body 0 0 with
  | false => rfl
  | true =>
    simp only [if_true]
    exact congrArg (fun v => Host.Outcome.next { s with svp := v, lines := Lines.quiet })
      (Svp.startTx_cleared (((s.taken 0x53 tag body).svp).makeReply d) 0 0 0)

theorem execReportEnable_sets (s : State) (tag : Byte) (body : List Byte) (h : s.takesNow 0x52 tag body = true) :
    execReportEnable tag body s =
      if fieldAt body 0 2 < 16384 then
        .next { s with svp := { s.svpAnswered 0x52 tag body [] (.plain .ok) with enable := fieldAt body 0 2 }, lines := Lines.quiet }
      else .next (s.answered 0x52 tag body (.plain .range)) := by
  unfold execReportEnable
  split_ifs with hset
  · rw [hostCommand_taken h]
    simp only [hset, if_true]
    exact congrArg (fun v => Host.Outcome.next { s with svp := v, lines := Lines.quiet })
      (Svp.startTx_enabled (((s.taken 0x52 tag body).svp).makeReply (.plain .ok)) _)
  · exact hostCommand_answers h (if_neg hset)

/-- Settles O54: each read's answer is the state's, by the range of its number and the presence of its record. -/
theorem readsAnswerState : Obligations.ReadsAnswerState := by
  intro s tag body a n ok reads
  have ha : a < 256 := fieldAt_byte_lt body 0
  refine ⟨fun h => ?_, fun h => ?_, fun h => ?_, fun h => ?_, fun h => ?_, fun h => ?_, fun h => ?_, fun ha h => ?_, fun k ha h => ?_,
    fun h => ?_, fun h => ?_, fun h => ?_, fun h => ?_, fun h => ?_, ?_, ?_, fun h => ?_, fun h => ⟨fun hset => ?_, fun hset => ?_⟩⟩
  case refine_1 =>
    change execReadType tag body s = _
    exact readCommand_reads h (ite_outside typeNo_iff _ _)
  case refine_2 => exact hostCommand_answers h (withTool_reads _ _ _)
  case refine_3 =>
    change execReadPocket tag body s = _
    refine readCommand_reads h ((ite_inside_two within_iff within_iff _ _).trans ?_)
    rw [Pocket.sensing_eq]
    rfl
  case refine_4 =>
    change execReadCabinet tag body s = _
    exact readCommand_reads h (ite_inside within_iff _ _)
  case refine_5 => exact hostCommand_answers h (withRequest_reads _ _ ha _)
  case refine_6 =>
    change execListRequests tag body s = _
    exact readCommand_reads h (ite_inside within_iff _ _)
  case refine_7 =>
    change execReadPutaway tag body s = _
    exact readCommand_reads h (ite_inside toolNo_iff _ _)
  case refine_8 =>
    change execReadHead tag body s = _
    refine readCommand_reads h ?_
    simp only [show headOf (fieldAt body 0 1) = none from ha]
  case refine_9 =>
    change execReadHead tag body s = _
    refine readCommand_reads h ?_
    simp only [show headOf (fieldAt body 0 1) = some k from ha]
    rfl
  case refine_10 =>
    change execReadLink tag body s = _
    refine readCommand_reads h ((ite_inside within_iff _ _).trans ?_)
    rw [Link.bad_eq]
    rfl
  case refine_11 =>
    change execReadHandoff tag body s = _
    exact readCommand_reads h (ite_inside within_iff _ _)
  case refine_12 =>
    change execReadGroups tag body s = _
    exact readCommand_reads h rfl
  case refine_13 =>
    change execReadBroadcast tag body s = _
    refine readCommand_reads h ((ite_outside within_iff _ _).trans ?_)
    have hzero : (fieldAt body 0 1 < 1 ∨ 255 < fieldAt body 0 1) ↔ a = 0 := by omega
    simp only [hzero]
    rfl
  case refine_14 =>
    change execReadTime tag body s = _
    exact readCommand_reads h rfl
  case refine_15 => exact ⟨_, fun h => execListInstances_answers h, s.listInstances_codes _ _ _⟩
  case refine_16 =>
    refine ⟨(s.worklist.take 8).map (fun e => (e.1, e.2.type, e.2.loc, (s.rankingRequest e.2.type).map (·.number))), ?_,
      fun h => ?_⟩
    · rw [List.length_map]
      exact List.length_take_le _ _
    · change execNextToMeasure tag body s = _
      exact readCommand_reads h rfl
  case refine_17 => exact execReadPort_clears s tag body h
  case refine_18 => exact (execReportEnable_sets s tag body h).trans (if_neg (Nat.not_lt.2 hset))
  case refine_19 => exact (execReportEnable_sets s tag body h).trans (if_pos hset)

end Sys2Proof.Machine

/-! O2 and O3: DELETE_TYPE and LIST_INSTANCES. -/

namespace Sys2Proof.Machine

/-! ### Commands that hand over no report -/

/-- The step of a command taken at once whose run changes SVP in nothing (R191). -/
theorem hostCommand_silent {kind tag : Byte} {body : List Byte} {s u : State} {r : Reply} {run : State → State × Reply}
    (h : s.takesNow kind tag body = true) (hr : run (s.taken kind tag body) = (u, r))
    (hs : u.svp = (s.taken kind tag body).svp) :
    hostCommand kind tag body run s = .next { u with svp := s.svpAnswered kind tag body [] r } := by
  have hrun : (run (s.taken kind tag body)).1.svp = (s.taken kind tag body).svp.handed s.now [] := by rw [hr]; exact hs
  rw [hostCommand_handed h hrun, hr]

/-! ### DELETE_TYPE -/

theorem State.typeUsed_iff {s : State} {n : Nat} : s.typeUsed n = true ↔ ∃ e ∈ s.trg.insts, e.2.type = n := by
  simp [State.typeUsed]

/-- R6: some record or request names the type. -/
theorem State.typeNamed_iff {s : State} {n : Nat} :
    (s.typeUsed n || s.isc.queue.any (fun q => q.type == n)) = true ↔
      (∃ e ∈ s.trg.insts, e.2.type = n) ∨ ∃ q ∈ s.isc.queue, q.type = n := by
  rw [Bool.or_eq_true, State.typeUsed_iff]
  simp

/-- Settles O2, row by row. -/
theorem deleteTypeAnswersInOrder : Obligations.DeleteTypeAnswersInOrder := by
  intro s tag body h
  refine ⟨fun hrange => ?_, fun hrange hnone => ?_, fun r hrange hr => ⟨fun hheld => ?_, fun hfree hused => ?_, fun hfree hused => ?_⟩⟩
  case refine_1 =>
    change execDeleteType tag body s = _
    unfold execDeleteType
    exact hostCommand_answers h (if_pos (by simpa [typeNo] using hrange))
  all_goals
    have hno : ¬ typeNo (fieldAt body 0 2) = false := by simp [typeNo_iff.2 hrange]
  case refine_2 =>
    change execDeleteType tag body s = _
    unfold execDeleteType
    refine hostCommand_answers h ((if_neg hno).trans ?_)
    rw [show (s.taken 0x02 tag body).type _ = none from hnone]
  case refine_3 =>
    change execDeleteType tag body s = _
    unfold execDeleteType
    refine hostCommand_answers h ((if_neg hno).trans ?_)
    rw [show (s.taken 0x02 tag body).type _ = some r from hr]
    exact if_pos hheld
  case refine_4 =>
    change execDeleteType tag body s = _
    unfold execDeleteType
    refine hostCommand_answers h ((if_neg hno).trans ?_)
    rw [show (s.taken 0x02 tag body).type _ = some r from hr]
    exact (if_neg (by simp [hfree])).trans (if_pos (State.typeNamed_iff.2 hused))
  case refine_5 =>
    let u := (s.taken 0x02 tag body).delType (fieldAt body 0 2)
    refine ⟨{ u with svp := s.svpAnswered 0x02 tag body [] (.plain .ok) }, ?_, ?_, fun m hm => ?_, rfl⟩
    · change execDeleteType tag body s = _
      unfold execDeleteType
      refine hostCommand_silent (u := u) h ((if_neg hno).trans ?_) rfl
      rw [show (s.taken 0x02 tag body).type _ = some r from hr]
      exact (if_neg (by simp [hfree])).trans (if_neg (mt State.typeNamed_iff.1 hused))
    · exact (State.type_delType _ _ _).trans (if_pos rfl)
    · exact (State.type_delType _ _ _).trans (if_neg hm)

/-! ### LIST_INSTANCES -/

/-- The first elements of an ascending list, and whether it has more. -/
theorem ascending_take {l : List Nat} (h : l.Pairwise (· < ·)) (k : Nat) :
    (l.take k).Pairwise (· < ·) ∧ (l.take k).length ≤ k ∧
    (∀ n ∈ l, n ∉ l.take k → k < l.length ∧ ∀ m ∈ l.take k, m < n) ∧
    (k < l.length → (l.take k).length = k ∧ ∃ n ∈ l, ∀ m ∈ l.take k, m < n) := by
  have hall : ∀ m ∈ l.take k, ∀ n ∈ l.drop k, m < n := by
    have h' := h
    rw [← List.take_append_drop k l, List.pairwise_append] at h'
    exact h'.2.2
  refine ⟨h.sublist (List.take_sublist _ _), List.length_take_le _ _, fun n hn hnot => ?_, fun hk => ?_⟩
  · rw [← List.take_append_drop k l, List.mem_append] at hn
    have hd := hn.resolve_left hnot
    refine ⟨?_, fun m hm => hall m hm n hd⟩
    have := List.length_pos_of_mem hd
    rw [List.length_drop] at this
    omega
  · refine ⟨by rw [List.length_take]; omega, l[k], List.getElem_mem hk, fun m hm => hall m hm _ ?_⟩
    rw [List.drop_eq_getElem_cons hk]
    exact List.mem_cons_self

/-- The numbers that LIST_INSTANCES lists from (R26). -/
def State.listed (s : State) (type set start : Nat) : List Nat :=
  (s.trg.insts.filter (fun e => decide (start < e.1) && (decide (type = 0) || decide (e.2.type = type)) &&
    set.testBit (e.2.custody.code - 1))).map (·.1)

theorem State.mem_listed {s : State} (hs : tableSorted s.trg.insts = true) {type set start n : Nat} :
    n ∈ s.listed type set start ↔
      ∃ r, s.tool n = some r ∧ start < n ∧ (type = 0 ∨ r.type = type) ∧ set.testBit (r.custody.code - 1) = true := by
  simp only [State.listed, List.mem_map, List.mem_filter, Bool.and_eq_true, Bool.or_eq_true, decide_eq_true_eq]
  constructor
  · rintro ⟨⟨k, r⟩, ⟨hmem, ⟨hstart, htype⟩, hset⟩, rfl⟩
    exact ⟨r, tget_of_mem hs hmem, hstart, htype, hset⟩
  · rintro ⟨r, hr, hstart, htype, hset⟩
    exact ⟨(n, r), ⟨mem_of_tget hr, ⟨hstart, htype⟩, hset⟩, rfl⟩

theorem State.listed_ascending {s : State} (hs : tableSorted s.trg.insts = true) (type set start : Nat) :
    (s.listed type set start).Pairwise (· < ·) :=
  ((tableSorted_iff _).1 hs).sublist (List.filter_sublist.map _)

/-- Settles O3: the list is the ascending numbers of the instances that match, cut at 100. -/
theorem listInstancesAscending : Obligations.ListInstancesAscending := by
  intro s tag body h type custodies start matching
  refine ⟨fun hrange => ?_, fun htype hstart hset hnonzero hnone => ?_, fun htype hstart hset hpresent hs => ?_⟩
  all_goals rw [show exec (.listInstances tag body) s = _ from execListInstances_answers h]
  · rw [State.listInstances, if_pos hrange]
  · rw [State.listInstances, if_neg (by omega), if_pos ⟨hnonzero, Option.isNone_iff_eq_none.2 hnone⟩]
  · obtain ⟨hasc, hlen, hrest, hmore⟩ := ascending_take (s.listed_ascending hs type custodies start) 100
    have hno : ¬ (type ≠ 0 ∧ (s.type type).isNone = true) := by
      rintro ⟨hn, hnone⟩
      exact hpresent.elim hn fun hp => hp (Option.isNone_iff_eq_none.1 hnone)
    refine ⟨_, decide (100 < (s.listed type custodies start).length), ?_, hasc, hlen, fun n hn => ?_, fun n r hm hn => ?_, fun hm => ?_⟩
    · rw [State.listInstances, if_neg (by omega), if_neg hno]
      rfl
    · exact (State.mem_listed hs).1 (List.mem_of_mem_take hn)
    · obtain ⟨hk, hlt⟩ := hrest n ((State.mem_listed hs).2 ⟨r, hm⟩) hn
      exact ⟨decide_eq_true hk, hlt⟩
    · obtain ⟨hl, n, hn, hlt⟩ := hmore (of_decide_eq_true hm)
      obtain ⟨r, hr⟩ := (State.mem_listed hs).1 hn
      exact ⟨hl, n, r, hr, hlt⟩

end Sys2Proof.Machine

/-! O49: power-on and the resets. -/

namespace Sys2Proof.Machine

/-! ### The blocks at their reset values -/

theorem Svp.powerOn_startTx (rate : Nat) : (Svp.powerOn rate).startTx = Svp.powerOn rate := rfl

theorem Svp.startTx_resetting (v : Svp) (b : Bool) :
    ({ v with resetting := b } : Svp).startTx = { v.startTx with resetting := b } := by
  unfold Svp.startTx
  cases hv : v.tx with
  | none => rfl
  | some t => simp only [hv]

/-- Every block but SVP, HCK and the lines is as power-on leaves it, and the waiting commands are those before. -/
def State.Emptied (s t : State) : Prop :=
  t.pending = s.pending ∧ t.trg = { types := [], insts := [] } ∧ (∀ c p, t.pocket c p = Pocket.reset) ∧
  (∀ c, t.cab c = Cabinet.reset) ∧ t.isc = Isc.reset ∧ t.msu = { a := Head.reset, b := Head.reset } ∧
  (∀ n, t.link n = Link.reset) ∧ (∀ n, t.station n = Station.reset) ∧ (∀ g, t.group g = []) ∧
  t.hoe.broadcasts = [none, none, none, none] ∧ t.hoe.nextBroadcast = 1 ∧ t.hoe.nextTxn = 1

/-- R203: a state made of the reset state's blocks is empty. -/
theorem State.emptied_of_reset (s : State) (v : Svp) (h : Hck) (l : Lines) :
    s.Emptied { State.reset with pending := s.pending, svp := v, hck := h, lines := l } :=
  ⟨rfl, rfl, fun _ _ => rfl, fun _ => rfl, rfl, rfl, fun _ => rfl, fun _ => rfl, fun _ => rfl, rfl, rfl, rfl⟩

theorem rateOf_eq (b1 b0 : Bool) :
    rateOf b1 b0 = if b1 = true then (if b0 = true then 921600 else 460800) else (if b0 = true then 230400 else 115200) := by
  cases b1 <;> cases b0 <;> rfl

/-! ### The reply to RESET on the transmitter -/

/-- The reply that a stamp finds in the buffer is that of the first entry with it (R197). -/
theorem find_madeReply (b : List BufEntry) (stamp : Nat) (f : HostFrame) (r : Reply) :
    (∃ k, (b.filterMap (fun e => e.reply.map (fun r => (r.1, e.frame, r.2)))).find? (fun e => e.1 == stamp) = some (k, f, r)) ↔
      ∃ front back, b = front ++ { frame := f, reply := some (stamp, r) } :: back ∧ ∀ e ∈ front, ∀ m, e.reply ≠ some (stamp, m) := by
  induction b with
  | nil => simp
  | cons e b ih =>
    obtain ⟨g, reply⟩ := e
    have skip : (∀ m, reply ≠ some (stamp, m)) →
        ((∃ front back, b = front ++ { frame := f, reply := some (stamp, r) } :: back ∧
            ∀ e ∈ front, ∀ m, e.reply ≠ some (stamp, m)) ↔
          ∃ front back, ({ frame := g, reply := reply } : BufEntry) :: b =
              front ++ { frame := f, reply := some (stamp, r) } :: back ∧
            ∀ e ∈ front, ∀ m, e.reply ≠ some (stamp, m)) := by
      intro hne
      constructor
      · rintro ⟨front, back, rfl, hf⟩
        refine ⟨_ :: front, back, rfl, fun e he => ?_⟩
        rcases List.mem_cons.1 he with rfl | he
        · exact hne
        · exact hf e he
      · rintro ⟨_ | ⟨e, front⟩, back, heq, hf⟩
        · simp only [List.nil_append, List.cons.injEq, BufEntry.mk.injEq] at heq
          exact absurd heq.1.2 (hne r)
        · simp only [List.cons_append, List.cons.injEq] at heq
          exact ⟨front, back, heq.2, fun e he => hf e (List.mem_cons_of_mem _ he)⟩
    cases reply with
    | none =>
      rw [← skip (by simp), ← ih]
      rfl
    | some x =>
      obtain ⟨k, m⟩ := x
      by_cases hk : k = stamp
      · subst hk
        simp only [List.filterMap_cons, Option.map_some, List.find?_cons_of_pos, beq_self_eq_true, Option.some.injEq, Prod.mk.injEq]
        constructor
        · rintro ⟨j, -, rfl, rfl⟩
          exact ⟨[], b, rfl, by simp⟩
        · rintro ⟨_ | ⟨e, front⟩, back, heq, hf⟩
          · simp only [List.nil_append, List.cons.injEq, BufEntry.mk.injEq, Option.some.injEq, Prod.mk.injEq] at heq
            obtain ⟨⟨rfl, -, rfl⟩, -⟩ := heq
            exact ⟨k, rfl, rfl, rfl⟩
          · simp only [List.cons_append, List.cons.injEq] at heq
            exact absurd rfl (heq.1 ▸ hf e List.mem_cons_self m)
      · rw [← skip (by simp [hk]), ← ih]
        simp [hk]

/-- R202: the part sends the last part of the reply to an accepted RESET, whose entry is the first with its stamp. -/
theorem Svp.sendingReset_iff (v : Svp) :
    v.sendingReset = true ↔ v.resetting = true ∧ ∃ front back f r stamp part parts,
      v.tx = some { item := .reply stamp, part := part, parts := parts } ∧ parts ≤ part ∧ f.kind = 0x51 ∧ r.code = .ok ∧
      v.buffer = front ++ { frame := f, reply := some (stamp, r) } :: back ∧ ∀ e ∈ front, ∀ m, e.reply ≠ some (stamp, m) := by
  constructor
  · intro h
    unfold Svp.sendingReset at h
    split at h
    next => cases h
    next t ht =>
      split at h
      next stamp hitem =>
        rw [Bool.and_eq_true, decide_eq_true_eq] at h
        obtain ⟨hpart, hreply⟩ := h
        split at hreply
        next k f r hfind =>
          simp only [Svp.isResetReply, Bool.and_eq_true, beq_iff_eq] at hreply
          obtain ⟨⟨hresetting, hkind⟩, hcode⟩ := hreply
          obtain ⟨front, back, hb, hf⟩ := (find_madeReply v.buffer stamp f r).1 ⟨k, hfind⟩
          exact ⟨hresetting, front, back, f, r, stamp, t.part, t.parts, by rw [ht, ← hitem], hpart, hkind, hcode, hb, hf⟩
        next => cases hreply
      next => cases h
  · rintro ⟨hresetting, front, back, f, r, stamp, part, parts, htx, hpart, hkind, hcode, hb, hf⟩
    obtain ⟨k, hfind⟩ := (find_madeReply v.buffer stamp f r).2 ⟨front, back, hb, hf⟩
    unfold Svp.sendingReset
    simp only [htx]
    rw [Svp.madeReplies, hfind]
    simp [Svp.isResetReply, hresetting, hkind, hcode, hpart]

/-- R202: the last byte of the reply to RESET is the reset. -/
theorem State.frameSent_reset {s : State} {front back : List BufEntry} {f : HostFrame} {r : Reply} {stamp part : Nat}
    (hresetting : s.svp.resetting = true) (hkind : f.kind = 0x51) (hcode : r.code = .ok)
    (htx : s.svp.tx = some { item := .reply stamp, part := part, parts := part })
    (hb : s.svp.buffer = front ++ { frame := f, reply := some (stamp, r) } :: back)
    (hf : ∀ e ∈ front, ∀ m, e.reply ≠ some (stamp, m)) :
    s.frameSent = { s.resetNow with lines := s.lines.sending (.reply f.tag f.kind r part part) } := by
  obtain ⟨k, hfind⟩ := (find_madeReply s.svp.buffer stamp f r).2 ⟨front, back, hb, hf⟩
  unfold State.frameSent
  simp only [htx]
  rw [Svp.madeReplies, hfind]
  simp only [lt_irrefl, if_false, Svp.isResetReply, hresetting, hkind, hcode, beq_self_eq_true, Bool.and_self, if_true]
  rfl

/-- Settles O49. -/
theorem resetsReturnToPowerOn : Obligations.ResetsReturnToPowerOn := by
  refine ⟨fun s b1 b0 => ?_, fun s => ?_, fun s => ⟨fun hsends => ?_, fun hsends => ?_⟩, fun s tag h => ?_, ?_⟩
  · refine ⟨_, rfl, s.emptied_of_reset _ _ _, rfl, rfl, ?_⟩
    rw [← rateOf_eq]
    rfl
  · exact ⟨_, rfl, s.emptied_of_reset _ _ _, rfl, rfl, rfl⟩
  · have hv := (Svp.sendingReset_iff s.svp).2 hsends
    change event _ s = event _ s
    rw [event_next, event_next]
    simp only [show s.quiet.svp.sendingReset = true from hv, if_true]
  · have hv := mt (Svp.sendingReset_iff s.svp).1 hsends
    change event _ s = _
    rw [event_next, if_neg (show ¬ s.quiet.svp.sendingReset = true from hv)]
    rfl
  · change execReset tag [] s = _
    unfold execReset
    rw [hostCommand_taken h]
    exact congrArg (fun v => Host.Outcome.next { s with svp := v, lines := Lines.quiet })
      (Svp.startTx_resetting (((s.taken 0x51 tag []).svp).makeReply (.plain .ok)) true)
  · intro s front back f r stamp part hresetting hkind hcode htx hb hf
    refine ⟨_, (event_next _ _).trans rfl, ?_⟩
    rw [State.frameSent_reset (s := s.quiet) hresetting hkind hcode htx hb hf]
    exact ⟨s.emptied_of_reset _ _ _, rfl, rfl, rfl⟩

end Sys2Proof.Machine

/-! O56: the formats of the register's records (11.3). A field written is read back wherever it stands in the body. -/

namespace Sys2Proof.Machine

/-! ### Fields in a body -/

@[simp] theorem length_bytesOf (len n : Nat) : (bytesOf len n).length = len := by
  induction len with
  | zero => rfl
  | succ k ih => simp [bytesOf, ih]

@[simp] theorem length_bytesOfInt (len : Nat) (v : Int) : (bytesOfInt len v).length = len := length_bytesOf _ _

theorem numberOf_foldl_bytesOf (len n a : Nat) :
    (bytesOf len n).foldl (fun a b => a * 256 + b.toNat) a = a * 256 ^ len + n % 256 ^ len := by
  induction len generalizing a with
  | zero => simp [bytesOf, Nat.mod_one]
  | succ k ih =>
    rw [bytesOf, List.foldl_cons, ih, BitVec.toNat_ofNat, show n % 256 ^ (k + 1) = n % 256 ^ k + 256 ^ k * (n / 256 ^ k % 256) by
      rw [pow_succ, Nat.mod_mul]]
    ring

/-- A number that fits is read back from its bytes. -/
theorem numberOf_bytesOf {len n : Nat} (h : n < 256 ^ len) : numberOf (bytesOf len n) = n := by
  rw [numberOf, numberOf_foldl_bytesOf, Nat.mod_eq_of_lt h]
  omega

/-- A field behind a first part is read past it. -/
theorem fieldAt_append {xs : List Byte} {off : Nat} (h : xs.length ≤ off) (ys : List Byte) (len : Nat) :
    fieldAt (xs ++ ys) off len = fieldAt ys (off - xs.length) len := by
  rw [fieldAt, List.drop_append, List.drop_eq_nil_of_le h, List.nil_append, fieldAt]

theorem flagAt_append {xs : List Byte} {off : Nat} (h : xs.length ≤ off) (ys : List Byte) (i : Nat) :
    flagAt (xs ++ ys) off i = flagAt ys (off - xs.length) i := by
  rw [flagAt, List.getD_append_right _ _ _ _ h, flagAt]

/-- A field that stands first is read back, whatever follows it. -/
theorem fieldAt_bytesOf_append {len n : Nat} (h : n < 256 ^ len) (ys : List Byte) : fieldAt (bytesOf len n ++ ys) 0 len = n := by
  rw [fieldAt, List.drop_zero, List.take_append_of_le_length (by simp), List.take_of_length_le (by simp), numberOf_bytesOf h]

theorem fieldAt_bytesOf {len n : Nat} (h : n < 256 ^ len) : fieldAt (bytesOf len n) 0 len = n := by
  simpa using fieldAt_bytesOf_append h []

theorem fieldAt_bytesOf_skip {k n off : Nat} (h : k ≤ off) (ys : List Byte) (len : Nat) :
    fieldAt (bytesOf k n ++ ys) off len = fieldAt ys (off - k) len := by
  rw [fieldAt_append (by simpa using h), length_bytesOf]

theorem fieldAt_bytesOfInt_skip {k off : Nat} {v : Int} (h : k ≤ off) (ys : List Byte) (len : Nat) :
    fieldAt (bytesOfInt k v ++ ys) off len = fieldAt ys (off - k) len := fieldAt_bytesOf_skip h ys len

theorem fieldAt_cons_skip {b : Byte} {off : Nat} (h : 1 ≤ off) (ys : List Byte) (len : Nat) :
    fieldAt (b :: ys) off len = fieldAt ys (off - 1) len := fieldAt_append (xs := [b]) h ys len

theorem flagAt_bytesOf_skip {k n off : Nat} (h : k ≤ off) (ys : List Byte) (i : Nat) :
    flagAt (bytesOf k n ++ ys) off i = flagAt ys (off - k) i := by
  rw [flagAt_append (by simpa using h), length_bytesOf]

/-- A signed number that fits is read back from its bytes (R205). -/
theorem signedAt_bytesOfInt_append {len : Nat} {v : Int} (hlo : -(256 ^ len : Nat) ≤ 2 * v)
    (hhi : 2 * v < (256 ^ len : Nat)) (ys : List Byte) : signedAt (bytesOfInt len v ++ ys) 0 len = v := by
  have hfit : (if v < 0 then (v + (256 ^ len : Nat)).toNat else v.toNat) < 256 ^ len := by split <;> omega
  rw [signedAt, bytesOfInt, fieldAt_bytesOf_append hfit, signedOf]
  split <;> split <;> omega

theorem signedAt_bytesOf_skip {k n off : Nat} (h : k ≤ off) (ys : List Byte) (len : Nat) :
    signedAt (bytesOf k n ++ ys) off len = signedAt ys (off - k) len := by
  rw [signedAt, fieldAt_bytesOf_skip h, signedAt]

theorem signedAt_bytesOfInt_skip {k off : Nat} {v : Int} (h : k ≤ off) (ys : List Byte) (len : Nat) :
    signedAt (bytesOfInt k v ++ ys) off len = signedAt ys (off - k) len := signedAt_bytesOf_skip h ys len

theorem signedAt_cons_skip {b : Byte} {off : Nat} (h : 1 ≤ off) (ys : List Byte) (len : Nat) :
    signedAt (b :: ys) off len = signedAt ys (off - 1) len := by
  rw [signedAt, fieldAt_cons_skip h, signedAt]

/-! ### Flags -/

theorem testBit_flags (bits : List Bool) (i : Nat) :
    (bits.foldr (fun (b : Bool) (acc : Nat) => acc * 2 + b.toNat) 0).testBit i = bits.getD i false := by
  induction bits generalizing i with
  | nil => simp
  | cons b bits ih =>
    cases i with
    | zero => cases b <;> simp [Nat.testBit_zero]
    | succ j =>
      rw [List.foldr_cons, Nat.testBit_succ, List.getD_cons_succ, ← ih]
      congr 1
      cases b <;> simp [Nat.mul_add_div, Nat.mul_comm]

/-- A bit of a flag byte is the flag it was made of (R205). -/
theorem flagAt_flagByte {i : Nat} (h : i < 8) (bits : List Bool) (ys : List Byte) :
    flagAt (flagByte bits :: ys) 0 i = bits.getD i false := by
  rw [flagAt, List.getD_cons_zero, flagByte, BitVec.getLsbD_ofNat, testBit_flags]
  simp [h]

/-! ### Codes -/

theorem classOf_code (c : ToolClass) : classOf c.code = some c := by cases c <;> rfl
theorem lifeUnitOf_code (u : LifeUnit) : lifeUnitOf u.code = some u := by cases u <;> rfl
theorem governedOf_code (g : Governed) : governedOf g.code = some g := by cases g <;> rfl
theorem custodyOf_code (c : Custody) : custodyOf c.code = some c := by cases c <;> rfl
theorem qcauseOf_code (c : QCause) : qcauseOf c.code = some c := by cases c <;> rfl
theorem headOf_code (h : HeadId) : headOf (headCode h) = some h := by cases h <;> rfl

theorem ToolClass.code_lt (c : ToolClass) : c.code < 256 ^ 1 := by cases c <;> decide
theorem LifeUnit.code_lt (u : LifeUnit) : u.code < 256 ^ 1 := by cases u <;> decide
theorem Governed.code_lt (g : Governed) : g.code < 256 ^ 1 := by cases g <;> decide
theorem Custody.code_lt (c : Custody) : c.code < 256 ^ 1 := by cases c <;> decide
theorem QCause.code_lt (c : QCause) : c.code < 256 ^ 1 := by cases c <;> decide
theorem headCode_lt (h : HeadId) : headCode h < 256 ^ 1 := by cases h <;> decide

/-! ### The type record -/

theorem Band.inRange_iff (b : Band) : b.inRange = true ↔ -20000 ≤ b.lower ∧ b.lower ≤ 0 ∧ 0 ≤ b.upper ∧ b.upper ≤ 20000 := by
  rw [Band.inRange, decide_eq_true_eq]

/-- R2: the checks of LOAD_TYPE on the record alone. -/
theorem TypeRec.inRange_iff (r : TypeRec) : r.inRange = true ↔
    r.nominalLength ≤ 4000000 ∧ r.nominalRadius ≤ 1500000 ∧
    (-20000 ≤ r.lengthBand.lower ∧ r.lengthBand.lower ≤ 0 ∧ 0 ≤ r.lengthBand.upper ∧ r.lengthBand.upper ≤ 20000) ∧
    (-20000 ≤ r.radiusBand.lower ∧ r.radiusBand.lower ≤ 0 ∧ 0 ≤ r.radiusBand.upper ∧ r.radiusBand.upper ≤ 20000) ∧
    r.runoutLimit ≤ 5000 ∧ r.expansion ≤ 3000 ∧ r.adapter ≤ 15 ∧ 1 ≤ r.budget ∧ r.budget ≤ 4000000 ∧ r.warnLevel ≤ 500 ∧
    r.regrindStep ≤ 20000 ∧ r.regrindLimit ≤ 4 ∧ (∀ c ∈ r.home, 1 ≤ c ∧ c ≤ 12) ∧
    (r.adjustable = true ↔ r.adjustBand.isSome = true) ∧
    (∀ a ∈ r.adjustBand, -20000 ≤ a.lower ∧ a.lower ≤ 0 ∧ 0 ≤ a.upper ∧ a.upper ≤ 20000 ∧
      a.lower ≤ r.radiusBand.lower ∧ r.radiusBand.upper ≤ a.upper) ∧
    (r.cls = .lengthOnly → r.adjustable = false ∧ r.governed = .length) := by
  unfold TypeRec.inRange
  cases r.home <;> cases r.adjustBand <;> cases r.cls <;>
    simp [Band.inRange_iff, TypeRec.inRange.cabinetOk', and_assoc]

/-- LOAD_TYPE reads back what READ_TYPE shows, but for held. -/
theorem typeFields_typeBytes {n : Nat} {r : TypeRec} (hr : r.inRange = true) :
    typeFields (typeBytes n r) = some { r with held := false } := by
  obtain ⟨hlength, hradius, hlb, hrb, hrunout, hexpansion, hadapter, -, hbudget, hwarn, hstep, hlimit, hhome, -, hadjust, -⟩ :=
    (TypeRec.inRange_iff r).1 hr
  have h1 : r.nominalLength < 256 ^ 3 := hlength.trans_lt (by norm_num)
  have h2 : r.nominalRadius < 256 ^ 3 := hradius.trans_lt (by norm_num)
  have h3 : r.runoutLimit < 256 ^ 2 := hrunout.trans_lt (by norm_num)
  have h4 : r.expansion < 256 ^ 2 := hexpansion.trans_lt (by norm_num)
  have h5 : r.adapter < 256 ^ 1 := hadapter.trans_lt (by norm_num)
  have h6 : r.budget < 256 ^ 3 := hbudget.trans_lt (by norm_num)
  have h7 : r.warnLevel < 256 ^ 2 := hwarn.trans_lt (by norm_num)
  have h8 : r.regrindStep < 256 ^ 2 := hstep.trans_lt (by norm_num)
  have h9 : r.regrindLimit < 256 ^ 1 := hlimit.trans_lt (by norm_num)
  have h10 : r.home.getD 0 < 256 ^ 1 := by
    cases hh : r.home with
    | none => norm_num
    | some c => exact (hhome c hh).2.trans_lt (by norm_num)
  have signed : ∀ v : Int, -20000 ≤ v ∧ v ≤ 20000 → ∀ ys, signedAt (bytesOfInt 2 v ++ ys) 0 2 = v :=
    fun v hv ys => signedAt_bytesOfInt_append (by norm_num; omega) (by norm_num; omega) ys
  have hadj : (-20000 ≤ (r.adjustBand.getD ⟨0, 0⟩).lower ∧ (r.adjustBand.getD ⟨0, 0⟩).lower ≤ 20000) ∧
      -20000 ≤ (r.adjustBand.getD ⟨0, 0⟩).upper ∧ (r.adjustBand.getD ⟨0, 0⟩).upper ≤ 20000 := by
    cases ha : r.adjustBand with
    | none => simp
    | some a =>
      have := hadjust a ha
      simp only [Option.getD_some]
      omega
  have s1 := signed r.lengthBand.lower (by omega)
  have s2 := signed r.lengthBand.upper (by omega)
  have s3 := signed r.radiusBand.lower (by omega)
  have s4 := signed r.radiusBand.upper (by omega)
  have s5 := signed _ hadj.1
  have s6 := signed _ hadj.2
  unfold typeFields typeBytes
  simp only [List.append_assoc, List.cons_append, List.nil_append, fieldAt_bytesOf_skip, fieldAt_bytesOfInt_skip, fieldAt_cons_skip,
    flagAt_bytesOf_skip, signedAt_bytesOf_skip, signedAt_bytesOfInt_skip, signedAt_cons_skip, le_refl, Nat.reduceLeDiff, Nat.reduceSub,
    fieldAt_bytesOf_append, fieldAt_bytesOf, flagAt_flagByte, Nat.reduceLT, ToolClass.code_lt, LifeUnit.code_lt, Governed.code_lt,
    h1, h2, h3, h4, h5, h6, h7, h8, h9, h10, s1, s2, s3, s4, s5, s6, classOf_code, lifeUnitOf_code, governedOf_code,
    List.getD_cons_zero, List.getD_cons_succ]
  cases r.adjustBand <;> cases r.home <;> rfl

/-! ### The instance record -/

/-- The four codes of a location (11.3). -/
def Location.codes (l : Location) : Nat × Nat × Nat × Nat :=
  match l with
  | .nowhere => (0, 0, 0, 0)
  | .pocket c p => (1, 0, c, p)
  | .bench => (2, 0, 0, 0)
  | .head h => (3, 0, headCode h, 0)
  | .toStation s p => (4, 1, s, p)
  | .toBench => (4, 2, 0, 0)
  | .backStation s => (4, 3, s, 0)
  | .backBench => (4, 4, 0, 0)
  | .station s p => (5, 0, s, p)
  | .offsite => (6, 0, 0, 0)

theorem Location.bytes_eq (l : Location) :
    l.bytes = bytesOf 1 l.codes.1 ++ bytesOf 1 l.codes.2.1 ++ bytesOf 1 l.codes.2.2.1 ++ bytesOf 1 l.codes.2.2.2 := by
  cases l <;> rfl

/-- The details of a location lie within what its four bytes hold and the layout lists. -/
structure Location.Listed (l : Location) : Prop where
  pocket : ∀ c p, l = .pocket c p → 1 ≤ c ∧ c ≤ 12 ∧ 1 ≤ p ∧ p ≤ 64
  station : ∀ st p, l = .toStation st p ∨ l = .station st p → 1 ≤ st ∧ st ≤ 32 ∧ p < 256
  back : ∀ st, l = .backStation st → 1 ≤ st ∧ st ≤ 32

theorem Location.Listed.codes_lt {l : Location} (h : l.Listed) :
    l.codes.1 < 256 ^ 1 ∧ l.codes.2.1 < 256 ^ 1 ∧ l.codes.2.2.1 < 256 ^ 1 ∧ l.codes.2.2.2 < 256 ^ 1 := by
  cases l with
  | pocket c p => have := h.pocket c p rfl; simp only [Location.codes]; omega
  | toStation st p => have := h.station st p (Or.inl rfl); simp only [Location.codes]; omega
  | station st p => have := h.station st p (Or.inr rfl); simp only [Location.codes]; omega
  | backStation st => have := h.back st rfl; simp only [Location.codes]; omega
  | head k => cases k <;> decide
  | nowhere => decide
  | bench => decide
  | toBench => decide
  | backBench => decide
  | offsite => decide

theorem Location.Listed.read {l : Location} (h : l.Listed) :
    locationOf l.codes.1 l.codes.2.1 l.codes.2.2.1 l.codes.2.2.2 = some l := by
  cases l with
  | pocket c p => exact if_pos (decide_eq_true (h.pocket c p rfl))
  | toStation st p =>
    obtain ⟨hlo, hhi, -⟩ := h.station st p (Or.inl rfl)
    exact if_pos (decide_eq_true ⟨hlo, hhi⟩)
  | station st p =>
    obtain ⟨hlo, hhi, -⟩ := h.station st p (Or.inr rfl)
    exact if_pos (decide_eq_true ⟨hlo, hhi⟩)
  | backStation st => exact if_pos (decide_eq_true (h.back st rfl))
  | head k => cases k <;> rfl
  | nowhere => rfl
  | bench => rfl
  | toBench => rfl
  | backBench => rfl
  | offsite => rfl

theorem fieldAt_zeros_skip {k off : Nat} (h : k ≤ off) (ys : List Byte) (len : Nat) :
    fieldAt (List.replicate k 0 ++ ys) off len = fieldAt ys (off - k) len := by
  rw [fieldAt_append (by simpa using h), List.length_replicate]

/-- The fields of an instance record fit their bytes (11.3). -/
structure InstRec.Fits (r : InstRec) : Prop where
  type : r.type < 256 ^ 2
  generation : r.generation < 256 ^ 2
  life : r.life < 256 ^ 3
  marks : r.marks ≤ 4
  link : ∀ k ∈ r.link, 1 ≤ k ∧ k < 256
  meas : ∀ m ∈ r.meas, m.length ≤ 4000000 ∧ m.radius ≤ 1500000 ∧ m.runout ≤ 1500000 ∧ m.time.sec < 256 ^ 4 ∧ m.time.ms ≤ 999
  last : ∀ l ∈ r.last, 1 ≤ l.station ∧ l.station ≤ 32 ∧ l.generation < 256 ^ 2
  loc : r.loc.Listed

/-- The sixteen bytes of a measurement, or their zeros. -/
def measBytes (meas : Option Measurement) : List Byte :=
  match meas with
  | some m =>
    bytesOf 3 m.length ++ bytesOf 3 m.radius ++ bytesOf 3 m.runout ++ bytesOf 4 m.time.sec ++ bytesOf 2 m.time.ms ++
    bytesOf 1 (headCode m.head)
  | none => List.replicate 16 0

/-- The three bytes of the last station, or their zeros. -/
def lastBytes (last : Option LastStation) : List Byte :=
  match last with
  | some l => bytesOf 1 l.station ++ bytesOf 2 l.generation
  | none => List.replicate 3 0

theorem instBytes_eq (n : Nat) (r : InstRec) :
    instBytes n r =
      bytesOf 2 n ++ bytesOf 2 r.type ++ bytesOf 1 r.custody.code ++
      (bytesOf 1 r.loc.codes.1 ++ bytesOf 1 r.loc.codes.2.1 ++ bytesOf 1 r.loc.codes.2.2.1 ++ bytesOf 1 r.loc.codes.2.2.2) ++
      [flagByte [r.meas.isSome, r.warned, r.spent, r.owed, r.link.isSome, r.qcause.isSome, r.last.isSome,
        (r.meas.map (·.thermalLimited)).getD false]] ++
      measBytes r.meas ++ bytesOf 2 r.generation ++ bytesOf 3 r.life ++ bytesOf 1 r.marks ++ bytesOf 1 (r.link.getD 0) ++
      bytesOf 1 ((r.qcause.map QCause.code).getD 0) ++ lastBytes r.last := by
  rw [← Location.bytes_eq]
  rfl

theorem length_measBytes (meas : Option Measurement) : (measBytes meas).length = 16 := by
  cases meas <;> simp [measBytes]

theorem length_lastBytes (last : Option LastStation) : (lastBytes last).length = 3 := by
  cases last <;> simp [lastBytes]

theorem fieldAt_measBytes_skip {meas : Option Measurement} {off : Nat} (h : 16 ≤ off) (ys : List Byte) (len : Nat) :
    fieldAt (measBytes meas ++ ys) off len = fieldAt ys (off - 16) len := by
  rw [fieldAt_append (by rwa [length_measBytes]), length_measBytes]

/-- R14: a measurement in range is read back. -/
theorem measFields_measBytes {meas : Option Measurement}
    (h : ∀ m ∈ meas, m.length ≤ 4000000 ∧ m.radius ≤ 1500000 ∧ m.runout ≤ 1500000 ∧ m.time.sec < 256 ^ 4 ∧ m.time.ms ≤ 999)
    (ys : List Byte) {α : Type} (k : Option Measurement → Option α) :
    (if meas.isSome = true then (do
        let head ← headOf (fieldAt (measBytes meas ++ ys) 15 1)
        if decide (fieldAt (measBytes meas ++ ys) 0 3 ≤ 4000000 ∧ fieldAt (measBytes meas ++ ys) 3 3 ≤ 1500000 ∧
            fieldAt (measBytes meas ++ ys) 6 3 ≤ 1500000 ∧ fieldAt (measBytes meas ++ ys) 13 2 ≤ 999) = true then
          pure (some
            { length := fieldAt (measBytes meas ++ ys) 0 3
              radius := fieldAt (measBytes meas ++ ys) 3 3
              runout := fieldAt (measBytes meas ++ ys) 6 3
              time := ⟨fieldAt (measBytes meas ++ ys) 9 4, fieldAt (measBytes meas ++ ys) 13 2⟩
              head := head
              thermalLimited := (meas.map (·.thermalLimited)).getD false })
        else none) >>= k
      else pure none >>= k) = k meas := by
  cases meas with
  | none => rfl
  | some m =>
    obtain ⟨hlength, hradius, hrunout, hsec, hms⟩ := h m rfl
    have h1 : m.length < 256 ^ 3 := hlength.trans_lt (by norm_num)
    have h2 : m.radius < 256 ^ 3 := hradius.trans_lt (by norm_num)
    have h3 : m.runout < 256 ^ 3 := hrunout.trans_lt (by norm_num)
    have h4 : m.time.ms < 256 ^ 2 := hms.trans_lt (by norm_num)
    simp only [measBytes, List.append_assoc, fieldAt_bytesOf_skip, le_refl, Nat.reduceLeDiff, Nat.reduceSub, fieldAt_bytesOf_append,
      h1, h2, h3, h4, hsec, headCode_lt, headOf_code, hlength, hradius, hrunout, hms, and_self, decide_true, if_true]
    rfl

theorem lastFields_lastBytes {last : Option LastStation}
    (h : ∀ l ∈ last, 1 ≤ l.station ∧ l.station ≤ 32 ∧ l.generation < 256 ^ 2) {α : Type} (k : Option LastStation → Option α) :
    (if last.isSome = true then
        (if decide (1 ≤ fieldAt (lastBytes last) 0 1 ∧ fieldAt (lastBytes last) 0 1 ≤ 32) = true then
          pure (some ⟨fieldAt (lastBytes last) 0 1, fieldAt (lastBytes last) 1 2⟩)
        else none) >>= k
      else pure none >>= k) = k last := by
  cases last with
  | none => rfl
  | some l =>
    obtain ⟨hlo, hhi, hgen⟩ := h l rfl
    have h1 : l.station < 256 ^ 1 := hhi.trans_lt (by norm_num)
    simp only [lastBytes, fieldAt_bytesOf_append h1, fieldAt_bytesOf_skip, le_refl, Nat.sub_self, fieldAt_bytesOf hgen, hlo, hhi,
      and_self, decide_true, if_true]
    rfl

theorem linkFields_link {link : Option Nat} (h : ∀ n ∈ link, 1 ≤ n) {α : Type} (k : Option Nat → Option α) :
    (if link.isSome = true then (if decide (1 ≤ link.getD 0) = true then pure (some (link.getD 0)) else none) >>= k
      else pure none >>= k) = k link := by
  cases link with
  | none => rfl
  | some n => simp [h n rfl]

theorem qcauseFields_qcause (qcause : Option QCause) {α : Type} (k : Option QCause → Option α) :
    (if qcause.isSome = true then (qcauseOf ((qcause.map QCause.code).getD 0)).map some >>= k else pure none >>= k) = k qcause := by
  cases qcause with
  | none => rfl
  | some c => simp [qcauseOf_code]

/-- The bytes of an instance record behind its measurement. -/
def InstRec.tailBytes (r : InstRec) : List Byte :=
  bytesOf 2 r.generation ++ (bytesOf 3 r.life ++ (bytesOf 1 r.marks ++ (bytesOf 1 (r.link.getD 0) ++
    (bytesOf 1 ((r.qcause.map QCause.code).getD 0) ++ lastBytes r.last))))

/-- The fields that stand before the measurement in an instance record, and its flags. -/
theorem instBytes_head {n : Nat} {r : InstRec} (hr : r.Fits) :
    fieldAt (instBytes n r) 2 2 = r.type ∧ fieldAt (instBytes n r) 4 1 = r.custody.code ∧
    fieldAt (instBytes n r) 5 1 = r.loc.codes.1 ∧ fieldAt (instBytes n r) 6 1 = r.loc.codes.2.1 ∧
    fieldAt (instBytes n r) 7 1 = r.loc.codes.2.2.1 ∧ fieldAt (instBytes n r) 8 1 = r.loc.codes.2.2.2 ∧
    (∀ i < 8, flagAt (instBytes n r) 9 i =
      [r.meas.isSome, r.warned, r.spent, r.owed, r.link.isSome, r.qcause.isSome, r.last.isSome,
        (r.meas.map (·.thermalLimited)).getD false].getD i false) ∧
    ∀ off, 10 ≤ off → ∀ len, fieldAt (instBytes n r) off len = fieldAt (measBytes r.meas ++ r.tailBytes) (off - 10) len := by
  obtain ⟨l1, l2, l3, l4⟩ := hr.loc.codes_lt
  simp only [instBytes_eq, InstRec.tailBytes, List.append_assoc, List.cons_append, List.nil_append]
  refine ⟨?_, ?_, ?_, ?_, ?_, ?_, fun i hi => ?_, fun off hoff len => ?_⟩
  case refine_7 => simp only [flagAt_bytesOf_skip, le_refl, Nat.reduceLeDiff, Nat.reduceSub, flagAt_flagByte hi]
  case refine_8 =>
    rw [fieldAt_bytesOf_skip (by omega), fieldAt_bytesOf_skip (by omega), fieldAt_bytesOf_skip (by omega),
      fieldAt_bytesOf_skip (by omega), fieldAt_bytesOf_skip (by omega), fieldAt_bytesOf_skip (by omega),
      fieldAt_bytesOf_skip (by omega), fieldAt_cons_skip (by omega)]
    congr 1
  all_goals simp only [fieldAt_bytesOf_skip, le_refl, Nat.reduceLeDiff, Nat.reduceSub, fieldAt_bytesOf_append, hr.type,
    Custody.code_lt, l1, l2, l3, l4]

/-- The fields that stand behind the measurement. -/
theorem instBytes_tail {r : InstRec} (hr : r.Fits) :
    fieldAt (measBytes r.meas ++ r.tailBytes) 16 2 = r.generation ∧ fieldAt (measBytes r.meas ++ r.tailBytes) 18 3 = r.life ∧
    fieldAt (measBytes r.meas ++ r.tailBytes) 21 1 = r.marks ∧ fieldAt (measBytes r.meas ++ r.tailBytes) 22 1 = r.link.getD 0 ∧
    fieldAt (measBytes r.meas ++ r.tailBytes) 23 1 = (r.qcause.map QCause.code).getD 0 ∧
    fieldAt (measBytes r.meas ++ r.tailBytes) 24 1 = fieldAt (lastBytes r.last) 0 1 ∧
    fieldAt (measBytes r.meas ++ r.tailBytes) 25 2 = fieldAt (lastBytes r.last) 1 2 := by
  have hmarks : r.marks < 256 ^ 1 := hr.marks.trans_lt (by norm_num)
  have hlink : r.link.getD 0 < 256 ^ 1 := by
    cases hk : r.link with
    | none => norm_num
    | some k => exact (hr.link k hk).2
  have hq : (r.qcause.map QCause.code).getD 0 < 256 ^ 1 := by
    cases r.qcause with
    | none => norm_num
    | some c => exact c.code_lt
  simp only [InstRec.tailBytes, fieldAt_measBytes_skip, fieldAt_bytesOf_skip, le_refl, Nat.reduceLeDiff, Nat.reduceSub,
    fieldAt_bytesOf_append, hr.generation, hr.life, hmarks, hlink, hq, and_self]

/-- LOAD_INSTANCE reads back what READ_INSTANCE shows. -/
theorem instFields_instBytes {n : Nat} {r : InstRec} (hr : r.Fits) : instFields (instBytes n r) = some r := by
  obtain ⟨htype, hcustody, hkind, hsub, ha, hb, hflags, hrest⟩ := instBytes_head (n := n) hr
  obtain ⟨hgen, hlife, hmarks, hlink, hqcause, hstation, hlastgen⟩ := instBytes_tail hr
  unfold instFields
  simp only [htype, hcustody, hkind, hsub, ha, hb, hflags, hrest, Nat.reduceLT, Nat.reduceLeDiff, le_refl, Nat.reduceSub, hgen, hlife,
    hmarks, hlink, hqcause, hstation, hlastgen, List.getD_cons_zero, List.getD_cons_succ]
  rw [custodyOf_code, hr.loc.read]
  refine (measFields_measBytes hr.meas r.tailBytes _).trans ?_
  refine (linkFields_link (fun k hk => (hr.link k hk).1) _).trans ?_
  refine (qcauseFields_qcause r.qcause _).trans ?_
  refine (lastFields_lastBytes hr.last _).trans ?_
  exact if_pos (decide_eq_true hr.marks)

/-- Settles O56. -/
theorem registerRecordsRoundTrip : Obligations.RegisterRecordsRoundTrip := by
  refine ⟨fun n r hn hr => ⟨?_, ?_, typeFields_typeBytes hr⟩,
    fun n r hn htype hgen hlife hmarks hlink hmeas hlast hpocket hstation hback => ⟨?_, ?_, instFields_instBytes ?_⟩⟩
  · unfold typeBytes
    simp only [List.length_append, length_bytesOf, length_bytesOfInt, List.length_cons, List.length_nil]
  · unfold typeBytes
    simp only [List.append_assoc]
    exact fieldAt_bytesOf_append hn _
  · rw [instBytes_eq]
    simp only [List.length_append, length_bytesOf, List.length_cons, List.length_nil, length_measBytes, length_lastBytes]
  · rw [instBytes_eq]
    simp only [List.append_assoc]
    exact fieldAt_bytesOf_append hn _
  · exact ⟨htype, hgen, hlife, hmarks, hlink, hmeas, hlast, hpocket, hstation, hback⟩

end Sys2Proof.Machine

/-! What allocation, put-away and HOE's cancelled transactions leave of one instance, one pocket and the queue of requests. -/

namespace Sys2Proof.Machine

open State

/-! ### The frame of a command's run -/

/-- The step of a command taken at once whose run ends in a state that has handed over these reports (R191, R196). -/
theorem hostCommand_runs {kind tag : Byte} {body : List Byte} {s u : State} {r : Reply} {rs : List Report}
    {run : State → State × Reply} (h : s.takesNow kind tag body = true) (hr : run (s.taken kind tag body) = (u, r))
    (hs : u.svp = (s.taken kind tag body).svp.handed s.now rs) :
    hostCommand kind tag body run s = .next { u with svp := s.svpAnswered kind tag body rs r } := by
  have hrun : (run (s.taken kind tag body)).1.svp = (s.taken kind tag body).svp.handed s.now rs := by rw [hr]; exact hs
  rw [hostCommand_handed h hrun, hr]

/-- A run of the register, the crib, issue and handoff, taken by a command, leaves the rest of the part as it was. -/
theorem State.Runs.toolsOnly {s t : State} {kind tag : Byte} {body : List Byte} (h : (s.taken kind tag body).Runs t) (v : Svp) :
    s.ToolsOnly { t with svp := v } := by
  rw [h.2]
  exact ⟨rfl, rfl, rfl, rfl, rfl, rfl⟩

theorem State.Issues.runs {s t : State} (h : s.Issues t) : s.Runs t := by
  refine ⟨h.1, ?_⟩
  rw [h.2]

/-- The same of a run in an event. -/
theorem State.Runs.toolsOnly_of_quiet {s t : State} (h : s.quiet.Runs t) (v : Svp) : s.ToolsOnly { t with svp := v } := by
  rw [h.2]
  exact ⟨rfl, rfl, rfl, rfl, rfl, rfl⟩

theorem State.PutsAway.queue_eq {s t : State} (h : s.PutsAway t) : t.isc.queue = s.isc.queue := by rw [h.2]

theorem State.PutsAway.latePicks_eq {s t : State} (h : s.PutsAway t) : t.isc.latePicks = s.isc.latePicks := by rw [h.2]

/-- Every instance but one stands, where an operation writes that one alone and another passes all by. -/
theorem State.AllPassedBy.others {s t u : State} {n : Nat} (h : s.OthersStand t n) (k : t.AllPassedBy u) :
    s.OthersPassedBy u n := by
  intro m hm
  have := k m
  rwa [h m hm] at this

theorem State.OthersPassedBy.trans {s t u : State} {n : Nat} (h : s.OthersPassedBy t n) (k : t.AllPassedBy u) :
    s.OthersPassedBy u n := by
  intro m hm
  refine ⟨fun hs => (k m).1 ((h m hm).1 hs), fun i hi => ?_⟩
  obtain ⟨j, hj, hij⟩ := (h m hm).2 i hi
  obtain ⟨l, hl, hjl⟩ := (k m).2 j hj
  exact ⟨l, hl, hij.trans hjl⟩

theorem State.OthersStand.passed {s t : State} {n : Nat} (h : s.OthersStand t n) : s.OthersPassedBy t n :=
  (State.AllPassedBy.refl t).others h

/-! ### Transitions -/

@[simp] theorem State.tool_move (s : State) (n m : Nat) (r : InstRec) (v : Move) :
    (s.move n r v).tool m = if m = n then some (r.moved v) else s.tool m := by
  simp [State.move, State.transition]

theorem State.move_svp (s : State) (n : Nat) (r : InstRec) (v : Move) :
    (s.move n r v).svp = s.svp.handed s.now [changeReport n r (r.moved v) v.cause] := rfl

/-- R55 to R58: an instance reserved in an allocation keeps its location. -/
theorem State.tool_reserve (s : State) (r : Request) (n m : Nat) (i : InstRec) (hi : i.custody ≠ .issued) :
    (s.reserve r n i).tool m =
      if m = n then some { i with custody := .reserved, link := some r.number, qcause := none } else s.tool m := by
  simp only [State.tool, State.reserve_trg, tget_tset, if_neg hi]

/-! ### Put-away -/

/-- R67: put-away reports CRIB_FULL at most. -/
theorem State.tryPutaway_reports (s : State) (n : Nat) : ∃ rs, (s.tryPutaway n).svp = s.svp.handed s.now rs ∧
    (rs = [] ∨ ∃ r, s.tool n = some r ∧ rs = [.cribFull n r.custody (zoneFor r (s.isDamaged n))]) := by
  unfold State.tryPutaway
  split
  · split
    · exact ⟨[], rfl, .inl rfl⟩
    · rename_i r hr
      dsimp only
      split
      · exact ⟨[], rfl, .inl rfl⟩
      · split
        · exact ⟨[], rfl, .inl rfl⟩
        · exact ⟨_, rfl, .inr ⟨r, hr, rfl⟩⟩
  · exact ⟨[], rfl, .inl rfl⟩

theorem State.needsPutaway_of {s : State} {n : Nat} {i : InstRec} (hn : s.tool n = some i) (hi : i.wantsPutaway = false) :
    s.needsPutaway n = false := by
  simp [State.needsPutaway, hn, hi]

/-- An instance that stands in no put-away state is not put away (R67). -/
theorem State.tryPutaway_idle {s : State} {n : Nat} {i : InstRec} (hn : s.tool n = some i) (hi : i.wantsPutaway = false) :
    s.tryPutaway n = s := by
  simp [State.tryPutaway, State.needsPutaway_of hn hi]

theorem State.noticeIfFree_keeps {α : Type} {π : State → α} (h : ∀ s n, π (assignIfFree s n) = π s) (s : State) (c p : Nat) :
    π (s.noticeIfFree c p) = π s := by
  unfold State.noticeIfFree State.freeNotice
  split
  · exact State.foldl_keeps h _ _
  · rfl

theorem State.assignIfFree_damaged (s : State) (n : Nat) : (s.assignIfFree n).isc.damaged = s.isc.damaged := by
  unfold State.assignIfFree
  split
  · split
    · rfl
    · dsimp only
      split <;> rfl
  · rfl

/-- R68: what leaves put-away is no longer marked damaged; nothing else is unmarked. -/
theorem State.leavePutaway_damaged (s : State) (n : Nat) :
    (s.leavePutaway n).isc.damaged = s.isc.damaged.filter (fun k => k ≠ n) := by
  unfold State.leavePutaway State.dropAssignment
  split
  · unfold State.vacateAssigned
    dsimp only
    split
    · exact State.noticeIfFree_keeps (π := fun s => s.isc.damaged) State.assignIfFree_damaged _ _ _
    · rfl
  · rfl

/-- R67: an instance gets an assignment only where it waits and needs put-away. -/
theorem State.assignIfFree_unassigned {s : State} {n m : Nat} (h : tget s.isc.assigned n = none)
    (hm : m = n → s.needsPutaway n = false) : tget (s.assignIfFree m).isc.assigned n = none := by
  unfold State.assignIfFree
  split
  · rename_i hneeds
    have hne : n ≠ m := by
      rintro rfl
      rw [hm rfl] at hneeds
      cases hneeds
    split
    · exact h
    · dsimp only
      split
      · exact (tget_tset_ne _ _ hne).trans h
      · exact h
  · exact h

theorem State.assignIfFree_trg (s : State) (n : Nat) : (s.assignIfFree n).trg = s.trg :=
  ((State.PutsAway.refl s).assignIfFree n).trg_eq

theorem tget_ne_none {α : Type} {t : Table α} {e : Nat × α} (h : e ∈ t) : tget t e.1 ≠ none := by
  induction t with
  | nil => cases h
  | cons x rest ih =>
    rw [show x :: rest = (x.1, x.2) :: rest from rfl, tget_cons]
    split
    · simp
    · rcases List.mem_cons.1 h with rfl | hr
      · contradiction
      · exact ih hr

theorem mem_of_mem_sortBy {α : Type} {key : α → Nat} {xs : List α} {x : α} (h : x ∈ sortBy key xs) : x ∈ xs := by
  have insert : ∀ (y : α) (l : List α), x ∈ insertBy key y l → x = y ∨ x ∈ l := by
    intro y l hl
    induction l with
    | nil => exact .inl (List.mem_singleton.1 hl)
    | cons z rest ih =>
      rw [insertBy] at hl
      split at hl
      · exact List.mem_cons.1 hl
      · rcases List.mem_cons.1 hl with rfl | hr
        · exact .inr List.mem_cons_self
        · exact (ih hr).imp_right (List.mem_cons_of_mem _)
  have fold : ∀ (l acc : List α), x ∈ l.foldl (fun acc x => insertBy key x acc) acc → x ∈ l ∨ x ∈ acc := by
    intro l
    induction l with
    | nil => exact fun acc h => .inr h
    | cons y rest ih =>
      intro acc h
      rcases ih _ h with hr | ha
      · exact .inl (List.mem_cons_of_mem _ hr)
      · rcases insert y acc ha with rfl | ha
        · exact .inl List.mem_cons_self
        · exact .inr ha
  exact (fold xs [] h).resolve_right (by simp)

theorem State.noticeIfFree_unassigned {s : State} {n c p : Nat} (h : tget s.isc.assigned n = none)
    (hn : tget s.isc.waiting n = none ∨ ∀ i, s.tool n = some i → i.wantsPutaway = false) :
    tget (s.noticeIfFree c p).isc.assigned n = none := by
  have fold : ∀ (xs : List Nat), (n ∉ xs ∨ ∀ i, s.tool n = some i → i.wantsPutaway = false) → ∀ t : State, t.trg = s.trg →
      tget t.isc.assigned n = none → tget (xs.foldl (fun s n => s.assignIfFree n) t).isc.assigned n = none := by
    intro xs
    induction xs with
    | nil => exact fun _ t _ ht => ht
    | cons x xs ih =>
      intro hx t htrg ht
      refine ih (hx.imp_left (mt (List.mem_cons_of_mem _))) _ ((t.assignIfFree_trg x).trans htrg)
        (State.assignIfFree_unassigned ht ?_)
      rintro rfl
      have hno := hx.resolve_left (by simp)
      rw [← State.tool_of_trg htrg] at hno
      unfold State.needsPutaway
      split
      · rename_i i hi
        simp [hno i hi]
      · rfl
  unfold State.noticeIfFree State.freeNotice
  split
  · refine fold _ (hn.imp_left fun hw hmem => ?_) s rfl h
    rw [State.waitingOrder, List.mem_map] at hmem
    obtain ⟨e, he, rfl⟩ := hmem
    exact tget_ne_none (mem_of_mem_sortBy he) hw
  · exact h

/-- R67, R71: what leaves put-away holds no assignment. -/
theorem State.leavePutaway_unassigned (s : State) (n : Nat) : tget (s.leavePutaway n).isc.assigned n = none := by
  unfold State.leavePutaway State.dropAssignment
  split
  · unfold State.vacateAssigned State.forgetAssignment
    dsimp only
    split
    · refine State.noticeIfFree_unassigned ?_ (.inl ?_)
      · exact (tget_tdel _ _ _).trans (if_pos rfl)
      · exact (tget_tdel _ _ _).trans (if_pos rfl)
    · exact (tget_tdel _ _ _).trans (if_pos rfl)
  · assumption

/-- R67: another instance that leaves put-away brings no assignment to one that stands in no put-away state. -/
theorem State.leavePutaway_keeps_unassigned {s : State} {n : Nat} {i : InstRec} (m : Nat) (h : tget s.isc.assigned n = none)
    (hn : s.tool n = some i) (hi : i.wantsPutaway = false) : tget (s.leavePutaway m).isc.assigned n = none := by
  unfold State.leavePutaway State.dropAssignment
  split
  · have hdel : tget (tdel s.isc.assigned m) n = none := by
      rw [tget_tdel]
      split
      · rfl
      · exact h
    unfold State.vacateAssigned State.forgetAssignment
    dsimp only
    split
    · refine State.noticeIfFree_unassigned hdel (.inr fun j hj => ?_)
      rw [← Option.some.inj (hn.symm.trans hj)]
      exact hi
    · exact hdel
  · exact h

/-! ### Pockets -/

/-- Every pocket that put-away neither assigns nor gives back stands as it stood. -/
def State.HoldsPockets (s t : State) : Prop :=
  tableSorted s.psc.pockets = true →
    tableSorted t.psc.pockets = true ∧
    ∀ c p, (s.pocket c p).state ≠ .empty → (s.pocket c p).state ≠ .expectPlace → t.pocket c p = s.pocket c p

theorem State.HoldsPockets.of_psc {s t : State} (h : t.psc = s.psc) : s.HoldsPockets t := by
  intro hs
  exact ⟨by rw [h]; exact hs, fun c p _ _ => by rw [State.pocket, h]; rfl⟩

theorem State.HoldsPockets.trans {s t u : State} (h : s.HoldsPockets t) (k : t.HoldsPockets u) : s.HoldsPockets u := by
  intro hs
  obtain ⟨ht, hp⟩ := h hs
  obtain ⟨hu, kp⟩ := k ht
  refine ⟨hu, fun c p he hx => ?_⟩
  have hc := hp c p he hx
  rw [kp c p (by rwa [hc]) (by rwa [hc]), hc]

theorem State.HoldsPockets.noticeIfFree (s : State) (c p : Nat) : s.HoldsPockets (s.noticeIfFree c p) := by
  intro hs
  obtain ⟨hpass, ht⟩ := State.noticeIfFree_passes hs c p
  exact ⟨ht, fun d q he _ => (hpass d q).resolve_right fun h => he h.1⟩

theorem State.HoldsPockets.tryPutaway (s : State) (n : Nat) : s.HoldsPockets (s.tryPutaway n) := by
  intro hs
  refine ⟨?_, fun d q he _ => (State.tryPutaway_passes hs n d q).resolve_right fun h => he h.1⟩
  unfold State.tryPutaway
  split
  · split
    · exact hs
    · dsimp only
      split
      · exact tableSorted_dset _ _ hs
      · split <;> exact hs
  · exact hs

/-- A pocket is rewritten that is not to stand. -/
theorem State.HoldsPockets.setPocket {s : State} {c p : Nat} {r : Pocket}
    (h : (s.pocket c p).state = .empty ∨ (s.pocket c p).state = .expectPlace) : s.HoldsPockets (s.setPocket c p r) := by
  intro hs
  refine ⟨tableSorted_dset _ _ hs, fun d q he hx => ?_⟩
  rw [State.pocket_setPocket, if_neg]
  intro hkey
  have : s.pocket d q = s.pocket c p := by rw [State.pocket, State.pocket, hkey]
  rw [this] at he hx
  exact h.elim he hx

theorem State.HoldsPockets.vacateAssigned (s : State) (a : Assignment) : s.HoldsPockets (s.vacateAssigned a) := by
  unfold State.vacateAssigned
  dsimp only
  split
  · rename_i hx
    exact (State.HoldsPockets.setPocket (.inr hx)).trans (.noticeIfFree _ _ _)
  · exact .of_psc rfl

theorem State.HoldsPockets.leavePutaway (s : State) (n : Nat) : s.HoldsPockets (s.leavePutaway n) := by
  unfold State.leavePutaway State.dropAssignment
  split
  · refine State.HoldsPockets.trans ?_ (State.HoldsPockets.vacateAssigned _ _)
    exact .of_psc rfl
  · exact .of_psc rfl

/-! ### Allocation -/

/-- R55, R57, R58: what an allocation for one request does. -/
theorem State.allocateFor_cases (s : State) (number : Nat) :
    s.allocateFor number = s ∨
    (∃ r, s.request number = some r ∧ s.allocateFor number = s.enterWaiting r .noStock) ∨
    ∃ r t n i, s.request number = some r ∧ s.type r.type = some t ∧ (n, i) ∈ s.trg.insts ∧ s.isCandidate r t i = true ∧
      s.allocateFor number = s.reserve r n i := by
  unfold State.allocateFor
  split
  · exact .inl rfl
  · rename_i r hr
    split
    · split
      · rename_i n i hc
        obtain ⟨hm, t, ht, hi⟩ := State.chooseCandidate_spec hc
        exact .inr (.inr ⟨r, t, n, i, hr, ht, hm, hi, rfl⟩)
      · split
        · exact .inr (.inl ⟨r, hr, rfl⟩)
        · exact .inl rfl
    · exact .inl rfl

/-- What every allocation for a request keeps, a pass keeps (R55). -/
theorem State.allocationPass_keeps {P : State → Prop} (step : ∀ u number, P u → P (allocateFor u number)) {s : State} (h : P s) :
    P s.allocationPass := by
  have fold : ∀ (xs : List Nat) (t : State), P t → P (xs.foldl (fun s n => s.allocateFor n) t) := by
    intro xs
    induction xs with
    | nil => exact fun t ht => ht
    | cons x xs ih => exact fun t ht => ih _ (step t x ht)
  unfold State.allocationPass
  split
  · exact fold _ _ h
  · exact h

theorem State.isCandidate_not_issued {s : State} {r : Request} {t : TypeRec} {i : InstRec} (h : s.isCandidate r t i = true) :
    i.custody ≠ .issued := by
  rcases State.isCandidate_custody h with ⟨hc, -⟩ | ⟨hc, -⟩ <;> simp [hc]

theorem State.enterWaiting_isc (s : State) (r : Request) (cause : ReqCause) :
    (s.enterWaiting r cause).isc = (s.putRequest { r with state := .waitingStock }).isc := by
  unfold State.enterWaiting
  dsimp only
  split
  · split <;> rfl
  · rfl

theorem State.enterWaiting_psc (s : State) (r : Request) (cause : ReqCause) : (s.enterWaiting r cause).psc = s.psc := by
  unfold State.enterWaiting
  dsimp only
  split
  · split <;> rfl
  · rfl

/-- The request with the instance reserved for it (R57). -/
def Request.reservedFor (r : Request) (n tick : Nat) : Request :=
  { r with state := .reserved, tool := some n, reserveTick := some tick }

/-- RESERVE applied to the instance and the request, before the pocket or put-away follows (R57). -/
def State.reserving (s : State) (r : Request) (n : Nat) (i : InstRec) : State :=
  (s.move n i { cause := .reserve, custody := .reserved, loc := i.loc, link := some r.number }).putRequest (r.reservedFor n s.tick)

/-- R57: a pocket follows the reservation of the instance that lies in it. -/
theorem State.reserve_pocket (s : State) (r : Request) (n c p : Nat) {i : InstRec} (h : i.loc = .pocket c p) :
    ∃ q, s.reserve r n i = ((s.reserving r n i).setPocket c p { s.pocket c p with state := .expectTake }).report q := by
  unfold State.reserve
  simp only [h]
  exact ⟨_, by rw [State.reserving, h]; rfl⟩

/-- R57: an instance that lies in no pocket leaves put-away with its reservation. -/
theorem State.reserve_bench (s : State) (r : Request) (n : Nat) {i : InstRec} (h : ∀ c p, i.loc ≠ .pocket c p) :
    ∃ q, s.reserve r n i = ((s.reserving r n i).leavePutaway n).report q := by
  unfold State.reserve
  cases hl : i.loc with
  | pocket c p => exact absurd hl (h c p)
  | _ => exact ⟨_, by rw [State.reserving, hl]; rfl⟩

/-- The instance lies in a pocket, or in none. -/
theorem Location.pocket_or (l : Location) : (∃ c p, l = .pocket c p) ∨ ∀ c p, l ≠ .pocket c p := by
  by_cases h : ∃ c p, l = .pocket c p
  · exact .inl h
  · exact .inr fun c p hl => h ⟨c, p, hl⟩

end Sys2Proof.Machine

/-! What an allocation pass leaves of one instance, of its pocket and of the requests. -/

namespace Sys2Proof.Machine

open State

/-! ### Late-pick memories -/

theorem State.reserve_latePicks (s : State) (r : Request) (n : Nat) (i : InstRec) :
    (s.reserve r n i).isc.latePicks = s.isc.latePicks := by
  rcases i.loc.pocket_or with ⟨c, p, hl⟩ | hl
  · obtain ⟨q, hq⟩ := s.reserve_pocket r n c p hl
    rw [hq]
    rfl
  · obtain ⟨q, hq⟩ := s.reserve_bench r n hl
    rw [hq]
    exact ((State.PutsAway.refl _).leavePutaway n).latePicks_eq

theorem State.allocateFor_latePicks (s : State) (number : Nat) : (s.allocateFor number).isc.latePicks = s.isc.latePicks := by
  rcases s.allocateFor_cases number with h | ⟨r, -, h⟩ | ⟨r, t, n, i, -, -, -, -, h⟩ <;> rw [h]
  · rw [State.enterWaiting_isc]
    rfl
  · exact s.reserve_latePicks r n i

theorem State.allocationPass_latePicks (s : State) : s.allocationPass.isc.latePicks = s.isc.latePicks :=
  State.allocationPass_keeps (P := fun u => u.isc.latePicks = s.isc.latePicks)
    (fun u number h => (u.allocateFor_latePicks number).trans h) rfl

/-! ### An instance that is not offered -/

/-- The instance with this record answers no request: it stands in another custody than READY and STAGED, or a late-pick memory bars its
pocket (R56, R62). -/
structure State.Unoffered (s : State) (n : Nat) (i : InstRec) : Prop where
  sorted : tableSorted s.trg.insts = true
  tool : s.tool n = some i
  barred : (i.custody ≠ .ready ∧ i.custody ≠ .staged) ∨
    ∃ c p, i.loc = .pocket c p ∧ tget s.isc.latePicks (pocketKey c p) ≠ none

theorem State.Unoffered.not_candidate {s : State} {n : Nat} {i : InstRec} (h : s.Unoffered n i) (r : Request) (t : TypeRec) :
    s.isCandidate r t i = false := by
  rw [← Bool.not_eq_true]
  intro hc
  rcases h.barred with ⟨hr, hs⟩ | ⟨c, p, hl, hp⟩
  · rcases State.isCandidate_custody hc with ⟨hk, -⟩ | ⟨hk, -⟩
    · exact hr hk
    · exact hs hk
  · rcases State.isCandidate_custody hc with ⟨hk, -⟩ | ⟨-, hb⟩
    · simp only [State.isCandidate, hl, hk, Bool.and_eq_true, Option.isNone_iff_eq_none] at hc
      exact hp hc.2.2
    · rw [hl] at hb
      cases hb

theorem State.Unoffered.allocateFor {s : State} {n : Nat} {i : InstRec} (h : s.Unoffered n i) (number : Nat) :
    (s.allocateFor number).Unoffered n i := by
  refine ⟨(State.allocateFor_passes h.sorted number).2, ?_, by rw [s.allocateFor_latePicks]; exact h.barred⟩
  rcases s.allocateFor_cases number with hs | ⟨r, -, hs⟩ | ⟨r, t, m, j, -, -, hm, hc, hs⟩ <;> rw [hs]
  · exact h.tool
  · rw [State.tool_of_trg (s.enterWaiting_trg r .noStock)]
    exact h.tool
  · have hne : n ≠ m := by
      rintro rfl
      have : i = j := Option.some.inj (h.tool.symm.trans (tget_of_mem h.sorted hm))
      rw [← this, h.not_candidate r t] at hc
      cases hc
    rw [State.tool_reserve _ _ _ _ _ (State.isCandidate_not_issued hc), if_neg hne]
    exact h.tool

/-- R56: an allocation pass leaves an instance that is not offered as it was. -/
theorem State.Unoffered.allocationPass {s : State} {n : Nat} {i : InstRec} (h : s.Unoffered n i) :
    s.allocationPass.tool n = some i :=
  (State.allocationPass_keeps (P := fun u => u.Unoffered n i) (fun _ number hu => hu.allocateFor number) h).tool

/-! ### Requests -/

theorem State.request_putRequest (s : State) (r : Request) (k : Nat) :
    (s.putRequest r).request k = if k = r.number then (s.request k).map (fun _ => r) else s.request k := by
  change (s.isc.queue.map (fun x => if x.number = r.number then r else x)).find? (fun x => x.number == k) = _
  unfold State.request
  rw [List.find?_map]
  have hcomp : ((fun x : Request => x.number == k) ∘ fun x => if x.number = r.number then r else x) = fun x => x.number == k := by
    funext x
    simp only [Function.comp]
    split
    · rename_i hx
      rw [hx]
    · rfl
  rw [hcomp]
  cases hq : s.isc.queue.find? (fun x => x.number == k) with
  | none => simp
  | some q =>
    have hk : q.number = k := by simpa using List.find?_some hq
    by_cases h : k = r.number <;> simp [hk, h]

theorem State.request_number {s : State} {k : Nat} {r : Request} (h : s.request k = some r) : r.number = k := by
  simpa using List.find?_some h

/-- A rewrite of the live request with its number that keeps its misses keeps the misses of all. -/
theorem State.putRequest_misses {s : State} {r q : Request} {number : Nat} (h : s.request number = some r)
    (hn : q.number = r.number) (hm : q.misses = r.misses) (k : Nat) :
    ((s.putRequest q).request k).map (·.misses) = (s.request k).map (·.misses) := by
  rw [State.request_putRequest]
  split
  · rename_i hk
    rw [hk, hn, State.request_number h, h]
    simp [hm]
  · rfl

theorem State.request_of_queue {s t : State} (h : t.isc.queue = s.isc.queue) (k : Nat) : t.request k = s.request k := by
  simp only [State.request, h]

theorem State.reserving_misses {s : State} {r : Request} {number : Nat} (h : s.request number = some r) (n : Nat) (i : InstRec)
    (k : Nat) : ((s.reserving r n i).request k).map (·.misses) = (s.request k).map (·.misses) :=
  State.putRequest_misses (s := s.move n i _) (q := r.reservedFor n s.tick) h rfl rfl k

/-- R55, R57, R58: an allocation ends no request, enters none, and counts no miss. -/
theorem State.allocateFor_misses (s : State) (number k : Nat) :
    ((s.allocateFor number).request k).map (·.misses) = (s.request k).map (·.misses) := by
  rcases s.allocateFor_cases number with h | ⟨r, hr, h⟩ | ⟨r, t, n, i, hr, -, -, -, h⟩ <;> rw [h]
  · have hq : ((s.enterWaiting r .noStock).isc.queue) = (s.putRequest { r with state := .waitingStock }).isc.queue := by
      rw [State.enterWaiting_isc]
    rw [State.request_of_queue hq]
    exact State.putRequest_misses (q := { r with state := .waitingStock }) hr rfl rfl k
  · refine .trans ?_ (State.reserving_misses hr n i k)
    rcases i.loc.pocket_or with ⟨c, p, hl⟩ | hl
    · obtain ⟨q, hq⟩ := s.reserve_pocket r n c p hl
      rw [hq]
      rfl
    · obtain ⟨q, hq⟩ := s.reserve_bench r n hl
      rw [hq]
      exact congrArg (Option.map _) (State.request_of_queue ((State.PutsAway.refl _).leavePutaway n).queue_eq k)

theorem State.allocationPass_misses (s : State) (k : Nat) :
    (s.allocationPass.request k).map (·.misses) = (s.request k).map (·.misses) :=
  State.allocationPass_keeps (P := fun u => (u.request k).map (·.misses) = (s.request k).map (·.misses))
    (fun u number h => (u.allocateFor_misses number k).trans h) rfl

/-! ### An instance recorded in its pocket -/

/-- The instance is recorded in the pocket, in a custody of the crib, and awaits no put-away. -/
structure State.Seats (s : State) (n c p : Nat) : Prop where
  insts : tableSorted s.trg.insts = true
  pockets : tableSorted s.psc.pockets = true
  recorded : (s.pocket c p).tool = some n
  state : (s.pocket c p).state = .occupied ∨ (s.pocket c p).state = .expectTake
  lies : ∃ i, s.tool n = some i ∧ i.loc = .pocket c p ∧ i.custody ≠ .returning
  unassigned : tget s.isc.assigned n = none
  undamaged : n ∉ s.isc.damaged

theorem InstRec.wantsPutaway_pocket {i : InstRec} {c p : Nat} (hl : i.loc = .pocket c p) (hc : i.custody ≠ .returning) :
    i.wantsPutaway = false := by
  unfold InstRec.wantsPutaway
  rw [hl]
  cases h : i.custody <;> first | rfl | exact absurd h hc

/-- A change of the queue, of SVP and of no more keeps the instance in its pocket. -/
theorem State.Seats.of_eq {s t : State} {n c p : Nat} (h : s.Seats n c p) (ht : t.trg = s.trg) (hp : t.psc = s.psc)
    (ha : t.isc.assigned = s.isc.assigned) (hd : t.isc.damaged = s.isc.damaged) : t.Seats n c p := by
  have hpk : t.pocket c p = s.pocket c p := by simp only [State.pocket, hp]
  exact ⟨by rw [ht]; exact h.insts, by rw [hp]; exact h.pockets, by rw [hpk]; exact h.recorded, by rw [hpk]; exact h.state,
    by rw [State.tool_of_trg ht]; exact h.lies, by rw [ha]; exact h.unassigned, by rw [hd]; exact h.undamaged⟩

theorem State.Seats.leavePutaway {s : State} {n c p : Nat} (h : s.Seats n c p) (m : Nat) : (s.leavePutaway m).Seats n c p := by
  obtain ⟨i, hi, hl, hc⟩ := h.lies
  have htrg := s.leavePutaway_trg m
  obtain ⟨hsorted, hheld⟩ := State.HoldsPockets.leavePutaway s m h.pockets
  have hpk : (s.leavePutaway m).pocket c p = s.pocket c p := by
    apply hheld <;> rcases h.state with hs | hs <;> simp [hs]
  refine ⟨by rw [htrg]; exact h.insts, hsorted, by rw [hpk]; exact h.recorded, by rw [hpk]; exact h.state,
    ⟨i, by rw [State.tool_of_trg htrg]; exact hi, hl, hc⟩,
    State.leavePutaway_keeps_unassigned m h.unassigned hi (InstRec.wantsPutaway_pocket hl hc), ?_⟩
  rw [State.leavePutaway_damaged]
  exact fun hm => h.undamaged (List.mem_filter.1 hm).1

theorem State.Seats.reserving {s : State} {n c p m : Nat} {j : InstRec} (h : s.Seats n c p) (r : Request) (hj : s.tool m = some j) :
    (s.reserving r m j).Seats n c p := by
  obtain ⟨i, hi, hl, hr⟩ := h.lies
  refine ⟨tableSorted_tset _ _ h.insts, h.pockets, h.recorded, h.state, ?_, h.unassigned, h.undamaged⟩
  by_cases hne : n = m
  · subst hne
    have : i = j := Option.some.inj (hi.symm.trans hj)
    subst this
    refine ⟨_, (State.tool_move _ _ _ _ _).trans (if_pos rfl), hl, ?_⟩
    simp [InstRec.moved, redirect]
  · exact ⟨i, (State.tool_move _ _ _ _ _).trans ((if_neg hne).trans hi), hl, hr⟩

/-- R57: the pocket of a reserved instance becomes EXPECT_TAKE with the instance it records. -/
theorem State.Seats.toTake {s : State} {n c p : Nat} (h : s.Seats n c p) (d q : Nat) :
    (s.setPocket d q { s.pocket d q with state := .expectTake }).Seats n c p := by
  have hpk := State.pocket_setPocket s d q c p { s.pocket d q with state := .expectTake }
  have hsame : pocketKey c p = pocketKey d q → s.pocket d q = s.pocket c p := fun hk => by rw [State.pocket, State.pocket, hk]
  refine ⟨h.insts, tableSorted_dset _ _ h.pockets, ?_, ?_, h.lies, h.unassigned, h.undamaged⟩
  · rw [hpk]
    split
    · rename_i hk
      exact (congrArg Pocket.tool (hsame hk)).trans h.recorded
    · exact h.recorded
  · rw [hpk]
    split
    · exact .inr rfl
    · exact h.state

theorem State.Seats.allocateFor {s : State} {n c p : Nat} (h : s.Seats n c p) (number : Nat) :
    (s.allocateFor number).Seats n c p := by
  rcases s.allocateFor_cases number with hs | ⟨r, -, hs⟩ | ⟨r, t, m, j, -, -, hm, -, hs⟩ <;> rw [hs]
  · exact h
  · exact h.of_eq (s.enterWaiting_trg r .noStock) (s.enterWaiting_psc r .noStock) (by rw [State.enterWaiting_isc]; rfl)
      (by rw [State.enterWaiting_isc]; rfl)
  · have reserved := h.reserving r (tget_of_mem h.insts hm)
    rcases j.loc.pocket_or with ⟨d, q, hl⟩ | hl
    · obtain ⟨v, hv⟩ := s.reserve_pocket r m d q hl
      rw [hv]
      exact (reserved.toTake d q).of_eq rfl rfl rfl rfl
    · obtain ⟨v, hv⟩ := s.reserve_bench r m hl
      rw [hv]
      exact (reserved.leavePutaway m).of_eq rfl rfl rfl rfl

theorem State.Seats.allocationPass {s : State} {n c p : Nat} (h : s.Seats n c p) : s.allocationPass.Seats n c p :=
  State.allocationPass_keeps (P := fun u => u.Seats n c p) (fun _ number hu => hu.allocateFor number) h

/-- R20: an instance in its pocket that is announced stays there; put-away has nothing to do. -/
theorem State.Seats.announce {s : State} {n c p : Nat} (h : s.Seats n c p) : (s.announce n).Seats n c p := by
  have idle : ∀ {u : State}, u.Seats n c p → u.tryPutaway n = u := by
    intro u hu
    obtain ⟨i, hi, hl, hc⟩ := hu.lies
    exact State.tryPutaway_idle hi (InstRec.wantsPutaway_pocket hl hc)
  unfold State.announce
  split
  · exact h
  · split
    · exact h.allocationPass
    · rw [idle h.allocationPass]
      exact h.allocationPass
    · rw [idle h]
      exact h

/-- R20: what an announcement does to the instances: an allocation pass, or nothing. -/
theorem State.announce_passes {s : State} (h : tableSorted s.trg.insts = true) (n : Nat) :
    s.AllPassedBy (s.announce n) := by
  unfold State.announce
  split
  · exact .refl s
  · split
    · exact (State.allocationPass_passes h).1
    · exact (State.allocationPass_passes h).1.trans (.of_trg (State.tryPutaway_trg _ _))
    · exact .of_trg (State.tryPutaway_trg _ _)

/-! ### Release of a reservation -/

/-- The record of an instance whose reservation is released (R61). -/
def InstRec.released (i : InstRec) (redirected : Bool) : InstRec :=
  let goal : Custody := match i.loc with
    | .pocket _ _ => .ready
    | _ => .staged
  { i with custody := if redirected then redirect goal i.life else goal, link := none, qcause := none }

/-- What the release of an instance reports (R61). -/
def InstRec.releaseReport (i : InstRec) (n : Nat) (redirected : Bool) : Report :=
  changeReport n i (i.released redirected) .release

theorem InstRec.moved_release {i : InstRec} (h : i.custody ≠ .issued) {c : Custody} (hc : c = .ready ∨ c = .staged) :
    i.moved { cause := .release, custody := c, loc := i.loc } =
      { i with custody := redirect c i.life, link := none, qcause := none } := by
  by_cases hl : i.life = 0 <;> rcases hc with rfl | rfl <;> simp [InstRec.moved, redirect, hl, h]

/-- The state after the release of an instance, before its pocket follows (R61). -/
def State.released (s : State) (n : Nat) (i : InstRec) (redirected : Bool) : State :=
  (s.setTool n (i.released redirected)).report (i.releaseReport n redirected)

/-- R61: the release of an instance in a pocket. -/
theorem State.releaseTool_pocket {s : State} {n c p : Nat} {i : InstRec} (hn : s.tool n = some i) (h : i.custody ≠ .issued)
    (hl : i.loc = .pocket c p) (redirected : Bool) :
    s.releaseTool n redirected =
      if (s.pocket c p).state = .expectTake then
        (s.released n i redirected).setPocket c p { s.pocket c p with state := .occupied }
      else s.released n i redirected := by
  have hmoved := InstRec.moved_release h (.inl rfl)
  rw [hl] at hmoved
  unfold State.releaseTool State.released InstRec.releaseReport InstRec.released
  cases redirected <;> simp only [hn, hl, State.move, State.transition, hmoved] <;> rfl

/-- R61: the release of an instance that lies in no pocket. -/
theorem State.releaseTool_bench {s : State} {n : Nat} {i : InstRec} (hn : s.tool n = some i) (h : i.custody ≠ .issued)
    (hl : ∀ c p, i.loc ≠ .pocket c p) (redirected : Bool) : s.releaseTool n redirected = s.released n i redirected := by
  have hmoved := InstRec.moved_release h (.inr rfl)
  unfold State.releaseTool State.released InstRec.releaseReport InstRec.released
  cases hloc : i.loc with
  | pocket c p => exact absurd hloc (hl c p)
  | _ =>
    rw [hloc] at hmoved
    cases redirected <;> simp only [hn, hloc, State.move, State.transition, hmoved] <;> rfl

/-- R61: what the release of an instance does beside its pocket. -/
theorem State.releaseTool_does {s : State} {n : Nat} {i : InstRec} (hn : s.tool n = some i) (h : i.custody ≠ .issued)
    (redirected : Bool) :
    (s.releaseTool n redirected).trg = (s.setTool n (i.released redirected)).trg ∧
    (s.releaseTool n redirected).isc = s.isc ∧ (s.releaseTool n redirected).hoe = s.hoe ∧
    (s.releaseTool n redirected).svp = s.svp.handed s.now [i.releaseReport n redirected] := by
  rcases i.loc.pocket_or with ⟨c, p, hl⟩ | hl
  · rw [State.releaseTool_pocket hn h hl]
    split <;> exact ⟨rfl, rfl, rfl, rfl⟩
  · rw [State.releaseTool_bench hn h hl]
    exact ⟨rfl, rfl, rfl, rfl⟩

theorem State.Issues.now_eq {s t : State} (h : s.Issues t) : t.now = s.now := by rw [h.2]; rfl

/-- R61: what the release of an instance with its request back in QUEUED does beside its pocket and the queue. -/
theorem State.releaseToQueue_does {s : State} {n : Nat} {i : InstRec} (hn : s.tool n = some i) (h : i.custody ≠ .issued)
    (redirected : Bool) :
    (s.releaseToQueue n redirected).trg = (s.setTool n (i.released redirected)).trg ∧
    (s.releaseToQueue n redirected).hoe = s.hoe ∧
    (∃ rs, (s.releaseToQueue n redirected).svp = s.svp.handed s.now (i.releaseReport n redirected :: rs)) ∧
    (s.releaseToQueue n redirected).isc = { s.isc with queue := (s.releaseToQueue n redirected).isc.queue } := by
  obtain ⟨htrg, hisc, hhoe, hsvp⟩ := State.releaseTool_does hn h redirected
  unfold State.releaseToQueue
  split
  · exact ⟨htrg, hhoe, ⟨[], hsvp⟩, by rw [hisc]⟩
  · rename_i r _
    refine ⟨htrg, hhoe, ?_, by rw [← hisc]; rfl⟩
    obtain ⟨⟨rs, hrs⟩, -⟩ := (State.Issues.refl (s.releaseTool n redirected)).changeRequest r.unreserved .released
    refine ⟨rs, hrs.trans ?_⟩
    rw [((State.Issues.refl s).releaseTool n redirected).now_eq, hsvp, ← Svp.handed_append]
    rfl

theorem State.announce_quiet {s : State} {n : Nat} {r : InstRec} (h : s.tool n = some r) (hr : r.custody ≠ .ready)
    (hs : r.custody ≠ .staged) : s.announce n = s.tryPutaway n := by
  unfold State.announce
  rw [h]
  cases hc : r.custody with
  | ready => exact absurd hc hr
  | staged => exact absurd hc hs
  | _ => simp only [hc]

end Sys2Proof.Machine

/-! O4 and O6: REGISTER, QUARANTINE_TOOL and CLEAR_QUARANTINE. -/

namespace Sys2Proof.Machine

open State

/-! ### REGISTER -/

/-- R13: the ranges of REGISTER. -/
theorem register_inRange {n type : Nat} {marks life : Option Nat} :
    (toolNo n && typeNo type && decide (marks.getD 0 ≤ 4) && (match life with
      | some l => decide (1 ≤ l) && decide (l ≤ 4000000)
      | none => true)) = true ↔
    1 ≤ n ∧ n ≤ 2048 ∧ 1 ≤ type ∧ type ≤ 512 ∧ (∀ m ∈ marks, m ≤ 4) ∧ (∀ l ∈ life, 1 ≤ l ∧ l ≤ 4000000) := by
  have hmarks : marks.getD 0 ≤ 4 ↔ ∀ m ∈ marks, m ≤ 4 := by cases marks <;> simp
  have hlife : (match life with
      | some l => decide (1 ≤ l) && decide (l ≤ 4000000)
      | none => true) = true ↔ ∀ l ∈ life, 1 ≤ l ∧ l ≤ 4000000 := by cases life <;> simp
  rw [Bool.and_eq_true, Bool.and_eq_true, Bool.and_eq_true, toolNo_iff, typeNo_iff, decide_eq_true_eq, hmarks, hlife]
  tauto

/-- The state after REGISTER has written its record, with its report (R13). -/
def State.registered (s : State) (n type : Nat) (r : InstRec) : State :=
  (s.setTool n r).report (.custodyChange n type none .nowhere (some .unmeasured) .bench .register none)

theorem State.announce_unmeasured {s : State} {n : Nat} {r : InstRec} (h : s.tool n = some r) (hc : r.custody = .unmeasured) :
    s.announce n = s.tryPutaway n := by
  simp only [State.announce, h, hc]

/-- Settles O4, row by row: the row of OK writes the record, and put-away alone follows. -/
theorem registerCreatesRecord : Obligations.RegisterCreatesRecord := by
  intro s tag body h n type marks life inRange
  have hexec : exec (.register tag body) s = hostCommand 0x08 tag body (fun s => s.register n type marks life) s := rfl
  refine ⟨fun hout => ?_, fun hin hnone => ?_, fun ty hin hty => ⟨fun hsome => ?_, fun habs hlim => ?_, fun habs hlim hbud => ?_, fun habs hlim hbud => ?_⟩⟩
  all_goals rw [hexec]
  · refine hostCommand_answers h (if_pos ?_)
    rw [← Bool.not_eq_true]
    exact mt register_inRange.1 hout
  · refine hostCommand_answers h ((if_neg (ne_false_of_eq_true (register_inRange.2 hin))).trans ?_)
    rw [show (s.taken 0x08 tag body).type type = none from hnone]
  all_goals
    have hty' : (s.taken 0x08 tag body).type type = some ty := hty
  · refine hostCommand_answers h ((if_neg (ne_false_of_eq_true (register_inRange.2 hin))).trans ?_)
    rw [hty']
    exact if_pos hsome
  all_goals
    have habs' : ¬ ((s.taken 0x08 tag body).tool n).isSome = true := by
      rw [show (s.taken 0x08 tag body).tool n = none from habs]
      simp
  · refine hostCommand_answers h ((if_neg (ne_false_of_eq_true (register_inRange.2 hin))).trans ?_)
    rw [hty']
    exact (if_neg habs').trans (if_pos hlim)
  · refine hostCommand_answers h ((if_neg (ne_false_of_eq_true (register_inRange.2 hin))).trans ?_)
    rw [hty']
    exact (if_neg habs').trans ((if_neg (by omega)).trans (if_pos hbud))
  · let r := newInstance type (marks.getD 0) (life.getD ty.budget)
    let u := (s.taken 0x08 tag body).registered n type r
    have hu : u.tool n = some r := by simp [u, State.registered]
    have hrun : (s.taken 0x08 tag body).register n type marks life = (u.tryPutaway n, .plain .ok) := by
      refine (if_neg (ne_false_of_eq_true (register_inRange.2 hin))).trans ?_
      rw [hty']
      refine (if_neg habs').trans ((if_neg (by omega)).trans ((if_neg (by omega)).trans ?_))
      exact congrArg (·, _) (State.announce_unmeasured hu rfl)
    obtain ⟨rs, hsvp, hrs⟩ := u.tryPutaway_reports n
    have hput := (State.PutsAway.refl u).tryPutaway n
    have htool : ∀ m, (u.tryPutaway n).tool m = if m = n then some r else s.tool m := fun m =>
      (State.tool_of_trg hput.trg_eq m).trans (State.tool_setTool _ _ _ _)
    have htypes : (u.tryPutaway n).trg.types = s.trg.types := by rw [hput.trg_eq]; rfl
    let told : List Report := .custodyChange n type none .nowhere (some .unmeasured) .bench .register none :: rs
    refine ⟨{ u.tryPutaway n with svp := s.svpAnswered 0x08 tag body told (.plain .ok) }, rs,
      hostCommand_runs h hrun hsvp, (htool n).trans (if_pos rfl), fun m hm => (htool m).trans (if_neg hm),
      htypes, hput.queue_eq, hrs.imp_right ?_, ?_⟩
    · rintro ⟨i, hi, hc⟩
      have : r = i := Option.some.inj (hu.symm.trans hi)
      rw [hc, ← this]
      rfl
    · rw [hput.2]
      rfl

/-! ### QUARANTINE_TOOL -/

/-- The transition of QUARANTINE_TOOL (R22). -/
def quarantineMove (l : Location) : Move := { cause := .quarantineTool, custody := .quarantine, loc := l, qcause := some .host }

/-- The record of an instance that QUARANTINE_TOOL has barred (R22). -/
def InstRec.barred (r : InstRec) : InstRec := { r with custody := .quarantine, qcause := some .host, link := none }

theorem InstRec.moved_quarantine {r : InstRec} (h : r.custody ≠ .issued) : r.moved (quarantineMove r.loc) = r.barred := by
  have : redirect Custody.quarantine r.life = .quarantine := by unfold redirect; split <;> rfl
  simp [InstRec.moved, quarantineMove, InstRec.barred, this, h]

theorem InstRec.released_barred (r : InstRec) : (r.released false).barred = r.barred := rfl

theorem InstRec.released_not_issued (r : InstRec) : (r.released false).custody ≠ .issued := by
  unfold InstRec.released
  rcases r.loc.pocket_or with ⟨c, p, hl⟩ | hl
  · simp [hl]
  · cases hloc : r.loc with
    | pocket c p => exact absurd hloc (hl c p)
    | _ => simp

/-- What QUARANTINE_TOOL reports of its own change (R20, R22). -/
def InstRec.barReport (r : InstRec) (n : Nat) : Report :=
  .custodyChange n r.type (some r.custody) r.loc (some .quarantine) r.loc .quarantineTool none

/-- R22: what QUARANTINE_TOOL's own change does. -/
theorem State.move_quarantine {s : State} {n : Nat} {r : InstRec} (h : r.custody ≠ .issued) :
    (∀ m, (s.move n r (quarantineMove r.loc)).tool m = if m = n then some r.barred else s.tool m) ∧
    (s.move n r (quarantineMove r.loc)).svp = s.svp.handed s.now [r.barReport n] := by
  refine ⟨fun m => ?_, ?_⟩
  · rw [State.tool_move, InstRec.moved_quarantine h]
  · rw [State.move_svp, InstRec.moved_quarantine h]
    rfl

/-- The custodies that QUARANTINE_TOOL bars (R22). -/
def InstRec.quarantinable (r : InstRec) : Prop :=
  r.custody = .unmeasured ∨ r.custody = .staged ∨ r.custody = .ready ∨ r.custody = .regrindDue ∨ r.custody = .reserved

/-- R22: QUARANTINE_TOOL of an instance that is not reserved: it is barred, and put-away may follow. -/
theorem State.quarantineTool_free {s : State} {n : Nat} {r : InstRec} (hn : s.tool n = some r) (h : r.quarantinable)
    (hfree : r.custody ≠ .reserved) :
    s.quarantineTool n r = ((s.move n r (quarantineMove r.loc)).tryPutaway n, .plain .ok) := by
  have hissued : r.custody ≠ .issued := by rcases h with h | h | h | h | h <;> simp [h]
  have hu : (s.move n r (quarantineMove r.loc)).tool n = some r.barred := by
    rw [(State.move_quarantine hissued).1, if_pos rfl]
  have hann := State.announce_quiet hu (by simp [InstRec.barred]) (by simp [InstRec.barred])
  rw [← hann]
  unfold State.quarantineTool quarantineMove
  rcases h with h | h | h | h | h
  case inr.inr.inr.inr => exact absurd h hfree
  all_goals simp only [h, hn]

/-- R22: QUARANTINE_TOOL of a reserved instance: it is released and barred, and a pass and put-away follow. -/
theorem State.quarantineTool_reserved {s : State} {n : Nat} {r : InstRec} (hn : s.tool n = some r) (h : r.custody = .reserved) :
    s.quarantineTool n r =
      (((s.releaseToQueue n false).move n (r.released false) (quarantineMove r.loc)).afterRelease n, .plain .ok) := by
  have hreleased : (s.releaseToQueue n false).tool n = some (r.released false) := by
    rw [State.tool_of_trg (State.releaseToQueue_does hn (by simp [h]) false).1, State.tool_setTool, if_pos rfl]
  unfold State.quarantineTool quarantineMove
  simp only [h, hreleased]

/-- R22: what QUARANTINE_TOOL does to an instance it bars. -/
theorem State.quarantineTool_does {s : State} {n : Nat} {r : InstRec} (hs : tableSorted s.trg.insts = true)
    (hn : s.tool n = some r) (h : r.quarantinable) :
    ∃ t rs, s.quarantineTool n r = (t, .plain .ok) ∧ t.tool n = some r.barred ∧ s.OthersPassedBy t n ∧
      (r.custody ≠ .reserved → s.OthersStand t n) ∧ s.Issues t ∧ t.svp = s.svp.handed s.now rs ∧
      ∃ before, .custodyChange n r.type (some before) r.loc (some .quarantine) r.loc .quarantineTool none ∈ rs := by
  by_cases hres : r.custody = .reserved
  · have hrel := State.releaseToQueue_does hn (by simp [hres]) false
    obtain ⟨htrg, -, ⟨qs, hqs⟩, -⟩ := hrel
    let v := (s.releaseToQueue n false).move n (r.released false) (quarantineMove r.loc)
    obtain ⟨hmoved, hsvp⟩ := State.move_quarantine (s := s.releaseToQueue n false) (n := n) r.released_not_issued
    have hrun := ((State.Issues.refl s).releaseToQueue n false)
    have hv : s.Issues v := hrun.move n _ _
    have hother : s.OthersStand v n := fun m hm => by
      refine (hmoved m).trans ((if_neg hm).trans ?_)
      rw [State.tool_of_trg htrg, State.tool_setTool, if_neg hm]
    have hvn : v.Unoffered n r.barred := by
      refine ⟨?_, (hmoved n).trans (if_pos rfl), .inl ⟨by simp [InstRec.barred], by simp [InstRec.barred]⟩⟩
      exact tableSorted_tset _ _ (by rw [htrg]; exact tableSorted_tset _ _ hs)
    obtain ⟨⟨rs, hrs⟩, -⟩ := (State.Issues.refl v).afterRelease n
    refine ⟨v.afterRelease n, r.releaseReport n false :: qs ++ [(r.released false).barReport n] ++ rs, State.quarantineTool_reserved hn hres, ?_, ?_, fun hne => absurd hres hne,
      hv.afterRelease n, ?_, (r.released false).custody, ?_⟩
    · exact (State.tool_of_trg (State.tryPutaway_trg _ _) n).trans hvn.allocationPass
    · exact ((State.allocationPass_passes hvn.sorted).1.trans (.of_trg (State.tryPutaway_trg _ _))).others hother
    · rw [hrs, hv.now_eq, show v.svp = _ from hsvp, hrun.now_eq, hqs, ← Svp.handed_append, ← Svp.handed_append,
        List.append_assoc]
    · simp [InstRec.barReport, InstRec.released]
  · have hissued : r.custody ≠ .issued := by rcases h with h | h | h | h | h <;> simp [h]
    obtain ⟨hmoved, hsvp⟩ := State.move_quarantine (s := s) (n := n) hissued
    let v := s.move n r (quarantineMove r.loc)
    have hv : s.Issues v := (State.Issues.refl s).move n _ _
    have htool : ∀ m, (v.tryPutaway n).tool m = if m = n then some r.barred else s.tool m := fun m =>
      (State.tool_of_trg (State.tryPutaway_trg v n) m).trans (hmoved m)
    have hother : s.OthersStand (v.tryPutaway n) n := fun m hm => (htool m).trans (if_neg hm)
    obtain ⟨⟨rs, hrs⟩, -⟩ := (State.Issues.refl v).tryPutaway n
    refine ⟨v.tryPutaway n, r.barReport n :: rs, State.quarantineTool_free hn h hres, (htool n).trans (if_pos rfl), hother.passed,
      fun _ => hother, hv.tryPutaway n, ?_, r.custody, List.mem_cons_self⟩
    rw [hrs, hv.now_eq, show v.svp = _ from hsvp, ← Svp.handed_append]
    rfl

/-! ### CLEAR_QUARANTINE -/

/-- The transition of CLEAR_QUARANTINE (R23). -/
def clearMove (l : Location) : Move := { cause := .clearQuarantine, custody := .unmeasured, loc := l }

/-- The record of an instance whose quarantine CLEAR_QUARANTINE has lifted (R19, R23). -/
def InstRec.cleared (r : InstRec) : InstRec :=
  { r with custody := if r.life = 0 then .regrindDue else .unmeasured, qcause := none, link := none }

theorem InstRec.moved_clear {r : InstRec} (h : r.custody = .quarantine) : r.moved (clearMove r.loc) = r.cleared := by
  by_cases hl : r.life = 0 <;> simp [InstRec.moved, clearMove, InstRec.cleared, redirect, hl, h]

theorem InstRec.cleared_custody (r : InstRec) : r.cleared.custody ≠ .ready ∧ r.cleared.custody ≠ .staged := by
  unfold InstRec.cleared
  by_cases hl : r.life = 0 <;> simp [hl]

/-- R23: what an accepted CLEAR_QUARANTINE does. -/
theorem State.clearQuarantine_does {s : State} {n : Nat} {r : InstRec} (h : r.custody = .quarantine)
    (hfree : ¬ (r.qcause = some .typeHold ∧ s.typeHeld r.type = true)) :
    ∃ t rs, s.clearQuarantine n r = (t, .plain .ok) ∧ (∀ m, t.tool m = if m = n then some r.cleared else s.tool m) ∧
      s.Issues t ∧ t.isc.queue = s.isc.queue ∧
      t.svp = s.svp.handed s.now
        (.custodyChange n r.type (some .quarantine) r.loc (some r.cleared.custody) r.loc .clearQuarantine none :: rs) ∧
      ∀ x ∈ rs, ∃ c z, x = .cribFull n c z := by
  let v := s.move n r (clearMove r.loc)
  have hv : s.Issues v := (State.Issues.refl s).move n _ _
  have hmoved : ∀ m, v.tool m = if m = n then some r.cleared else s.tool m := fun m => by
    rw [State.tool_move, InstRec.moved_clear h]
  have hsvp : v.svp = s.svp.handed s.now
      [.custodyChange n r.type (some .quarantine) r.loc (some r.cleared.custody) r.loc .clearQuarantine none] := by
    rw [State.move_svp, InstRec.moved_clear h, changeReport, h]
    rfl
  have hann : v.announce n = v.tryPutaway n :=
    State.announce_quiet ((hmoved n).trans (if_pos rfl)) r.cleared_custody.1 r.cleared_custody.2
  obtain ⟨rs, hrs, hcrib⟩ := v.tryPutaway_reports n
  refine ⟨v.tryPutaway n, rs, ?_, fun m => (State.tool_of_trg (State.tryPutaway_trg v n) m).trans (hmoved m), hv.tryPutaway n,
    ((State.PutsAway.refl v).tryPutaway n).queue_eq, ?_, ?_⟩
  · rw [← hann]
    exact (if_neg (not_not.2 h)).trans (if_neg hfree)
  · rw [hrs, hv.now_eq, hsvp, ← Svp.handed_append]
    rfl
  · rcases hcrib with rfl | ⟨i, -, rfl⟩
    · simp
    · intro x hx
      exact ⟨_, _, List.mem_singleton.1 hx⟩

/-! ### The refusals that all commands on an instance share -/

/-- R21: a command on an instance number out of range. -/
theorem withTool_range {n : Nat} {f : State → InstRec → State × Reply} {s : State} (h : ¬ (1 ≤ n ∧ n ≤ 2048)) :
    withTool n f s = (s, .plain .range) :=
  if_pos (by rw [← Bool.not_eq_true]; exact mt toolNo_iff.1 h)

/-- R21: a command on an absent instance. -/
theorem withTool_absent {n : Nat} {f : State → InstRec → State × Reply} {s : State} (h : toolNo n = true) (hn : s.tool n = none) :
    withTool n f s = (s, .plain .noSuch) := by
  simp only [withTool, h, hn]
  rfl

/-- R21: a command on an instance that stands in the register. -/
theorem withTool_present {n : Nat} {f : State → InstRec → State × Reply} {s : State} {r : InstRec} (h : toolNo n = true)
    (hn : s.tool n = some r) : withTool n f s = f s r := by
  simp only [withTool, h, hn]
  rfl

/-- Settles O6. -/
theorem quarantineToolAndClear : Obligations.QuarantineToolAndClear := by
  refine ⟨fun s tag body r h hs hno hn => ⟨fun hq => ?_, fun hq => ?_⟩,
    fun s tag body r h hno hn => ⟨fun hq => ?_, fun hq hc hheld => ?_, fun hq hfree => ?_⟩,
    fun s tag body => ⟨fun h => ⟨fun hrange => ?_, fun h1 h2 hn => ?_⟩, fun h => ⟨fun hrange => ?_, fun h1 h2 hn => ?_⟩⟩⟩
  · obtain ⟨t, rs, hrun, htool, hpass, hstand, hissue, hsvp, hreport⟩ :=
      State.quarantineTool_does (s := s.taken 0x0A tag body) hs hn hq
    refine ⟨{ t with svp := s.svpAnswered 0x0A tag body rs (.plain .ok) }, rs, ?_, htool, hpass, hstand, ?_, hissue.hoe_eq, rfl,
      hreport⟩
    · change execQuarantineTool tag body s = _
      unfold execQuarantineTool
      exact hostCommand_runs h ((withTool_present (s := s.taken _ tag body) hno hn).trans hrun) hsvp
    · exact hissue.runs.toolsOnly _
  · change execQuarantineTool tag body s = _
    unfold execQuarantineTool
    refine hostCommand_answers h ((withTool_present (s := s.taken _ tag body) hno hn).trans ?_)
    unfold State.quarantineTool
    dsimp only
    split <;> simp_all
  · change execClearQuarantine tag body s = _
    unfold execClearQuarantine
    exact hostCommand_answers h ((withTool_present (s := s.taken _ tag body) hno hn).trans (if_pos hq))
  · change execClearQuarantine tag body s = _
    unfold execClearQuarantine
    exact hostCommand_answers h ((withTool_present (s := s.taken _ tag body) hno hn).trans ((if_neg (not_not.2 hq)).trans (if_pos ⟨hc, hheld⟩)))
  · obtain ⟨t, rs, hrun, htool, hissue, hqueue, hsvp, hcrib⟩ :=
      State.clearQuarantine_does (s := s.taken 0x0B tag body) (n := fieldAt body 0 2) hq hfree
    let told : List Report := .custodyChange (fieldAt body 0 2) r.type (some .quarantine) r.loc (some r.cleared.custody) r.loc
      .clearQuarantine none :: rs
    refine ⟨{ t with svp := s.svpAnswered 0x0B tag body told (.plain .ok) }, rs, ?_, (htool _).trans (if_pos rfl), fun m hm => (htool m).trans (if_neg hm), ?_, hissue.hoe_eq, hqueue,
      rfl, hcrib⟩
    · change execClearQuarantine tag body s = _
      unfold execClearQuarantine
      exact hostCommand_runs h ((withTool_present (s := s.taken _ tag body) hno hn).trans hrun) hsvp
    · exact hissue.runs.toolsOnly _
  · change execQuarantineTool tag body s = _
    unfold execQuarantineTool
    exact hostCommand_answers h (withTool_range hrange)
  · change execQuarantineTool tag body s = _
    unfold execQuarantineTool
    exact hostCommand_answers h (withTool_absent (toolNo_iff.2 ⟨h1, h2⟩) hn)
  · change execClearQuarantine tag body s = _
    unfold execClearQuarantine
    exact hostCommand_answers h (withTool_range hrange)
  · change execClearQuarantine tag body s = _
    unfold execClearQuarantine
    exact hostCommand_answers h (withTool_absent (toolNo_iff.2 ⟨h1, h2⟩) hn)

end Sys2Proof.Machine

/-! O7: RETIRE and DELETE, and what HOE's cancelled transactions leave of an instance. -/

namespace Sys2Proof.Machine

open State

/-! ### Handoff owed -/

/-- Beside one instance the register stands, and its instances stay in order. -/
def State.TouchesOnly (s t : State) (n : Nat) : Prop :=
  (tableSorted s.trg.insts = true → tableSorted t.trg.insts = true) ∧ s.OthersStand t n

theorem State.TouchesOnly.of_trg {s t : State} (h : t.trg = s.trg) (n : Nat) : s.TouchesOnly t n :=
  ⟨fun hs => by rw [h]; exact hs, fun _ _ => State.tool_of_trg h _⟩

theorem State.TouchesOnly.trans {s t u : State} {n : Nat} (h : s.TouchesOnly t n) (k : t.TouchesOnly u n) : s.TouchesOnly u n :=
  ⟨fun hs => k.1 (h.1 hs), fun m hm => (k.2 m hm).trans (h.2 m hm)⟩

theorem State.TouchesOnly.setTool (s : State) (n : Nat) (r : InstRec) : s.TouchesOnly (s.setTool n r) n :=
  ⟨tableSorted_tset _ _, fun _ hm => (State.tool_setTool _ _ _ _).trans (if_neg hm)⟩

theorem State.TouchesOnly.setOwed (s : State) (n : Nat) (owed : Bool) : s.TouchesOnly (s.setOwed n owed) n := by
  unfold State.setOwed State.modTool
  split
  · exact .setTool _ _ _
  · exact .of_trg rfl _

theorem State.TouchesOnly.askBlocked (s : State) (n place tool : Nat) : s.TouchesOnly (s.askBlocked n place tool) tool := by
  unfold State.askBlocked
  split
  · exact .setOwed _ _ _
  · exact .of_trg (State.enterTxn_trg _ _ _ _) _

theorem State.TouchesOnly.askToolData (s : State) (n place tool : Nat) : s.TouchesOnly (s.askToolData n place tool) tool := by
  unfold State.askToolData
  dsimp only
  split
  · exact .of_trg rfl _
  · split
    · exact .of_trg rfl _
    · split
      · exact (State.TouchesOnly.setOwed s tool false).trans (.of_trg (State.supersede_trg _ _ _ _ _) _)
      · split
        · exact .setOwed _ _ _
        · exact (State.TouchesOnly.setOwed s tool false).trans (.of_trg (State.enterTxn_trg _ _ _ _) _)

theorem State.TouchesOnly.fillFor (s : State) (n tool : Nat) : s.TouchesOnly (s.fillFor n tool) tool := by
  unfold State.fillFor
  split
  · exact .of_trg rfl _
  · split
    · exact .of_trg rfl _
    · split
      · exact .of_trg rfl _
      · split
        · split
          · exact (State.TouchesOnly.setOwed s tool false).trans (.askBlocked _ _ _ _)
          · exact .of_trg rfl _
        · exact .askToolData _ _ _ _

/-- The instances stay in order, and one that is held at no station stands as it stood (R163). -/
def State.SparesUnheld (s t : State) : Prop :=
  (tableSorted s.trg.insts = true → tableSorted t.trg.insts = true) ∧
  ∀ n i, s.tool n = some i → i.heldPlace = none → t.tool n = some i

theorem State.SparesUnheld.of_trg {s t : State} (h : t.trg = s.trg) : s.SparesUnheld t :=
  ⟨fun hs => by rw [h]; exact hs, fun n _ hi _ => (State.tool_of_trg h n).trans hi⟩

theorem State.SparesUnheld.trans {s t u : State} (h : s.SparesUnheld t) (k : t.SparesUnheld u) : s.SparesUnheld u :=
  ⟨fun hs => k.1 (h.1 hs), fun n i hi hh => k.2 n i (h.2 n i hi hh) hh⟩

theorem State.SparesUnheld.foldl {α : Type} {f : State → α → State} (h : ∀ s x, SparesUnheld s (f s x)) (xs : List α) (s : State) :
    s.SparesUnheld (xs.foldl f s) := by
  induction xs generalizing s with
  | nil => exact .of_trg rfl
  | cons x xs ih => exact (h s x).trans (ih _)

theorem State.SparesUnheld.fillFor (s : State) (n tool : Nat) : s.SparesUnheld (s.fillFor n tool) := by
  have htouch := State.TouchesOnly.fillFor s n tool
  refine ⟨htouch.1, fun m i hi hh => ?_⟩
  by_cases hm : m = tool
  · subst hm
    have : s.fillFor n m = s := by simp only [State.fillFor, hi, hh]
    rw [this]
    exact hi
  · exact (htouch.2 m hm).trans hi

theorem State.SparesUnheld.fillSpace (s : State) (n : Nat) : s.SparesUnheld (s.fillSpace n) :=
  (State.SparesUnheld.of_trg (State.enterOwedNotices_trg s n)).trans (.foldl (fun u x => .fillFor u n x) _ _)

/-- R158, R163: the end of a transaction that is no failure leaves the instances held at no station. -/
theorem State.SparesUnheld.endTxn (s : State) (n : Nat) (x : Txn) {state : TxnState} (code : TxnCode) (h : state ≠ .failed) :
    s.SparesUnheld (s.endTxn n x state code) := by
  have hre : ∀ u : State, u.reaskBlocked n x state = u := by
    intro u
    unfold State.reaskBlocked
    split
    · rename_i hstate
      exact absurd rfl h
    · rfl
  unfold State.endTxn
  rw [hre]
  exact ((State.SparesUnheld.of_trg (State.finishTxn_trg _ _ _ _ _)).trans (.fillSpace _ _)).trans (.of_trg (State.startTxn_trg _ _))

theorem State.SparesUnheld.cancelAll (s : State) (p : TxnKind → Bool) : s.SparesUnheld (s.cancelAll p) := by
  refine .foldl (fun u n => .foldl (fun v id => ?_) _ u) _ s
  unfold State.endQueued
  split
  · exact .endTxn _ _ _ _ (by decide)
  · exact .of_trg rfl

theorem State.SparesUnheld.gone (s : State) (tool : Nat) : s.SparesUnheld (s.gone tool) := by
  unfold State.gone
  exact .cancelAll _ _

theorem State.SparesUnheld.leftIssued (s : State) (tool : Nat) : s.SparesUnheld (s.leftIssued tool) := by
  unfold State.leftIssued
  exact .cancelAll _ _

/-! ### What a retired or deleted instance's neighbours settle -/

theorem State.settleMarks_isc (s : State) (n : Nat) : (s.settleMarks n).isc = s.isc :=
  State.foldl_keeps (π := fun s => s.isc) (fun u k => by unfold State.settleMarkAt; dsimp only; split <;> [split; skip] <;> rfl) _ s

/-- R20: beside the instances that HOE owes, the register stands when an instance has been retired or deleted; ISC has let go of it. -/
theorem State.afterRetired_does (s : State) (n : Nat) :
    s.AllPassedBy (s.afterRetired n) ∧ s.SparesUnheld (s.afterRetired n) ∧ (s.afterRetired n).isc = (s.leavePutaway n).isc := by
  have htrg : ((s.leavePutaway n).settleMarks n).trg = s.trg := by simp
  have hgone := (State.HandsOff.refl ((s.leavePutaway n).settleMarks n)).gone n
  unfold State.afterRetired
  exact ⟨(State.AllPassedBy.of_trg htrg).trans hgone.passes, (State.SparesUnheld.of_trg htrg).trans (.gone _ _),
    hgone.isc_eq.trans (State.settleMarks_isc _ _)⟩

/-- ISC holds neither an assignment nor a late-pick memory of the instance. -/
def State.LetGo (s : State) (n : Nat) : Prop :=
  tget s.isc.assigned n = none ∧ ∀ e ∈ s.isc.latePicks, e.2.tool ≠ n

theorem State.LetGo.of_isc {s t : State} {n : Nat} (h : s.LetGo n) (hi : t.isc = s.isc) : t.LetGo n := by
  unfold State.LetGo
  rw [hi]
  exact h

/-- R63, R71: ISC lets go of an instance that has been retired or deleted. -/
theorem State.retired_letGo (s : State) (n : Nat) : ((s.clearLatePicksOf n).afterRetired n).LetGo n := by
  refine State.LetGo.of_isc (s := (s.clearLatePicksOf n).leavePutaway n) ⟨State.leavePutaway_unassigned _ n, fun e he => ?_⟩
    ((s.clearLatePicksOf n).afterRetired_does n).2.2
  rw [((State.PutsAway.refl _).leavePutaway n).latePicks_eq] at he
  simpa using (List.mem_filter.1 he).2

/-! ### DELETE -/

theorem InstRec.deletable_iff {r : InstRec} :
    r.deletable = true ↔ r.custody = .retired ∨ r.custody = .missing ∨ (r.custody = .unmeasured ∧ r.loc = .bench) := by
  unfold InstRec.deletable
  cases hc : r.custody <;> cases hl : r.loc <;> simp

/-- What DELETE reports of its own change (R20, R25). -/
def InstRec.deleteReport (r : InstRec) (n : Nat) : Report :=
  .custodyChange n r.type (some r.custody) r.loc none .nowhere .delete none

/-- R25: what an accepted DELETE does. -/
theorem State.deleteTool_does (s : State) (n : Nat) (r : InstRec) :
    ∃ rs, (s.deleteTool n r).tool n = none ∧ s.OthersPassedBy (s.deleteTool n r) n ∧ s.Runs (s.deleteTool n r) ∧
      (s.deleteTool n r).isc.queue = s.isc.queue ∧ (s.deleteTool n r).svp = s.svp.handed s.now (r.deleteReport n :: rs) ∧
      (s.deleteTool n r).LetGo n := by
  let u := ((s.delTool n).report (r.deleteReport n)).clearLatePicksOf n
  have hdel : s.deleteTool n r = u.afterRetired n := rfl
  have htool : ∀ m, u.tool m = if m = n then none else s.tool m := fun m => State.tool_delTool (s := s) n m
  have hletGo : (u.afterRetired n).LetGo n := State.retired_letGo _ n
  obtain ⟨hpass, -, hisc⟩ := u.afterRetired_does n
  have hu : s.Runs u := (((State.Runs.refl s).delTool n).report _).clearLatePicksOf n
  have hqueue : (u.afterRetired n).isc.queue = s.isc.queue := by
    rw [hisc, ((State.PutsAway.refl u).leavePutaway n).queue_eq]
    rfl
  obtain ⟨⟨rs, hrs⟩, -⟩ := (State.Runs.refl u).afterRetired n
  have hruns := hu.afterRetired n
  rw [hdel]
  generalize u.afterRetired n = t at *
  exact ⟨rs, (hpass n).1 ((htool n).trans (if_pos rfl)), hpass.others fun m hm => (htool m).trans (if_neg hm), hruns, hqueue,
    hrs, hletGo⟩

/-! ### RETIRE -/

/-- An allocation pass assigns nothing to an instance that is not offered and awaits no put-away. -/
theorem State.Unoffered.unassigned {s : State} {n : Nat} {i : InstRec} (h : s.Unoffered n i) (hi : i.wantsPutaway = false)
    (ha : tget s.isc.assigned n = none) : tget s.allocationPass.isc.assigned n = none := by
  refine (State.allocationPass_keeps (P := fun u => u.Unoffered n i ∧ tget u.isc.assigned n = none) (fun u number hu => ?_)
    ⟨h, ha⟩).2
  refine ⟨hu.1.allocateFor number, ?_⟩
  rcases u.allocateFor_cases number with hs | ⟨r, -, hs⟩ | ⟨r, t, m, j, -, -, hm, hc, hs⟩
  · rw [hs]
    exact hu.2
  · rw [hs, State.enterWaiting_isc]
    exact hu.2
  · have hafter := (hu.1.allocateFor number).tool
    rw [hs] at hafter ⊢
    rcases j.loc.pocket_or with ⟨c, p, hl⟩ | hl
    · obtain ⟨q, hq⟩ := u.reserve_pocket r m c p hl
      rw [hq]
      exact hu.2
    · obtain ⟨q, hq⟩ := u.reserve_bench r m hl
      rw [hq] at hafter ⊢
      exact State.leavePutaway_keeps_unassigned (s := u.reserving r m j) m hu.2
        ((State.tool_of_trg (State.leavePutaway_trg _ m) n).symm.trans hafter) hi

/-- The record of an instance that RETIRE has retired (R24). -/
def InstRec.retired (r : InstRec) : InstRec :=
  { r with
    custody := .retired, loc := .nowhere, link := none, qcause := none
    owed := if r.custody = .loaded ∨ r.custody = .issued then false else r.owed }

/-- The steps of RETIRE before its own change: a reservation released, the magazine entry gone (R24). -/
def State.retireLeaves (s : State) (n : Nat) (r : InstRec) : State :=
  let s := if r.custody == .reserved then s.releaseToQueue n false else s
  match r.loc with
  | .station st _ => s.dropMagazine st n
  | .toStation st _ => s.dropMagazine st n
  | _ => s

/-- The record that RETIRE's own change finds: that of the instance, released where it was reserved (R24). -/
def InstRec.retiring (r : InstRec) : InstRec := if r.custody = .reserved then r.released false else r

/-- R24: what the steps of RETIRE before its own change leave. -/
theorem State.retireLeaves_does {s : State} {n : Nat} {r : InstRec} (hn : s.tool n = some r) :
    (s.retireLeaves n r).tool n = some r.retiring ∧ s.TouchesOnly (s.retireLeaves n r) n ∧ s.Runs (s.retireLeaves n r) := by
  let u := if r.custody == .reserved then s.releaseToQueue n false else s
  have hu : u.tool n = some r.retiring ∧ s.TouchesOnly u n ∧ s.Runs u := by
    unfold InstRec.retiring
    by_cases hc : r.custody = .reserved
    · have htrg := (State.releaseToQueue_does hn (by simp [hc]) false).1
      simp only [u, hc, beq_self_eq_true, if_true]
      refine ⟨(State.tool_of_trg htrg n).trans ((State.tool_setTool _ _ _ _).trans (if_pos rfl)), ?_,
        (State.Runs.refl s).releaseToQueue n false⟩
      exact (State.TouchesOnly.setTool s n _).trans (.of_trg htrg n)
    · simp only [u, beq_eq_false_iff_ne.2 hc, if_neg hc]
      exact ⟨hn, .of_trg rfl n, .refl s⟩
  obtain ⟨htool, htouch, hruns⟩ := hu
  have drop : ∀ st, (u.dropMagazine st n).tool n = some r.retiring ∧ s.TouchesOnly (u.dropMagazine st n) n ∧
      s.Runs (u.dropMagazine st n) := fun st =>
    ⟨(State.tool_of_trg (State.dropMagazine_trg u st n) n).trans htool, htouch.trans (.of_trg (State.dropMagazine_trg u st n) n),
      hruns.dropMagazine st n⟩
  unfold State.retireLeaves
  dsimp only
  split
  · exact drop _
  · exact drop _
  · exact ⟨htool, htouch, hruns⟩

/-- RETIRE after its own change: the pocket, the request, put-away, marks and transactions follow (R24). -/
def State.retireSettles (s : State) (n : Nat) (r : InstRec) : State :=
  let s := s.dropPocket r.loc n
  let s := if r.custody = .issued then s.loseRequest r.link else s
  (s.clearLatePicksOf n).afterRetired n

theorem State.retireSettles_does (s : State) (n : Nat) (r : InstRec) :
    s.AllPassedBy (s.retireSettles n r) ∧ s.SparesUnheld (s.retireSettles n r) ∧ (s.retireSettles n r).LetGo n ∧
      s.Runs (s.retireSettles n r) := by
  let u := if r.custody = .issued then (s.dropPocket r.loc n).loseRequest r.link else s.dropPocket r.loc n
  have htrg : (u.clearLatePicksOf n).trg = s.trg := by
    simp only [u]
    split <;> simp
  have hruns : s.Runs (u.clearLatePicksOf n) := by
    have hd := (State.Runs.refl s).dropPocket r.loc n
    simp only [u]
    split
    · exact (hd.loseRequest _).clearLatePicksOf n
    · exact hd.clearLatePicksOf n
  have heq : s.retireSettles n r = (u.clearLatePicksOf n).afterRetired n := rfl
  obtain ⟨hpass, hspares, -⟩ := (u.clearLatePicksOf n).afterRetired_does n
  rw [heq]
  exact ⟨(State.AllPassedBy.of_trg htrg).trans hpass, (State.SparesUnheld.of_trg htrg).trans hspares, u.retired_letGo n,
    hruns.afterRetired n⟩

/-- The transition of RETIRE (R24). -/
def retireMove : Move := { cause := .retire, custody := .retired, loc := .nowhere }

/-- R24: handoff owed is cleared for LOADED and ISSUED and kept otherwise. -/
def InstRec.settleOwed (r i : InstRec) : InstRec :=
  if r.custody = .loaded ∨ r.custody = .issued then { i with owed := false } else i

theorem InstRec.moved_retire (r : InstRec) : r.settleOwed (r.retiring.moved retireMove) = r.retired := by
  have hgoal : redirect Custody.retired r.life = .retired := by unfold redirect; split <;> rfl
  by_cases hres : r.custody = .reserved
  · have hrel := r.released_not_issued
    have : r.retiring = r.released false := if_pos hres
    rw [this]
    simp only [InstRec.settleOwed, hres, InstRec.moved, hrel, InstRec.retired]
    simp [InstRec.released, retireMove, hgoal]
  · have : r.retiring = r := if_neg hres
    rw [this]
    by_cases hi : r.custody = .issued <;> by_cases hl : r.custody = .loaded <;>
      simp [InstRec.settleOwed, InstRec.moved, retireMove, hgoal, InstRec.retired, hi, hl]

/-- The state after RETIRE's own change (R24). -/
def State.retiredIn (s : State) (n : Nat) (r : InstRec) : State :=
  (s.setTool n r.retired).report (changeReport n r.retiring (r.retiring.moved retireMove) .retire)

/-- R24: RETIRE in its steps. -/
theorem State.retire_eq {s : State} {n : Nat} {r : InstRec} (hn : s.tool n = some r) :
    s.retire n r =
      if r.custody = .reserved then (((s.retireLeaves n r).retiredIn n r).retireSettles n r).allocationPass
      else ((s.retireLeaves n r).retiredIn n r).retireSettles n r := by
  have htool := (State.retireLeaves_does hn).1
  have hchange : (s.retireLeaves n r).transition n r.retiring retireMove
      r.settleOwed =
      (s.retireLeaves n r).retiredIn n r := by
    unfold State.transition State.retiredIn
    rw [r.moved_retire]
    rfl
  have hsteps : s.retire n r = match (s.retireLeaves n r).tool n with
      | none => s.retireLeaves n r
      | some i =>
        if r.custody == .reserved then
          (((s.retireLeaves n r).transition n i retireMove
            r.settleOwed).retireSettles n
              r).allocationPass
        else ((s.retireLeaves n r).transition n i retireMove
            r.settleOwed).retireSettles n r := rfl
  rw [hsteps, htool]
  simp only [hchange, beq_iff_eq]

/-- R24: what an accepted RETIRE does. -/
theorem State.retire_does {s : State} {n : Nat} {r : InstRec} (hs : tableSorted s.trg.insts = true) (hn : s.tool n = some r) :
    (s.retire n r).tool n = some r.retired ∧ s.OthersPassedBy (s.retire n r) n ∧ s.Runs (s.retire n r) ∧ (s.retire n r).LetGo n := by
  obtain ⟨-, htouch, hruns⟩ := State.retireLeaves_does hn
  let v := (s.retireLeaves n r).retiredIn n r
  have hv : s.TouchesOnly v n := htouch.trans (.trans (.setTool _ _ _) (.of_trg rfl n))
  have hvn : v.tool n = some r.retired := (State.tool_setTool _ _ _ _).trans (if_pos rfl)
  have hvruns : s.Runs v := (hruns.setTool n _).report _
  obtain ⟨hpass, hspares, hletGo, hsettles⟩ := v.retireSettles_does n r
  have hwruns := hvruns.trans hsettles
  have hwn := hspares.2 n _ hvn rfl
  have hwsorted := hspares.1 (hv.1 hs)
  rw [State.retire_eq hn]
  generalize v.retireSettles n r = w at *
  split
  · have hun : w.Unoffered n r.retired := ⟨hwsorted, hwn, .inl ⟨by simp [InstRec.retired], by simp [InstRec.retired]⟩⟩
    refine ⟨hun.allocationPass, (hpass.trans (State.allocationPass_passes hwsorted).1).others hv.2, hwruns.allocationPass,
      hun.unassigned rfl hletGo.1, ?_⟩
    rw [State.allocationPass_latePicks]
    exact hletGo.2
  · exact ⟨hwn, hpass.others hv.2, hwruns, hletGo⟩

/-- Settles O7. -/
theorem retireAndDelete : Obligations.RetireAndDelete := by
  refine ⟨fun s tag body r h hs hno hn => ⟨fun hc => ?_, fun hp hr => ?_⟩, fun s tag body r h hno hn => ⟨fun hd => ?_, fun hd => ?_⟩,
    fun s tag body => ⟨fun h => ⟨fun hrange => ?_, fun h1 h2 hn => ?_⟩, fun h => ⟨fun hrange => ?_, fun h1 h2 hn => ?_⟩⟩⟩
  · change execRetire tag body s = _
    unfold execRetire
    exact hostCommand_answers h ((withTool_present (s := s.taken _ tag body) hno hn).trans (if_pos hc))
  · obtain ⟨htool, hpass, hruns, hletGo⟩ := State.retire_does (s := s.taken 0x0C tag body) hs hn
    generalize ht : (s.taken 0x0C tag body).retire (fieldAt body 0 2) r = t at *
    obtain ⟨⟨rs, hsvp⟩, -⟩ := id hruns
    refine ⟨{ t with svp := s.svpAnswered 0x0C tag body rs (.plain .ok) }, rs, ?_, htool, hpass, hruns.toolsOnly _, rfl, hletGo⟩
    change execRetire tag body s = _
    unfold execRetire
    refine hostCommand_runs h ((withTool_present (s := s.taken _ tag body) hno hn).trans ?_) hsvp
    rw [if_neg (not_or.2 ⟨hp, hr⟩), ht]
  · change execDelete tag body s = _
    unfold execDelete
    exact hostCommand_answers h ((withTool_present (s := s.taken _ tag body) hno hn).trans (if_neg (mt InstRec.deletable_iff.1 hd)))
  · obtain ⟨rs, htool, hpass, hruns, hqueue, hsvp, hletGo⟩ := (s.taken 0x0D tag body).deleteTool_does (fieldAt body 0 2) r
    let told := r.deleteReport (fieldAt body 0 2) :: rs
    generalize ht : (s.taken 0x0D tag body).deleteTool (fieldAt body 0 2) r = t at *
    refine ⟨{ t with svp := s.svpAnswered 0x0D tag body told (.plain .ok) }, rs, ?_, htool, hpass, hruns.toolsOnly _, hqueue, rfl,
      hletGo⟩
    change execDelete tag body s = _
    unfold execDelete
    refine hostCommand_runs h ((withTool_present (s := s.taken _ tag body) hno hn).trans ?_) hsvp
    rw [if_pos (InstRec.deletable_iff.2 hd), ht]
  · change execRetire tag body s = _
    unfold execRetire
    exact hostCommand_answers h (withTool_range hrange)
  · change execRetire tag body s = _
    unfold execRetire
    exact hostCommand_answers h (withTool_absent (toolNo_iff.2 ⟨h1, h2⟩) hn)
  · change execDelete tag body s = _
    unfold execDelete
    exact hostCommand_answers h (withTool_range hrange)
  · change execDelete tag body s = _
    unfold execDelete
    exact hostCommand_answers h (withTool_absent (toolNo_iff.2 ⟨h1, h2⟩) hn)

end Sys2Proof.Machine

/-! O20: the pick timeout. -/

namespace Sys2Proof.Machine

open State

/-! ### What follows a release -/

/-- R61, R67: what the pass and put-away after a release leave. -/
theorem State.afterRelease_does {s : State} (hs : tableSorted s.trg.insts = true) (n : Nat) :
    s.AllPassedBy (s.afterRelease n) ∧ (s.afterRelease n).isc.latePicks = s.isc.latePicks ∧
      ∀ k, ((s.afterRelease n).request k).map (·.misses) = (s.request k).map (·.misses) := by
  have hput := (State.PutsAway.refl s.allocationPass).tryPutaway n
  unfold State.afterRelease
  refine ⟨(State.allocationPass_passes hs).1.trans (.of_trg hput.trg_eq), hput.latePicks_eq.trans s.allocationPass_latePicks,
    fun k => ?_⟩
  rw [State.request_of_queue hput.queue_eq]
  exact s.allocationPass_misses k

/-- An instance that is not offered stands through the pass and put-away after a release. -/
theorem State.Unoffered.afterRelease {s : State} {n : Nat} {i : InstRec} (h : s.Unoffered n i) (m : Nat) :
    (s.afterRelease m).tool n = some i :=
  (State.tool_of_trg (State.tryPutaway_trg s.allocationPass m) n).trans h.allocationPass

/-! ### The pick timeout -/

/-- The request of a reservation that was not picked up (R62). -/
def Request.missed (r : Request) : Request := { r.unreserved with misses := r.misses + 1 }

/-- The late-pick memory of a reservation in a pocket (R62, R63). -/
def State.lateMemory (s : State) (r : Request) (n : Nat) : LatePick := { request := r.number, tool := n, endTick := s.tick + 15000 }

/-- R62: at the third miss the request is cancelled. -/
theorem State.pickTimesOut_last {s : State} {r : Request} {n : Nat} (h : 2 ≤ r.misses) :
    s.pickTimesOut r n = ((s.releaseTool n true).endRequest r.missed .cancelled .pickMissed).afterRelease n := by
  unfold State.pickTimesOut
  dsimp only
  rw [if_pos (by omega)]
  rfl

/-- R62: before the third miss the request of a pocket reservation returns to QUEUED, and the pocket keeps a late-pick memory. -/
theorem State.pickTimesOut_pocket {s : State} {r : Request} {n c p : Nat} {i : InstRec} (h : r.misses < 2) (hn : s.tool n = some i)
    (hl : i.loc = .pocket c p) :
    ∃ w, s.pickTimesOut r n = State.afterRelease w n ∧
      w = ((s.releaseTool n true).changeRequest r.missed .pickTimeout).setIsc
        { ((s.releaseTool n true).changeRequest r.missed .pickTimeout).isc with
          latePicks := tset (s.releaseTool n true).isc.latePicks (pocketKey c p) (s.lateMemory r n) } := by
  refine ⟨_, ?_, rfl⟩
  have htick : (s.releaseTool n true).tick = s.tick := by rw [((State.Issues.refl s).releaseTool n true).2]; rfl
  unfold State.pickTimesOut State.lateMemory
  dsimp only
  rw [if_neg (by omega), hn, Option.map_some, hl, ← htick]
  rfl

/-- R62: the same of a reservation at the bench. -/
theorem State.pickTimesOut_bench {s : State} {r : Request} {n : Nat} {i : InstRec} (h : r.misses < 2) (hn : s.tool n = some i)
    (hl : i.loc = .bench) :
    s.pickTimesOut r n = ((s.releaseTool n true).changeRequest r.missed .pickTimeout).afterRelease n := by
  unfold State.pickTimesOut
  dsimp only
  rw [if_neg (by omega), hn, Option.map_some, hl]
  rfl

/-- R62: what the release, the count of the miss and the reports of a pick timeout leave, before the pass. -/
structure State.Misses (s w : State) (r : Request) (n : Nat) (i : InstRec) (state : ReqState) (cause : ReqCause) : Prop where
  trg : w.trg = (s.setTool n (i.released true)).trg
  hoe : w.hoe = s.hoe
  issues : s.Issues w
  svp : w.svp = s.svp.handed s.now [i.releaseReport n true, .requestState { r.missed with state := state } cause]

theorem State.Misses.sorted {s w : State} {r : Request} {n : Nat} {i : InstRec} {state : ReqState} {cause : ReqCause}
    (h : s.Misses w r n i state cause) (hs : tableSorted s.trg.insts = true) : tableSorted w.trg.insts = true := by
  rw [h.trg]
  exact tableSorted_tset _ _ hs

theorem State.Misses.tool {s w : State} {r : Request} {n : Nat} {i : InstRec} {state : ReqState} {cause : ReqCause}
    (h : s.Misses w r n i state cause) (m : Nat) : w.tool m = if m = n then some (i.released true) else s.tool m := by
  rw [State.tool_of_trg h.trg, State.tool_setTool]

/-- R62: a request that its timeout cancels. -/
theorem State.misses_end {s : State} {r : Request} {n : Nat} {i : InstRec} (hn : s.tool n = some i) (h : i.custody ≠ .issued) :
    s.Misses ((s.releaseTool n true).endRequest r.missed .cancelled .pickMissed) r n i .cancelled .pickMissed := by
  obtain ⟨htrg, -, hhoe, hsvp⟩ := State.releaseTool_does hn h true
  have hissue := (State.Issues.refl s).releaseTool n true
  refine ⟨htrg, hhoe, hissue.endRequest _ _ _, ?_⟩
  rw [show [i.releaseReport n true, .requestState { r.missed with state := .cancelled } .pickMissed] =
    [i.releaseReport n true] ++ [.requestState { r.missed with state := .cancelled } .pickMissed] from rfl, Svp.handed_append, ← hsvp,
    ← hissue.now_eq]
  rfl

/-- R62: a request that its timeout returns to QUEUED. -/
theorem State.misses_change {s : State} {r : Request} {n : Nat} {i : InstRec} (hn : s.tool n = some i) (h : i.custody ≠ .issued) :
    s.Misses ((s.releaseTool n true).changeRequest r.missed .pickTimeout) r n i .queued .pickTimeout := by
  obtain ⟨htrg, -, hhoe, hsvp⟩ := State.releaseTool_does hn h true
  have hissue := (State.Issues.refl s).releaseTool n true
  refine ⟨htrg, hhoe, hissue.changeRequest _ _, ?_⟩
  rw [show [i.releaseReport n true, .requestState { r.missed with state := .queued } .pickTimeout] =
    [i.releaseReport n true] ++ [.requestState { r.missed with state := .queued } .pickTimeout] from rfl, Svp.handed_append, ← hsvp,
    ← hissue.now_eq]
  rfl

/-- R48: the queue without a request's number has no request of that number. -/
theorem State.request_endRequest {s : State} {r : Request} {state : ReqState} {cause : ReqCause} :
    (s.endRequest r state cause).request r.number = none := by
  change (s.isc.queue.filter (fun x => x.number ≠ r.number)).find? (fun x => x.number == r.number) = none
  rw [List.find?_eq_none]
  intro x hx
  simpa using (List.mem_filter.1 hx).2

theorem State.request_changeRequest {s : State} {r q : Request} {k : Nat} {cause : ReqCause} (h : s.request k = some r)
    (hq : q.number = r.number) : (s.changeRequest q cause).request k = some q := by
  refine (State.request_putRequest s q k).trans ?_
  rw [if_pos (by rw [hq, State.request_number h]), h]
  rfl

/-! ### The step -/

theorem execPickTimeout_early {s : State} {k b : Nat} {r : Request} (hr : s.request k = some r) (hb : r.reserveTick = some b)
    (h : s.tick < b + s.isc.pickTimeout * 1000) : exec (.pickTimeout k) s = .next s.idled := by
  have hdue : s.quiet.pickDue r = false := by
    unfold State.pickDue
    split
    · rename_i b' _ hb'
      rw [hb] at hb'
      cases hb'
      exact decide_eq_false (not_le.2 h)
    · rfl
  have hfire : s.quiet.firePick k = s.quiet := by
    unfold State.firePick
    rw [show s.quiet.request k = some r from hr]
    simp [hdue]
  change event (fun s => s.firePick k) s = _
  rw [event_next]
  simp only [hfire]
  rfl

theorem State.firePick_due {s : State} {k b n : Nat} {r : Request} (hr : s.request k = some r) (hst : r.state = .reserved)
    (hb : r.reserveTick = some b) (hn : r.tool = some n) (h : b + s.isc.pickTimeout * 1000 ≤ s.tick) :
    s.firePick k = s.pickTimesOut r n := by
  have hdue : s.pickDue r = true := by simp [State.pickDue, hst, hb, h]
  unfold State.firePick
  simp only [hr, hdue, hn, if_true]

/-- The step of a pick timeout that has come: what stands before the pass, and what the pass and put-away add. -/
theorem execPickTimeout_due {s w : State} {k b n : Nat} {r : Request} {i : InstRec} {state : ReqState} {cause : ReqCause}
    (hs : tableSorted s.trg.insts = true) (hr : s.request k = some r)
    (hst : r.state = .reserved) (hb : r.reserveTick = some b) (hn : r.tool = some n) (h : b + s.isc.pickTimeout * 1000 ≤ s.tick)
    (hw : s.quiet.Misses w r n i state cause) (ht : s.quiet.pickTimesOut r n = w.afterRelease n) :
    ∃ t rs j, exec (.pickTimeout k) s = .next t ∧ s.ToolsOnly t ∧ t.hoe = s.hoe ∧ s.OthersPassedBy t n ∧ t.tool n = some j ∧
      (i.released true).PassedBy j ∧ (w.Unoffered n (i.released true) → j = i.released true) ∧ t.isc.latePicks = w.isc.latePicks ∧
      (∀ k, (t.request k).map (·.misses) = (w.request k).map (·.misses)) ∧
      t.svp = s.svpReported (i.releaseReport n true :: .requestState { r.missed with state := state } cause :: rs) := by
  have hsorted := hw.sorted hs
  obtain ⟨hpass, hlate, hmiss⟩ := State.afterRelease_does hsorted n
  obtain ⟨⟨rs, hrs⟩, -⟩ := (State.Issues.refl w).afterRelease n
  have hissue := hw.issues.afterRelease n
  have hhoe := ((State.Issues.refl w).afterRelease n).hoe_eq.trans hw.hoe
  obtain ⟨j, hj, hij⟩ := (hpass n).2 _ ((hw.tool n).trans (if_pos rfl))
  have hsvp : (s.quiet.firePick k).svp = s.svp.handed s.now
      (i.releaseReport n true :: .requestState { r.missed with state := state } cause :: rs) := by
    rw [State.firePick_due (s := s.quiet) hr hst hb hn h, ht, hrs, hw.svp, hw.issues.now_eq, ← Svp.handed_append]
    rfl
  have hstand : w.Unoffered n (i.released true) → (w.afterRelease n).tool n = some (i.released true) := fun hu => hu.afterRelease n
  have hexec := event_handed (f := fun s => s.firePick k) hsvp
  rw [State.firePick_due (s := s.quiet) hr hst hb hn h, ht] at hexec
  generalize w.afterRelease n = t at *
  exact ⟨_, rs, j, hexec, hissue.runs.toolsOnly_of_quiet _, hhoe, hpass.others fun m hm => (hw.tool m).trans (if_neg hm), hj, hij,
    fun hu => Option.some.inj (hj.symm.trans (hstand hu)), hlate, hmiss, rfl⟩

theorem InstRec.released_pocket {i : InstRec} {c p : Nat} (h : i.loc = .pocket c p) :
    i.released true = { i with custody := if i.life = 0 then .regrindDue else .ready, link := none, qcause := none } := by
  by_cases hl : i.life = 0 <;> simp [InstRec.released, h, redirect, hl]

theorem InstRec.released_bench {i : InstRec} (h : i.loc = .bench) :
    i.released true = { i with custody := if i.life = 0 then .regrindDue else .staged, link := none, qcause := none } := by
  by_cases hl : i.life = 0 <;> simp [InstRec.released, h, redirect, hl]

theorem InstRec.releaseReport_of {i : InstRec} {n : Nat} {c : Custody} (h : i.custody = .reserved)
    (hr : i.released true = { i with custody := c, link := none, qcause := none }) :
    i.releaseReport n true = .custodyChange n i.type (some .reserved) i.loc (some c) i.loc .release none := by
  rw [InstRec.releaseReport, hr, changeReport, h]

theorem State.request_counted {t w : State} {k : Nat} {q : Request}
    (h : (t.request k).map (·.misses) = (w.request k).map (·.misses)) (hq : w.request k = some q) :
    ∃ r', t.request k = some r' ∧ r'.misses = q.misses := by
  rw [hq] at h
  exact Option.map_eq_some_iff.1 h

theorem State.request_gone {t w : State} {k : Nat} (h : (t.request k).map (·.misses) = (w.request k).map (·.misses))
    (hq : w.request k = none) : t.request k = none := by
  rw [hq] at h
  exact Option.map_eq_none_iff.1 h

/-- R62: the request that a pick timeout ends is gone, the one it returns to QUEUED has one miss more. -/
theorem State.missed_request {s : State} {k n : Nat} {r : Request} {i : InstRec} (hr : s.request k = some r) (hn : s.tool n = some i)
    (h : i.custody ≠ .issued) :
    ((s.releaseTool n true).changeRequest r.missed .pickTimeout).request k = some r.missed ∧
    ((s.releaseTool n true).endRequest r.missed .cancelled .pickMissed).request k = none := by
  have hq := (State.request_of_queue (congrArg Isc.queue (State.releaseTool_does hn h true).2.1) k).trans hr
  refine ⟨State.request_changeRequest hq rfl, ?_⟩
  rw [← State.request_number hr]
  exact State.request_endRequest (r := r.missed)

/-- Settles O20: what stands before the pass decides all but what the pass and put-away add. -/
theorem pickTimeoutReleasesReservation : Obligations.PickTimeoutReleasesReservation := by
  refine ⟨fun s k n c p b r i hs hr hst hn hb hi hc hl => ⟨fun hdue => ?_, execPickTimeout_early hr hb⟩, ?_⟩
  · have hissued : i.custody ≠ .issued := by simp [hc]
    have hrel := InstRec.released_pocket hl
    have hreport := InstRec.releaseReport_of (n := n) hc hrel
    obtain ⟨hchanged, hended⟩ := State.missed_request (s := s.quiet) hr hi hissued
    have hkept : (s.quiet.releaseTool n true).isc.latePicks = s.isc.latePicks :=
      congrArg Isc.latePicks (State.releaseTool_does (s := s.quiet) hi hissued true).2.1
    by_cases hmiss : r.misses < 2
    · obtain ⟨w, hw, hweq⟩ := State.pickTimesOut_pocket (s := s.quiet) hmiss hi hl
      have hmisses : s.quiet.Misses w r n i .queued .pickTimeout := by
        obtain ⟨htrg, hhoe, hissues, hsvp⟩ := State.misses_change (r := r) (s := s.quiet) hi hissued
        rw [hweq]
        exact ⟨htrg, hhoe, hissues.setIsc _ rfl, hsvp⟩
      obtain ⟨t, rs, j, hexec, htools, hhoe, hpass, hj, -, hstand, hlate, hcount, hsvp⟩ :=
        execPickTimeout_due hs hr hst hb hn hdue hmisses hw
      have hmemory : tget w.isc.latePicks (pocketKey c p) = some { request := k, tool := n, endTick := s.tick + 15000 } := by
        rw [hweq, ← State.request_number hr]
        exact tget_tset_self _ _ _
      have hbarred : w.Unoffered n (i.released true) :=
        ⟨hmisses.sorted hs, (hmisses.tool n).trans (if_pos rfl), .inr ⟨c, p, hl, by rw [hmemory]; simp⟩⟩
      refine ⟨t, rs, j, hexec, htools, hhoe, hpass, hj, fun _ => ⟨(hstand hbarred).trans hrel, by rw [hlate, hmemory], ?_, ?_⟩,
        fun h => absurd hmiss (by omega)⟩
      · exact State.request_counted (hcount k) (by rw [hweq]; exact hchanged)
      · rw [hsvp, hreport]
        rfl
    · obtain ⟨t, rs, j, hexec, htools, hhoe, hpass, hj, hij, -, hlate, hcount, hsvp⟩ :=
        execPickTimeout_due hs hr hst hb hn hdue (State.misses_end hi hissued) (State.pickTimesOut_last (by omega))
      refine ⟨t, rs, j, hexec, htools, hhoe, hpass, hj, fun h => absurd h hmiss,
        fun _ => ⟨State.request_gone (hcount k) hended, ?_, hrel ▸ hij, ?_⟩⟩
      · rw [hlate]
        exact hkept
      · rw [hsvp, hreport]
        rfl
  · intro s k n b r i hs hr hst hn hb hi hc hl after free
    refine ⟨fun hdue => ?_, execPickTimeout_early hr hb⟩
    have hissued : i.custody ≠ .issued := by simp [hc]
    have hrel := InstRec.released_bench hl
    have hreport := InstRec.releaseReport_of (n := n) hc hrel
    obtain ⟨hchanged, hended⟩ := State.missed_request (s := s.quiet) hr hi hissued
    have hkept : (s.quiet.releaseTool n true).isc.latePicks = s.isc.latePicks :=
      congrArg Isc.latePicks (State.releaseTool_does (s := s.quiet) hi hissued true).2.1
    by_cases hmiss : r.misses < 2
    · obtain ⟨t, rs, j, hexec, htools, hhoe, hpass, hj, hij, -, hlate, hcount, hsvp⟩ :=
        execPickTimeout_due hs hr hst hb hn hdue (State.misses_change hi hissued) (State.pickTimesOut_bench hmiss hi hl)
      refine ⟨t, rs, j, hexec, htools, hhoe, hpass, hj, hrel ▸ hij, ?_, fun _ => State.request_counted (hcount k) hchanged,
        fun h => absurd hmiss (by omega), ?_⟩
      · rw [hlate]
        exact hkept
      · rw [hsvp, hreport, if_pos hmiss, if_pos hmiss]
        rfl
    · obtain ⟨t, rs, j, hexec, htools, hhoe, hpass, hj, hij, -, hlate, hcount, hsvp⟩ :=
        execPickTimeout_due hs hr hst hb hn hdue (State.misses_end hi hissued) (State.pickTimesOut_last (by omega))
      refine ⟨t, rs, j, hexec, htools, hhoe, hpass, hj, hrel ▸ hij, ?_, fun h => absurd h hmiss,
        fun _ => State.request_gone (hcount k) hended, ?_⟩
      · rw [hlate]
        exact hkept
      · rw [hsvp, hreport, if_neg hmiss, if_neg hmiss]
        rfl

end Sys2Proof.Machine

/-! O11: IDENTIFY, and the custody of a placement (R69) that it shares with a PLACED event. -/

namespace Sys2Proof.Machine

open State

/-! ### The custody of a placement -/

/-- R2: the type is present and held. -/
theorem State.typeHeld_iff {s : State} {n : Nat} : s.typeHeld n = true ↔ ∃ ty, s.type n = some ty ∧ ty.held = true := by
  unfold State.typeHeld
  cases s.type n <;> simp

/-- R69: the instance is kept on its return. -/
theorem keptOnReturn_iff {s : State} {r : InstRec} :
    (((s.type r.type).map (·.keepOnReturn)).getD false && r.meas.isSome && decide (0 < r.life)) = true ↔
      (∃ ty, s.type r.type = some ty ∧ ty.keepOnReturn = true) ∧ r.meas ≠ none ∧ 0 < r.life := by
  rw [Bool.and_eq_true, Bool.and_eq_true, decide_eq_true_eq, and_assoc]
  refine and_congr ?_ (and_congr ?_ Iff.rfl)
  · cases s.type r.type <;> simp
  · cases r.meas <;> simp

theorem State.isDamaged_iff {s : State} {n : Nat} : s.isDamaged n = true ↔ n ∈ s.isc.damaged := by simp [State.isDamaged]

/-- The custody and cause that the rows of R69 give to an instance that would be READY where its type is not held. -/
def readyPlacement (held : Bool) : Custody × Option QCause := if held then (.quarantine, some .typeHold) else (.ready, none)

theorem State.placementOf_staged {s : State} {n : Nat} {r : InstRec} (h : r.custody = .staged) :
    s.placementOf n r = readyPlacement (s.typeHeld r.type) := by
  simp only [State.placementOf, placement, h, readyPlacement]

theorem State.placementOf_unmeasured {s : State} {n : Nat} {r : InstRec} (h : r.custody = .unmeasured) :
    s.placementOf n r = (.unmeasured, none) := by
  simp only [State.placementOf, placement, h]

theorem State.placementOf_damaged {s : State} {n : Nat} {r : InstRec} (h : r.custody = .returning) (hd : n ∈ s.isc.damaged) :
    s.placementOf n r = (.quarantine, some .damaged) := by
  simp only [State.placementOf, placement, h, State.isDamaged_iff.2 hd, if_true]

theorem State.placementOf_kept {s : State} {n : Nat} {r : InstRec} (h : r.custody = .returning) (hd : n ∉ s.isc.damaged)
    (hk : (∃ ty, s.type r.type = some ty ∧ ty.keepOnReturn = true) ∧ r.meas ≠ none ∧ 0 < r.life) :
    s.placementOf n r = readyPlacement (s.typeHeld r.type) := by
  simp only [State.placementOf, placement, h, mt State.isDamaged_iff.1 hd, if_false, keptOnReturn_iff.2 hk, if_true, readyPlacement,
    Bool.false_eq_true]

theorem State.placementOf_lost {s : State} {n : Nat} {r : InstRec} (h : r.custody = .returning) (hd : n ∉ s.isc.damaged)
    (hk : ¬ ((∃ ty, s.type r.type = some ty ∧ ty.keepOnReturn = true) ∧ r.meas ≠ none ∧ 0 < r.life)) :
    s.placementOf n r = (.unmeasured, none) := by
  simp only [State.placementOf, placement, h, mt State.isDamaged_iff.1 hd, if_false, mt keptOnReturn_iff.1 hk, Bool.false_eq_true]

theorem State.placementOf_quarantine {s : State} {n : Nat} {r : InstRec} (h : r.custody = .quarantine) :
    s.placementOf n r = (.quarantine, r.qcause) := by
  simp only [State.placementOf, placement, h]

theorem State.placementOf_regrindDue {s : State} {n : Nat} {r : InstRec} (h : r.custody = .regrindDue) :
    s.placementOf n r = (.regrindDue, none) := by
  simp only [State.placementOf, placement, h]

/-- The custodies that a placement gives. -/
def PlacedCustody (c : Custody) : Prop := c = .ready ∨ c = .quarantine ∨ c = .regrindDue ∨ c = .unmeasured

theorem placement_custody (r : InstRec) (damaged held keep : Bool) : PlacedCustody (placement r damaged held keep).1 := by
  unfold placement PlacedCustody
  cases held <;> cases r.custody <;> cases damaged <;> simp <;> split <;> simp

theorem redirect_placed {c : Custody} {life : Nat} (h : PlacedCustody c) : PlacedCustody (redirect c life) := by
  unfold PlacedCustody at *
  by_cases hl : life = 0 <;> rcases h with rfl | rfl | rfl | rfl <;> simp [redirect, hl]

theorem redirect_quarantine {c : Custody} {life : Nat} : redirect c life = .quarantine ↔ c = .quarantine := by
  unfold redirect
  split
  · cases c <;> simp
  · rfl

theorem redirect_ready (life : Nat) : redirect .ready life = if life = 0 then .regrindDue else .ready := rfl

theorem redirect_unmeasured (life : Nat) : redirect .unmeasured life = if life = 0 then .regrindDue else .unmeasured := rfl

theorem redirect_barred (life : Nat) : redirect .quarantine life = .quarantine := redirect_quarantine.2 rfl

/-- What an instance lands as under a placement (R19, R69). -/
def LandsAs (lands : Custody → Option QCause → Prop) (g : Custody × Option QCause) (life : Nat) : Prop :=
  lands (redirect g.1 life) (if g.1 = .quarantine then g.2 else none)

theorem LandsAs.barred {lands : Custody → Option QCause → Prop} {g : Custody × Option QCause} {life : Nat} {cause : Option QCause}
    (h : LandsAs lands g life) (hg : g = (.quarantine, cause)) : lands .quarantine cause := by
  rw [hg, LandsAs, redirect_barred] at h
  exact h

theorem LandsAs.plain {lands : Custody → Option QCause → Prop} {g : Custody × Option QCause} {life : Nat} {c : Custody}
    (h : LandsAs lands g life) (hg : g = (c, none)) : lands (redirect c life) none := by
  rw [hg, LandsAs, ite_self] at h
  exact h

/-- R69: the rows of the placement of an instance. -/
structure PlacementRows (s : State) (n : Nat) (r : InstRec) (lands : Custody → Option QCause → Prop) : Prop where
  stagedHeld : r.custody = .staged → (∃ ty, s.type r.type = some ty ∧ ty.held = true) → lands .quarantine (some .typeHold)
  staged : r.custody = .staged → ¬ (∃ ty, s.type r.type = some ty ∧ ty.held = true) →
    lands (if r.life = 0 then .regrindDue else .ready) none
  unmeasured : r.custody = .unmeasured → lands (if r.life = 0 then .regrindDue else .unmeasured) none
  quarantine : r.custody = .quarantine → lands .quarantine r.qcause
  regrindDue : r.custody = .regrindDue → lands .regrindDue none
  damaged : r.custody = .returning → n ∈ s.isc.damaged → lands .quarantine (some .damaged)
  keptHeld : r.custody = .returning → n ∉ s.isc.damaged →
    (∃ ty, s.type r.type = some ty ∧ ty.keepOnReturn = true) ∧ r.meas ≠ none ∧ 0 < r.life →
    (∃ ty, s.type r.type = some ty ∧ ty.held = true) → lands .quarantine (some .typeHold)
  kept : r.custody = .returning → n ∉ s.isc.damaged →
    (∃ ty, s.type r.type = some ty ∧ ty.keepOnReturn = true) ∧ r.meas ≠ none ∧ 0 < r.life →
    ¬ (∃ ty, s.type r.type = some ty ∧ ty.held = true) → lands .ready none
  lost : r.custody = .returning → n ∉ s.isc.damaged →
    ¬ ((∃ ty, s.type r.type = some ty ∧ ty.keepOnReturn = true) ∧ r.meas ≠ none ∧ 0 < r.life) →
    lands (if r.life = 0 then .regrindDue else .unmeasured) none

theorem readyPlacement_held {s : State} {n : Nat} (h : ∃ ty, s.type n = some ty ∧ ty.held = true) :
    readyPlacement (s.typeHeld n) = (.quarantine, some .typeHold) := by
  rw [State.typeHeld_iff.2 h]
  rfl

theorem readyPlacement_free {s : State} {n : Nat} (h : ¬ ∃ ty, s.type n = some ty ∧ ty.held = true) :
    readyPlacement (s.typeHeld n) = (.ready, none) := by
  rw [Bool.eq_false_iff.2 (mt State.typeHeld_iff.1 h)]
  rfl

theorem PlacementRows.of_lands {s : State} {n : Nat} {r : InstRec} {lands : Custody → Option QCause → Prop}
    (h : LandsAs lands (s.placementOf n r) r.life) : PlacementRows s n r lands where
  stagedHeld hc hh := h.barred ((State.placementOf_staged hc).trans (readyPlacement_held hh))
  staged hc hh := h.plain ((State.placementOf_staged hc).trans (readyPlacement_free hh))
  unmeasured hc := h.plain (State.placementOf_unmeasured hc)
  quarantine hc := h.barred (State.placementOf_quarantine hc)
  regrindDue hc := by
    have := h.plain (State.placementOf_regrindDue hc)
    rwa [show redirect .regrindDue r.life = .regrindDue by unfold redirect; split <;> rfl] at this
  damaged hc hd := h.barred (State.placementOf_damaged hc hd)
  keptHeld hc hd hk hh := h.barred ((State.placementOf_kept hc hd hk).trans (readyPlacement_held hh))
  kept hc hd hk hh := by
    have := h.plain ((State.placementOf_kept hc hd hk).trans (readyPlacement_free hh))
    rwa [redirect_ready, if_neg (by have := hk.2.2; omega)] at this
  lost hc hd hk := h.plain (State.placementOf_lost hc hd hk)

/-- The record of an instance that a placement records, but for its handoff owed (R19, R69). -/
def InstRec.placedAs (r : InstRec) (l : Location) (g : Custody × Option QCause) : InstRec :=
  { r with custody := redirect g.1 r.life, loc := l, link := none, qcause := if g.1 = .quarantine then g.2 else none }

theorem InstRec.placedAs_passes {r : InstRec} {m : Move} (h : PlacedCustody m.custody) :
    (r.placedAs m.loc (m.custody, m.qcause)).PassedBy (r.moved m) := by
  have hq := redirect_quarantine (c := m.custody) (life := r.life)
  refine .inl ?_
  unfold InstRec.moved InstRec.placedAs
  dsimp only
  rcases redirect_placed (life := r.life) h with hc | hc | hc | hc <;> simp [hc, ← hq]

theorem changeReport_placed {r : InstRec} {m : Move} (n : Nat) (h : PlacedCustody m.custody) (cause : Cause) :
    changeReport n r (r.moved m) cause =
      .custodyChange n r.type (some r.custody) r.loc (some (redirect m.custody r.life)) m.loc cause none := by
  unfold changeReport InstRec.moved
  rcases redirect_placed (life := r.life) h with hc | hc | hc | hc <;> simp [hc]

theorem State.Runs.now_eq {s t : State} (h : s.Runs t) : t.now = s.now := by rw [h.2]; rfl

/-! ### An instance recorded in its pocket -/

/-- What leaves a pocket's block, put-away and the unheld instances alone keeps an instance in its pocket. -/
theorem State.Seats.of_spared {s t : State} {n c p : Nat} (h : s.Seats n c p) (ht : s.SparesUnheld t) (hp : t.psc = s.psc)
    (ha : t.isc.assigned = s.isc.assigned) (hd : t.isc.damaged = s.isc.damaged) : t.Seats n c p := by
  have hpk : t.pocket c p = s.pocket c p := by simp only [State.pocket, hp]
  obtain ⟨i, hi, hl, hc⟩ := h.lies
  have hheld : i.heldPlace = none := by
    unfold InstRec.heldPlace
    rw [hl]
    cases i.custody <;> rfl
  exact ⟨ht.1 h.insts, by rw [hp]; exact h.pockets, by rw [hpk]; exact h.recorded, by rw [hpk]; exact h.state,
    ⟨i, ht.2 n i hi hheld, hl, hc⟩, by rw [ha]; exact h.unassigned, by rw [hd]; exact h.undamaged⟩

/-- A transition records the instance in the pocket (R44, R69). -/
def State.seat (s : State) (n c p : Nat) (r : InstRec) (m : Move) : State :=
  (s.move n r m).setPocket c p { s.pocket c p with tool := some n, state := .occupied }

theorem State.seat_tool (s : State) (n c p : Nat) (r : InstRec) (m : Move) (k : Nat) :
    (s.seat n c p r m).tool k = if k = n then some (r.moved m) else s.tool k := State.tool_move _ _ _ _ _

theorem State.seat_svp (s : State) (n c p : Nat) (r : InstRec) (m : Move) :
    (s.seat n c p r m).svp = s.svp.handed s.now [changeReport n r (r.moved m) m.cause] := rfl

/-- R44, R69: an instance that is recorded in a pocket is seated there, once ISC has let it leave put-away. -/
theorem State.Seats.seat {s : State} {n c p : Nat} {r : InstRec} {m : Move} (hi : tableSorted s.trg.insts = true)
    (hp : tableSorted s.psc.pockets = true) (ha : tget s.isc.assigned n = none) (hd : n ∉ s.isc.damaged)
    (hl : m.loc = .pocket c p) (hc : PlacedCustody m.custody) : (s.seat n c p r m).Seats n c p := by
  have hpk : (s.seat n c p r m).pocket c p = { s.pocket c p with tool := some n, state := .occupied } :=
    State.pocket_setPocket_self _ c p _
  refine ⟨tableSorted_tset _ _ hi, tableSorted_dset _ _ hp, by rw [hpk], by rw [hpk]; exact .inl rfl,
    ⟨r.moved m, (s.seat_tool n c p r m n).trans (if_pos rfl), hl, ?_⟩, ha, hd⟩
  rcases redirect_placed (life := r.life) hc with h | h | h | h <;> simp [InstRec.moved, h]

/-! ### IDENTIFY -/

theorem State.leavePutaway_svp (s : State) (n : Nat) : (s.leavePutaway n).svp = s.svp := by
  have hnotice : ∀ (u : State) (c p : Nat), (u.noticeIfFree c p).svp = u.svp := fun u c p =>
    State.noticeIfFree_keeps (π := fun s => s.svp) (fun u n => by
      unfold State.assignIfFree
      split
      · split
        · rfl
        · dsimp only
          split <;> rfl
      · rfl) u c p
  unfold State.leavePutaway State.dropAssignment
  split
  · unfold State.vacateAssigned
    dsimp only
    split
    · exact hnotice _ _ _
    · rfl
  · rfl

theorem InstRec.identifiable_iff {r : InstRec} :
    r.identifiable = true ↔ r.custody = .missing ∨ r.custody = .returning ∨ r.custody = .staged ∨
      (r.custody = .issued ∧ r.loc = .toBench) ∨ (r.custody = .unmeasured ∧ r.loc = .bench) := by
  unfold InstRec.identifiable
  cases hc : r.custody <;> cases hl : r.loc <;> simp

theorem State.identifiedAs_custody (s : State) (n : Nat) (r : InstRec) : PlacedCustody (s.identifiedAs n r).1 := by
  unfold State.identifiedAs State.placementOf
  split
  · exact .inr (.inl rfl)
  · exact placement_custody _ _ _ _
  · exact placement_custody _ _ _ _

theorem State.identifiedAs_back {s : State} {n : Nat} {r : InstRec} (h : r.custody = .returning ∨ (r.custody = .issued ∧ r.loc = .toBench)) :
    s.identifiedAs n r = s.placementOf n { r with custody := .returning } := by
  rcases h with h | ⟨h, -⟩
  · unfold State.identifiedAs State.placementOf placement
    simp only [h]
  · unfold State.identifiedAs
    simp only [h]

theorem State.identifiedAs_same {s : State} {n : Nat} {r : InstRec} (h : r.custody = .staged ∨ r.custody = .unmeasured) :
    s.identifiedAs n r = s.placementOf n r := by
  unfold State.identifiedAs
  rcases h with h | h <;> simp only [h]

/-- The transition of IDENTIFY (R44). -/
def State.identifyMove (s : State) (n : Nat) (r : InstRec) (c p : Nat) : Move :=
  { cause := .identify, custody := (s.identifiedAs n r).1, loc := .pocket c p, qcause := (s.identifiedAs n r).2 }

/-- What follows the record of IDENTIFY where the instance was ISSUED (R44, R64). -/
def State.unissued (s : State) (n : Nat) (r : InstRec) : State :=
  if r.custody = .issued then (s.leftIssued n).loseRequest r.link else s

theorem State.identify_eq (s : State) (n : Nat) (r : InstRec) (c p : Nat) :
    s.identify n r c p = (((s.leavePutaway n).seat n c p r (s.identifyMove n r c p)).unissued n r).announce n := rfl

theorem State.loseRequest_isc (s : State) (link : Option Nat) :
    (s.loseRequest link).isc = { s.isc with queue := (s.loseRequest link).isc.queue } := by
  unfold State.loseRequest
  split <;> rfl

theorem State.loseRequest_psc (s : State) (link : Option Nat) : (s.loseRequest link).psc = s.psc := by
  unfold State.loseRequest
  split <;> rfl

theorem State.unissued_does (s : State) (n : Nat) (r : InstRec) :
    s.AllPassedBy (s.unissued n r) ∧ s.SparesUnheld (s.unissued n r) ∧ (s.unissued n r).psc = s.psc ∧
      (s.unissued n r).isc.assigned = s.isc.assigned ∧ (s.unissued n r).isc.damaged = s.isc.damaged ∧ s.Runs (s.unissued n r) := by
  have hleft := (State.HandsOff.refl s).leftIssued n
  have hspares := State.SparesUnheld.leftIssued s n
  have hruns := (State.Runs.refl s).leftIssued n
  unfold State.unissued
  split
  · generalize s.leftIssued n = u at *
    have htrg := State.loseRequest_trg u r.link
    exact ⟨hleft.passes.trans (.of_trg htrg), hspares.trans (.of_trg htrg), (u.loseRequest_psc _).trans hleft.psc_eq,
      by rw [State.loseRequest_isc, hleft.isc_eq], by rw [State.loseRequest_isc, hleft.isc_eq], hruns.loseRequest _⟩
  · exact ⟨.refl s, .of_trg rfl, rfl, rfl, rfl, .refl s⟩

/-- R44: what an accepted IDENTIFY does. -/
theorem State.identify_does {s : State} {n c p : Nat} {r : InstRec} (hi : tableSorted s.trg.insts = true)
    (hp : tableSorted s.psc.pockets = true) :
    ∃ t rs j, s.identify n r c p = t ∧ t.tool n = some j ∧ t.Seats n c p ∧
      (r.placedAs (.pocket c p) (s.identifiedAs n r)).PassedBy j ∧ s.OthersPassedBy t n ∧ s.Runs t ∧
      t.svp = s.svp.handed s.now
        (.custodyChange n r.type (some r.custody) r.loc (some (redirect (s.identifiedAs n r).1 r.life)) (.pocket c p) .identify none
          :: rs) := by
  have hplaced := s.identifiedAs_custody n r
  have hput := (State.PutsAway.refl s).leavePutaway n
  have hput_svp := s.leavePutaway_svp n
  have hsorted : tableSorted (s.leavePutaway n).trg.insts = true := by rw [hput.trg_eq]; exact hi
  have hdamaged : n ∉ (s.leavePutaway n).isc.damaged := by
    rw [State.leavePutaway_damaged]
    exact fun hm => by simpa using (List.mem_filter.1 hm).2
  have hseats := State.Seats.seat (r := r) (m := s.identifyMove n r c p) hsorted (State.HoldsPockets.leavePutaway s n hp).1
    (s.leavePutaway_unassigned n) hdamaged rfl hplaced
  have hruns := ((State.Runs.refl s).leavePutaway n)
  rw [State.identify_eq]
  generalize hu : s.leavePutaway n = u at *
  have hseat_tool := u.seat_tool n c p r (s.identifyMove n r c p)
  have hseat_svp := u.seat_svp n c p r (s.identifyMove n r c p)
  have hseat_runs := (hruns.move n r (s.identifyMove n r c p)).setPocket c p { u.pocket c p with tool := some n, state := .occupied }
  change s.Runs (u.seat n c p r (s.identifyMove n r c p)) at hseat_runs
  generalize u.seat n c p r (s.identifyMove n r c p) = v at *
  obtain ⟨hpass, hspares, hpsc, hassigned, hmarks, hunissued⟩ := v.unissued_does n r
  have hwseats := hseats.of_spared hspares hpsc hassigned hmarks
  generalize v.unissued n r = w at *
  have hannounced := State.announce_passes hwseats.insts n
  have hall := hpass.trans hannounced
  obtain ⟨⟨rs, hrs⟩, -⟩ := hunissued.announce n
  obtain ⟨j, hj, hij⟩ := (hall n).2 _ ((hseat_tool n).trans (if_pos rfl))
  refine ⟨_, rs, j, rfl, hj, hwseats.announce, (InstRec.placedAs_passes hplaced).trans hij, ?_, (hseat_runs.trans hunissued).announce n, ?_⟩
  · refine hall.others fun m hm => ?_
    rw [hseat_tool, if_neg hm]
    exact State.tool_of_trg hput.trg_eq m
  · rw [hrs, hseat_runs.now_eq, hseat_svp, hput_svp, hruns.now_eq, ← Svp.handed_append, changeReport_placed n hplaced]
    rfl

theorem State.taken_running {s : State} {kind tag : Byte} {body : List Byte} :
    (s.taken kind tag body).running = true ↔ s.svp.mode = .running := by
  unfold State.running State.taken
  rw [State.bringIn_mode, beq_iff_eq]

/-- R195: a command of RUNNING only, in LOADING. -/
theorem whenRunning_loading {f : State → State × Reply} {s : State} {kind tag : Byte} {body : List Byte}
    (h : s.svp.mode = .loading) : whenRunning f (s.taken kind tag body) = (s.taken kind tag body, .plain .notInMode) :=
  if_neg (by rw [State.taken_running, h]; decide)

theorem whenRunning_running {f : State → State × Reply} {s : State} {kind tag : Byte} {body : List Byte}
    (h : s.svp.mode = .running) : whenRunning f (s.taken kind tag body) = f (s.taken kind tag body) :=
  if_pos (State.taken_running.2 h)

theorem identify_inRange {n c p : Nat} : (toolNo n && cabinetNo c && pocketNo p) = true ↔
    (1 ≤ n ∧ n ≤ 2048) ∧ (1 ≤ c ∧ c ≤ 12) ∧ 1 ≤ p ∧ p ≤ 64 := by
  rw [Bool.and_eq_true, Bool.and_eq_true, toolNo_iff, cabinetNo, pocketNo, within_iff, within_iff, and_assoc]

/-- Settles O11. -/
theorem identifyRecordsPlacement : Obligations.IdentifyRecordsPlacement := by
  intro s tag body h hlawful hpockets n c p
  refine ⟨fun hm => ?_, fun hm hrange => ?_, fun hm hn hc hp hnone => ?_, ?_⟩
  · change execIdentify tag body s = _
    unfold execIdentify
    exact hostCommand_answers h (whenRunning_loading hm)
  · change execIdentify tag body s = _
    unfold execIdentify
    refine hostCommand_answers h ((whenRunning_running hm).trans (if_pos ?_))
    rw [← Bool.not_eq_true]
    exact mt identify_inRange.1 hrange
  · change execIdentify tag body s = _
    unfold execIdentify
    refine hostCommand_answers h ((whenRunning_running hm).trans ((if_neg (ne_false_of_eq_true (identify_inRange.2 ⟨hn, hc, hp⟩))).trans ?_))
    rw [show (s.taken 0x14 tag body).tool (fieldAt body 0 2) = none from hnone]
  · intro r hm hn hc hp hr admitted held kept back lands
    have hrun : (fun s : State => if (toolNo n && cabinetNo c && pocketNo p) = false then (s, Reply.plain .range) else
        match s.tool n with
        | none => (s, .plain .noSuch)
        | some r =>
          if (s.pocket c p).state = .unknown ∧ r.identifiable = true ∧ s.vacant n (.pocket c p) = true then
            (s.identify n r c p, .plain .ok)
          else (s, .plain .state)) (s.taken 0x14 tag body) =
        if (s.pocket c p).state = .unknown ∧ admitted ∧ s.vacant n (.pocket c p) = true then
          ((s.taken 0x14 tag body).identify n r c p, .plain .ok)
        else (s.taken 0x14 tag body, .plain .state) := by
      refine (if_neg (ne_false_of_eq_true (identify_inRange.2 ⟨hn, hc, hp⟩))).trans ?_
      rw [show (s.taken 0x14 tag body).tool n = some r from hr]
      exact if_congr (and_congr Iff.rfl (and_congr InstRec.identifiable_iff Iff.rfl)) rfl rfl
    refine ⟨fun hno => ?_, fun hst hadm hvac => ?_⟩
    · change execIdentify tag body s = _
      unfold execIdentify
      refine hostCommand_answers h ((whenRunning_running hm).trans (hrun.trans (if_neg ?_)))
      rintro ⟨hst, hadm, hvac⟩
      rcases hno with hno | hno | hno
      · exact hno hst
      · exact hno hadm
      · rw [hno] at hvac
        cases hvac
    have land : LandsAs lands ((s.taken 0x14 tag body).identifiedAs n r) r.life := by
      obtain ⟨t, rs, j, ht, hj, hseats, hplaced, hpass, hruns, hsvp⟩ :=
        State.identify_does (s := s.taken 0x14 tag body) (n := n) (c := c) (p := p) (r := r) hlawful.2.1 hpockets
      refine ⟨{ t with svp := s.svpAnswered 0x14 tag body _ (.plain .ok) }, rs, j, ?_, hj, hseats.recorded, hseats.state, hplaced, hpass,
        hruns.toolsOnly _, hseats.unassigned, rfl⟩
      change execIdentify tag body s = _
      unfold execIdentify
      exact hostCommand_runs h ((whenRunning_running hm).trans (hrun.trans ((if_pos ⟨hst, hadm, hvac⟩).trans (by rw [ht])))) hsvp
    have same : r.custody = .staged ∨ r.custody = .unmeasured → PlacementRows (s.taken 0x14 tag body) n r lands := fun hcu =>
      .of_lands ((State.identifiedAs_same (s := s.taken 0x14 tag body) (n := n) hcu) ▸ land)
    have returned : back → PlacementRows (s.taken 0x14 tag body) n { r with custody := .returning } lands := fun hb =>
      .of_lands ((State.identifiedAs_back (s := s.taken 0x14 tag body) (n := n) hb) ▸ land)
    exact ⟨fun hcu => land.barred (by simp only [State.identifiedAs, hcu]), fun hcu => (same (.inl hcu)).stagedHeld hcu,
      fun hcu => (same (.inl hcu)).staged hcu, fun hcu => (same (.inr hcu)).unmeasured hcu, fun hb => (returned hb).damaged rfl,
      fun hb => (returned hb).keptHeld rfl, fun hb => (returned hb).kept rfl, fun hb => (returned hb).lost rfl⟩

end Sys2Proof.Machine

/-! O15: the PLACED event. -/

namespace Sys2Proof.Machine

open State

/-! ### Pockets stay enabled -/

/-- Every pocket is enabled as it was (R31 alone changes that). -/
def State.KeepsEnabled (s t : State) : Prop := ∀ c p, (t.pocket c p).enabled = (s.pocket c p).enabled

theorem State.KeepsEnabled.of_psc {s t : State} (h : t.psc = s.psc) : s.KeepsEnabled t := fun c p => by
  simp only [State.pocket, h]

theorem State.KeepsEnabled.trans {s t u : State} (h : s.KeepsEnabled t) (k : t.KeepsEnabled u) : s.KeepsEnabled u :=
  fun c p => (k c p).trans (h c p)

theorem State.KeepsEnabled.setPocket {s : State} {c p : Nat} {r : Pocket} (h : r.enabled = (s.pocket c p).enabled) :
    s.KeepsEnabled (s.setPocket c p r) := by
  intro d q
  rw [State.pocket_setPocket]
  split
  · rename_i hk
    rw [h, State.pocket, State.pocket, hk]
  · rfl

theorem State.KeepsEnabled.foldl {α : Type} {f : State → α → State} (h : ∀ s x, KeepsEnabled s (f s x)) (xs : List α) (s : State) :
    s.KeepsEnabled (xs.foldl f s) := by
  induction xs generalizing s with
  | nil => exact .of_psc rfl
  | cons x xs ih => exact (h s x).trans (ih _)

theorem State.KeepsEnabled.assign (s : State) (n key : Nat) (z : Zone) : s.KeepsEnabled (s.assign n key z) := by
  unfold State.assign
  exact (State.KeepsEnabled.setPocket (r := { s.pocket (keyCabinet key) (keyPocket key) with state := .expectPlace }) rfl).trans
    (.of_psc rfl)

theorem State.KeepsEnabled.tryPutaway (s : State) (n : Nat) : s.KeepsEnabled (s.tryPutaway n) := by
  unfold State.tryPutaway
  dsimp only
  with_reducible repeat' first | apply KeepsEnabled.assign | split
  all_goals exact .of_psc rfl

theorem State.KeepsEnabled.noticeIfFree (s : State) (c p : Nat) : s.KeepsEnabled (s.noticeIfFree c p) := by
  unfold State.noticeIfFree State.freeNotice
  split
  · refine .foldl (fun u n => ?_) _ s
    unfold State.assignIfFree
    dsimp only
    with_reducible repeat' first | apply KeepsEnabled.assign | split
    all_goals exact .of_psc rfl
  · exact .of_psc rfl

theorem State.KeepsEnabled.vacateAssigned (s : State) (a : Assignment) : s.KeepsEnabled (s.vacateAssigned a) := by
  unfold State.vacateAssigned
  dsimp only
  split
  · exact (State.KeepsEnabled.setPocket (r := { s.pocket a.cabinet a.pocket with state := .empty }) rfl).trans (.noticeIfFree _ _ _)
  · exact .of_psc rfl

theorem State.KeepsEnabled.leavePutaway (s : State) (n : Nat) : s.KeepsEnabled (s.leavePutaway n) := by
  unfold State.leavePutaway State.dropAssignment
  split
  · refine State.KeepsEnabled.trans ?_ (State.KeepsEnabled.vacateAssigned _ _)
    exact .of_psc rfl
  · exact .of_psc rfl

theorem State.KeepsEnabled.allocateFor (s : State) (number : Nat) : s.KeepsEnabled (s.allocateFor number) := by
  rcases s.allocateFor_cases number with h | ⟨r, -, h⟩ | ⟨r, t, n, i, -, -, -, -, h⟩ <;> rw [h]
  · exact .of_psc rfl
  · exact .of_psc (s.enterWaiting_psc r .noStock)
  · rcases i.loc.pocket_or with ⟨c, p, hl⟩ | hl
    · obtain ⟨q, hq⟩ := s.reserve_pocket r n c p hl
      rw [hq]
      exact State.KeepsEnabled.setPocket (s := s.reserving r n i) (r := { s.pocket c p with state := .expectTake }) rfl
    · obtain ⟨q, hq⟩ := s.reserve_bench r n hl
      rw [hq]
      exact State.KeepsEnabled.leavePutaway (s.reserving r n i) n

theorem State.KeepsEnabled.announce (s : State) (n : Nat) : s.KeepsEnabled (s.announce n) := by
  have pass : s.KeepsEnabled s.allocationPass :=
    State.allocationPass_keeps (P := fun u => s.KeepsEnabled u) (fun u number h => h.trans (.allocateFor u number)) (.of_psc rfl)
  unfold State.announce
  split
  · exact .of_psc rfl
  · split
    · exact pass
    · exact pass.trans (.tryPutaway _ _)
    · exact .tryPutaway _ _

/-! ### The count that completes a debounce -/

/-- The pocket after the count that completes its debounce to PRESENT (R32, R36). -/
def Pocket.seated (k : Pocket) (cycles : Nat) : Pocket := { k with lastCount := some (countOf cycles), sensed := .present, run := 0 }

/-- What POCKET_EVENT reports of a PLACED event (R37). -/
def Pocket.placedReport (k : Pocket) (c p : Nat) : Report := .pocketEvent .placed c p k.state k.tool k.mark none

/-- The state in which a PLACED event is handed on: the pocket has its count and its presence, and the event is reported. -/
structure State.Sensed (s v : State) (c p cycles : Nat) : Prop where
  frame : v = { s with
    psc := { s.psc with pockets := v.psc.pockets }, svp := s.svp.handed s.now [(s.pocket c p).placedReport c p] }
  pocket : ∀ d q, v.pocket d q = if pocketKey d q = pocketKey c p then (s.pocket c p).seated cycles else s.pocket d q
  sorted : tableSorted s.psc.pockets = true → tableSorted v.psc.pockets = true

/-- R32, R33, R36: a count that completes the debounce of a pocket to PRESENT. -/
theorem State.countPocket_placed {s : State} {c p q cycles : Nat} (h : s.completes c p q cycles .present)
    (hf : (s.pocket c p).state ≠ .fault) :
    ∃ v, s.Sensed v c p cycles ∧ s.countPocket c p (countOf cycles) = v.placed c p := by
  obtain ⟨-, hsensing, hdecided, hsensed, -, hclass, hdebounce⟩ := h
  let u := s.setPocket c p { s.pocket c p with lastCount := some (countOf cycles) }
  have hu : u.pocket c p = { s.pocket c p with lastCount := some (countOf cycles) } := State.pocket_setPocket_self _ c p _
  let v := (u.setPocket c p ((s.pocket c p).seated cycles)).report ((s.pocket c p).placedReport c p)
  refine ⟨v, ⟨rfl, fun d r => ?_, fun hs => tableSorted_dset _ _ (tableSorted_dset _ _ hs)⟩, ?_⟩
  · refine (State.pocket_setPocket u c p d r _).trans ?_
    split
    · rfl
    · rename_i hk
      exact (State.pocket_setPocket s c p d r _).trans (if_neg hk)
  · have hevent : u.presenceEvent c p .present = v.placed c p := by
      unfold State.presenceEvent
      simp only [hu]
      rfl
    have hfeeds : u.debounce c p (some .present) = u.presenceEvent c p .present := by
      unfold State.debounce
      simp only [hu]
      have hfeed : ((s.pocket c p).sensing && (s.pocket c p).sensed != .undecided) = true := by simp [hsensing, hdecided]
      refine (if_pos hfeed).trans ((if_neg (Ne.symm hsensed)).trans (if_pos hdebounce))
    rw [← hevent, ← hfeeds]
    unfold State.countPocket
    simp only [hclass, Presence.classified, hf, if_false]
    rfl

/-- R34: an automatic pass goes on to its next enabled pocket. -/
theorem State.passOn_auto {s : State} {c p q : Nat} (hpq : p < q) (hq : q ≤ 64) (h : (s.pocket c q).enabled = true) :
    ∃ k, s.passOn c (.auto p) = s.setCab c k := by
  have : (s.nextEnabled c p).isSome = true := by
    unfold State.nextEnabled
    rw [List.find?_isSome]
    exact ⟨q, by simp only [allPockets, List.mem_map, List.mem_range]; exact ⟨q - 1, by omega, by omega⟩, by simp [hpq, h]⟩
  obtain ⟨x, hx⟩ := Option.isSome_iff_exists.1 this
  exact ⟨{ s.cab c with pass := some (.auto x) }, by simp only [State.passOn, hx]⟩

/-- The step of a count that completes the debounce of a pocket to PRESENT: what stands when the event is handed on, and the step for
what follows of it. -/
theorem execPocketCount_placed {s : State} {c p q cycles : Nat} (h : s.completes c p q cycles .present)
    (hf : (s.pocket c p).state ≠ .fault) :
    ∃ v, s.quiet.Sensed v c p cycles ∧ ∀ t rs, v.placed c p = t → v.KeepsEnabled t → t.svp = v.svp.handed v.now rs →
      ∃ k, exec (.pocketCount c cycles) s =
        .next { t.setCab c k with svp := s.svpReported ((s.pocket c p).placedReport c p :: rs) } := by
  obtain ⟨v, hv, hcount⟩ := State.countPocket_placed (s := s.quiet) h hf
  obtain ⟨⟨hc1, hc2, -, hpq, hq, hpass, hp, hnext, -⟩, -⟩ := h
  refine ⟨v, hv, fun t rs ht hkeeps hsvp => ?_⟩
  have hqt : (t.pocket c q).enabled = true := by
    rw [hkeeps, hv.pocket]
    split
    · exact hp
    · exact hnext
  obtain ⟨k, hk⟩ := State.passOn_auto hpq hq hqt
  have htake : s.quiet.takeCount c cycles = t.setCab c k := by
    unfold State.takeCount
    rw [show (s.quiet.cab c).pass = some (.auto p) from hpass]
    dsimp only
    rw [if_pos (show (s.quiet.pocket c p).enabled = true from hp), hcount, ht, hk]
  refine ⟨k, ?_⟩
  have hcab : cabinetNo c = true := within_iff.2 ⟨hc1, hc2⟩
  have hvsvp : v.svp = s.svp.handed s.now [(s.pocket c p).placedReport c p] := by rw [hv.frame]; rfl
  have hvnow : v.now = s.now := by rw [hv.frame]; rfl
  have hreports : (s.quiet.takeCount c cycles).svp = s.svp.handed s.now ((s.pocket c p).placedReport c p :: rs) := by
    rw [htake]
    refine hsvp.trans ?_
    rw [hvsvp, hvnow, ← Svp.handed_append]
    rfl
  have hexec : exec (.pocketCount c cycles) s = event (fun s => s.takeCount c cycles) s := if_pos hcab
  rw [hexec, event_handed hreports, htake]

/-- R71: an instance that leaves put-away stays recorded in its pocket. -/
theorem State.Seats.of_leavePutaway {s : State} {n c p : Nat} (hi : tableSorted s.trg.insts = true)
    (hp : tableSorted s.psc.pockets = true) (hr : (s.pocket c p).tool = some n) (hs : (s.pocket c p).state = .occupied)
    (hl : ∃ i, s.tool n = some i ∧ i.loc = .pocket c p ∧ i.custody ≠ .returning) : (s.leavePutaway n).Seats n c p := by
  obtain ⟨hsorted, hheld⟩ := State.HoldsPockets.leavePutaway s n hp
  have hpk : (s.leavePutaway n).pocket c p = s.pocket c p := by apply hheld <;> simp [hs]
  have htrg := s.leavePutaway_trg n
  refine ⟨by rw [htrg]; exact hi, hsorted, by rw [hpk]; exact hr, by rw [hpk]; exact .inl hs,
    by rw [State.tool_of_trg htrg]; exact hl, s.leavePutaway_unassigned n, ?_⟩
  rw [State.leavePutaway_damaged]
  exact fun hm => by simpa using (List.mem_filter.1 hm).2

/-- The transition of a placement (R69). -/
def State.placeMove (s : State) (n : Nat) (r : InstRec) (c p : Nat) : Move :=
  { cause := .place, custody := (s.placementOf n r).1, loc := .pocket c p, qcause := (s.placementOf n r).2 }

theorem State.place_admitted {s : State} {n c p : Nat} {i : InstRec} (hn : s.tool n = some i)
    (h : (i.wantsPutaway && s.vacant n (.pocket c p)) = true) :
    s.place c p n = (((s.seat n c p i (s.placeMove n i c p)).forgetAssignment n).leavePutaway n).announce n := by
  unfold State.place
  simp only [hn]
  exact if_pos h

theorem State.place_refused {s : State} {n c p : Nat} {i : InstRec} (hn : s.tool n = some i)
    (h : ¬ (i.wantsPutaway && s.vacant n (.pocket c p)) = true) :
    s.place c p n = ((s.forgetAssignment n).unknownPlacement c p (some n) (some i.custody)).tryPutaway n := by
  unfold State.place
  simp only [hn]
  exact if_neg h

/-- R69: what an admitted placement does. -/
theorem State.place_does {s : State} {n c p : Nat} {i : InstRec} (hi : tableSorted s.trg.insts = true)
    (hp : tableSorted s.psc.pockets = true) (hn : s.tool n = some i) (h : (i.wantsPutaway && s.vacant n (.pocket c p)) = true) :
    ∃ t rs j, s.place c p n = t ∧ t.tool n = some j ∧ t.Seats n c p ∧ s.KeepsEnabled t ∧
      (i.placedAs (.pocket c p) (s.placementOf n i)).PassedBy j ∧ s.OthersPassedBy t n ∧ s.Runs t ∧
      t.svp = s.svp.handed s.now
        (.custodyChange n i.type (some i.custody) i.loc (some (redirect (s.placementOf n i).1 i.life)) (.pocket c p) .place none
          :: rs) := by
  have hplaced : PlacedCustody (s.placeMove n i c p).custody := placement_custody _ _ _ _
  have hseat_tool := s.seat_tool n c p i (s.placeMove n i c p)
  have hseat_svp := s.seat_svp n c p i (s.placeMove n i c p)
  have hseat_pocket : (s.seat n c p i (s.placeMove n i c p)).pocket c p = { s.pocket c p with tool := some n, state := .occupied } :=
    State.pocket_setPocket_self _ c p _
  have hseat_runs : s.Runs (s.seat n c p i (s.placeMove n i c p)) :=
    ((State.Runs.refl s).move n i _).setPocket c p { s.pocket c p with tool := some n, state := .occupied }
  have hseat_enabled : s.KeepsEnabled (s.seat n c p i (s.placeMove n i c p)) :=
    State.KeepsEnabled.setPocket (s := s.move n i _) (r := { s.pocket c p with tool := some n, state := .occupied }) rfl
  have hseat_insts : tableSorted (s.seat n c p i (s.placeMove n i c p)).trg.insts = true := tableSorted_tset _ _ hi
  have hseat_sorted : tableSorted (s.seat n c p i (s.placeMove n i c p)).psc.pockets = true := tableSorted_dset _ _ hp
  rw [State.place_admitted hn h]
  generalize s.seat n c p i (s.placeMove n i c p) = u at *
  have hseats : ((u.forgetAssignment n).leavePutaway n).Seats n c p := by
    refine State.Seats.of_leavePutaway hseat_insts hseat_sorted ((congrArg Pocket.tool hseat_pocket).trans rfl)
      ((congrArg Pocket.state hseat_pocket).trans rfl) ⟨_, (hseat_tool n).trans (if_pos rfl), rfl, ?_⟩
    rcases redirect_placed (life := i.life) hplaced with hc | hc | hc | hc <;> simp [InstRec.moved, hc]
  have hsettled : u.Runs ((u.forgetAssignment n).leavePutaway n) := ((State.Runs.refl u).forgetAssignment n).leavePutaway n
  have hsettled_svp : ((u.forgetAssignment n).leavePutaway n).svp = u.svp := State.leavePutaway_svp _ n
  have hsettled_trg : ((u.forgetAssignment n).leavePutaway n).trg = u.trg := by simp
  have hsettled_enabled : u.KeepsEnabled ((u.forgetAssignment n).leavePutaway n) :=
    State.KeepsEnabled.trans (.of_psc rfl) (State.KeepsEnabled.leavePutaway (u.forgetAssignment n) n)
  generalize (u.forgetAssignment n).leavePutaway n = w at *
  have hpass := State.announce_passes hseats.insts n
  obtain ⟨⟨rs, hrs⟩, -⟩ := (State.Runs.refl w).announce n
  have hw_tool : ∀ m, w.tool m = if m = n then some (i.moved (s.placeMove n i c p)) else s.tool m := fun m =>
    (State.tool_of_trg hsettled_trg m).trans (hseat_tool m)
  obtain ⟨j, hj, hij⟩ := (hpass n).2 _ ((hw_tool n).trans (if_pos rfl))
  refine ⟨_, rs, j, rfl, hj, hseats.announce, (hseat_enabled.trans hsettled_enabled).trans (.announce w n),
    (InstRec.placedAs_passes hplaced).trans hij, hpass.others fun m hm => (hw_tool m).trans (if_neg hm),
    (hseat_runs.trans hsettled).announce n, ?_⟩
  rw [hrs, hsettled_svp, hsettled.now_eq, hseat_runs.now_eq, hseat_svp, ← Svp.handed_append, changeReport_placed n hplaced]
  rfl

/-- R67: an assignment made by put-away takes a pocket that stands EMPTY. -/
theorem State.tryPutaway_assigned {s : State} (hp : tableSorted s.psc.pockets = true) {n : Nat} {a : Assignment}
    (h : tget (s.tryPutaway n).isc.assigned n = some a) :
    tget s.isc.assigned n = some a ∨ (s.pocket a.cabinet a.pocket).state = .empty := by
  unfold State.tryPutaway at h
  split at h
  · split at h
    · exact .inl h
    · dsimp only at h
      split at h
      · rename_i key hk
        have hset : some a = some { cabinet := keyCabinet key, pocket := keyPocket key, zone := _, damaged := _, tick := _ } :=
          h.symm.trans (tget_tset_self _ _ _)
        have hkey : pocketKey (keyCabinet key) (keyPocket key) = key := by unfold pocketKey keyCabinet keyPocket; omega
        cases hset
        refine .inr ?_
        rw [State.pocket, hkey]
        exact (State.suitablePocket_empty hp hk).1
      · split at h <;> exact .inl h
  · exact .inl h

/-- R69: what a placement that TRG refuses does. -/
theorem State.place_refused_does {s : State} {n c p : Nat} {i : InstRec} (hp : tableSorted s.psc.pockets = true)
    (hn : s.tool n = some i) (h : ¬ (i.wantsPutaway && s.vacant n (.pocket c p)) = true) :
    ∃ t rs, s.place c p n = t ∧ t.pocket c p = { s.pocket c p with state := .unknown } ∧ t.trg = s.trg ∧ s.KeepsEnabled t ∧
      s.Runs t ∧ t.isc.queue = s.isc.queue ∧ (∀ a, tget t.isc.assigned n = some a → ¬ (a.cabinet = c ∧ a.pocket = p)) ∧
      t.svp = s.svp.handed s.now (.discrepancy .unknownPlacement c p (some n) (some i.custody) :: rs) := by
  let u := (s.forgetAssignment n).unknownPlacement c p (some n) (some i.custody)
  have hu_pocket : u.pocket c p = { s.pocket c p with state := .unknown } := State.pocket_setPocket_self _ c p _
  have hu_sorted : tableSorted u.psc.pockets = true := tableSorted_dset _ _ hp
  have hu_runs : s.Runs u := ((State.Runs.refl s).forgetAssignment n).unknownPlacement c p _ _
  have hu_enabled : s.KeepsEnabled u :=
    State.KeepsEnabled.setPocket (s := s.forgetAssignment n) (r := { s.pocket c p with state := .unknown }) rfl
  have hput := (State.PutsAway.refl u).tryPutaway n
  obtain ⟨rs, hrs, -⟩ := u.tryPutaway_reports n
  refine ⟨u.tryPutaway n, rs, State.place_refused hn h, ?_, hput.trg_eq.trans (State.unknownPlacement_trg _ _ _ _ _),
    hu_enabled.trans (.tryPutaway u n), hu_runs.tryPutaway n, hput.queue_eq, ?_, ?_⟩
  · rw [(State.HoldsPockets.tryPutaway u n hu_sorted).2 c p (by simp [hu_pocket]) (by simp [hu_pocket]), hu_pocket]
  · rintro a ha ⟨rfl, rfl⟩
    rcases State.tryPutaway_assigned hu_sorted ha with hold | hempty
    · rw [show tget u.isc.assigned n = none from (tget_tdel _ _ _).trans (if_pos rfl)] at hold
      cases hold
    · rw [hu_pocket] at hempty
      cases hempty
  · rw [hrs]
    rfl

theorem State.placed_empty {s : State} {c p : Nat} (h : (s.pocket c p).state = .empty) :
    s.placed c p = s.unknownPlacement c p none none := by
  unfold State.placed
  simp only [h]

theorem State.placed_assigned {s : State} {n c p : Nat} (h : (s.pocket c p).state = .expectPlace) (hn : s.assigneeOf c p = some n) :
    s.placed c p = s.place c p n := by
  unfold State.placed
  simp only [h, hn]

/-- What the state in which a PLACED event is handed on has of the register, the assignments and the pocket. -/
theorem State.Sensed.reads {s v : State} {c p cycles : Nat} (h : s.Sensed v c p cycles) :
    v.trg = s.trg ∧ v.isc = s.isc ∧ v.pocket c p = (s.pocket c p).seated cycles ∧ s.Runs v ∧
      ∀ n, v.vacant n (.pocket c p) = s.vacant n (.pocket c p) := by
  have htrg : v.trg = s.trg := by rw [h.frame]
  have hpk : v.pocket c p = (s.pocket c p).seated cycles := (h.pocket c p).trans (if_pos rfl)
  refine ⟨htrg, by rw [h.frame], hpk, ⟨⟨_, by rw [h.frame]⟩, by rw [h.frame]⟩, fun n => ?_⟩
  unfold State.vacant
  simp only [htrg, hpk, Pocket.seated]

/-- Settles O15, by the state of the pocket and the admission of the placement. -/
theorem placedEventByPocketState : Obligations.PlacedEventByPocketState := by
  intro s c p q cycles h hpockets hinsts k seated told
  refine ⟨fun hk => ?_, fun n i hk hassigned hn hwants hvacant => ?_, fun n i hk hassigned hn hrefused => ?_⟩
  all_goals
    obtain ⟨v, hv, hstep⟩ := execPocketCount_placed h (by rw [show (s.pocket c p).state = _ from hk]; decide)
    obtain ⟨htrg, hisc, hpk, hruns, hvac⟩ := hv.reads
    have hstate : (v.pocket c p).state = k.state := by rw [hpk]; rfl
    have hsorted := hv.sorted hpockets
    rw [hk] at hstate
  · have hplaced := State.placed_empty hstate
    obtain ⟨x, hexec⟩ := hstep (v.unknownPlacement c p none none) [.discrepancy .unknownPlacement c p none none] hplaced
      (.setPocket (r := { v.pocket c p with state := .unknown }) rfl) rfl
    refine ⟨_, hexec, ?_, ?_⟩
    · refine (State.pocket_setPocket_self v c p _).trans ?_
      rw [hpk]
      rfl
    · rw [show v.unknownPlacement c p none none = { v with
        psc := (v.unknownPlacement c p none none).psc, svp := (v.unknownPlacement c p none none).svp } from rfl, hv.frame]
      rfl
  · have hvn : v.tool n = some i := (State.tool_of_trg htrg n).trans hn
    have hadmitted : (i.wantsPutaway && v.vacant n (.pocket c p)) = true := by
      rw [hwants, hvac]
      exact hvacant
    intro held kept lands
    have hplaced := State.placed_assigned hstate (n := n) (by rw [State.assigneeOf, hisc]; exact hassigned)
    have land : LandsAs lands (v.placementOf n i) i.life := by
      obtain ⟨t, rs, j, ht, hj, hseats, henabled, hland, hpass, htruns, hsvp⟩ :=
        State.place_does (by rw [htrg]; exact hinsts) hsorted hvn hadmitted
      obtain ⟨x, hexec⟩ := hstep t (_ :: rs) (hplaced.trans ht) henabled hsvp
      refine ⟨_, rs, j, hexec, ((hruns.trans htruns).setCab c x).toolsOnly_of_quiet _, ?_, hj, hland, hseats.recorded, hseats.state,
        hseats.unassigned, hseats.undamaged, rfl⟩
      intro m hm
      have hm' := hpass m hm
      rw [State.tool_of_trg htrg m] at hm'
      exact hm'
    have hsame : v.placementOf n i = s.placementOf n i := by
      simp only [State.placementOf, State.isDamaged, State.typeHeld, State.type, htrg, hisc]
      rfl
    rw [hsame] at land
    have rows := PlacementRows.of_lands land
    exact ⟨rows.stagedHeld, rows.staged, rows.unmeasured, rows.quarantine, rows.regrindDue, rows.damaged, rows.keptHeld, rows.kept,
      rows.lost⟩
  · have hvn : v.tool n = some i := (State.tool_of_trg htrg n).trans hn
    have hno : ¬ (i.wantsPutaway && v.vacant n (.pocket c p)) = true := by
      rw [Bool.and_eq_true, hvac]
      rintro ⟨hw, hvacant⟩
      rcases hrefused with hr | hr
      · rw [hr] at hw
        cases hw
      · rw [show s.quiet.vacant n (.pocket c p) = s.vacant n (.pocket c p) from rfl, hr] at hvacant
        cases hvacant
    obtain ⟨t, rs, ht, hpocket, httrg, henabled, htruns, hqueue, hnew, hsvp⟩ := State.place_refused_does hsorted hvn hno
    have hplaced := State.placed_assigned hstate (n := n) (by rw [State.assigneeOf, hisc]; exact hassigned)
    obtain ⟨x, hexec⟩ := hstep t (_ :: rs) (hplaced.trans ht) henabled hsvp
    refine ⟨_, rs, hexec, ?_, httrg.trans htrg, ((hruns.trans htruns).setCab c x).toolsOnly_of_quiet _,
      hqueue.trans (congrArg Isc.queue hisc), hnew, rfl⟩
    refine hpocket.trans ?_
    rw [hpk]
    rfl

end Sys2Proof.Machine

/-! O5: LOAD_INSTANCE. -/

namespace Sys2Proof.Machine

open State

/-! ### The fields of an instance record -/

/-- The measurement that the body of an instance record carries (11.3). -/
def measField (b : List Byte) : Option (Option Measurement) :=
  if flagAt b 9 0 then
    (headOf (fieldAt b 25 1)).bind fun head =>
      if decide (fieldAt b 10 3 ≤ 4000000 ∧ fieldAt b 13 3 ≤ 1500000 ∧ fieldAt b 16 3 ≤ 1500000 ∧ fieldAt b 23 2 ≤ 999) then
        some (some
          { length := fieldAt b 10 3, radius := fieldAt b 13 3, runout := fieldAt b 16 3
            time := ⟨fieldAt b 19 4, fieldAt b 23 2⟩, head := head, thermalLimited := flagAt b 9 7 })
      else none
  else some none

/-- The request link that the body carries. -/
def linkField (b : List Byte) : Option (Option Nat) :=
  if flagAt b 9 4 then (if decide (1 ≤ fieldAt b 32 1) then some (some (fieldAt b 32 1)) else none) else some none

/-- The quarantine cause that the body carries. -/
def qcauseField (b : List Byte) : Option (Option QCause) :=
  if flagAt b 9 5 then (qcauseOf (fieldAt b 33 1)).map some else some none

/-- The last station that the body carries. -/
def lastField (b : List Byte) : Option (Option LastStation) :=
  if flagAt b 9 6 then
    (if decide (1 ≤ fieldAt b 34 1 ∧ fieldAt b 34 1 ≤ 32) then some (some ⟨fieldAt b 34 1, fieldAt b 35 2⟩) else none)
  else some none

/-- The record that the body carries, from the fields that are not always there. -/
def recordOf (b : List Byte) (custody : Custody) (loc : Location) (meas : Option Measurement) (link : Option Nat)
    (qcause : Option QCause) (last : Option LastStation) : InstRec :=
  { type := fieldAt b 2 2, custody := custody, loc := loc, meas := meas, generation := fieldAt b 26 2, life := fieldAt b 28 3
    warned := flagAt b 9 1, spent := flagAt b 9 2, marks := fieldAt b 31 1, link := link, qcause := qcause, owed := flagAt b 9 3
    last := last }

theorem ite_bind {α β : Type} (c : Prop) [Decidable c] (x y : Option α) (f : α → Option β) :
    (if c then x else y).bind f = if c then x.bind f else y.bind f := by split <;> rfl

/-- The body of an instance record is read field by field. -/
theorem instFields_eq (b : List Byte) : instFields b =
    (custodyOf (fieldAt b 4 1)).bind fun custody =>
    (locationOf (fieldAt b 5 1) (fieldAt b 6 1) (fieldAt b 7 1) (fieldAt b 8 1)).bind fun loc =>
    (measField b).bind fun meas => (linkField b).bind fun link => (qcauseField b).bind fun qcause => (lastField b).bind fun last =>
      if decide (fieldAt b 31 1 ≤ 4) then some (recordOf b custody loc meas link qcause last) else none := by
  unfold instFields
  simp only [Option.bind_eq_bind, Option.pure_def]
  refine congrArg (Option.bind _) (funext fun custody => congrArg (Option.bind _) (funext fun loc => ?_))
  unfold measField linkField qcauseField lastField recordOf
  simp only [ite_bind]

/-- The body carries a record, exactly where each of its fields is one of those listed. -/
theorem instFields_iff (b : List Byte) :
    (∃ r, instFields b = some r) ↔ (∃ c, custodyOf (fieldAt b 4 1) = some c) ∧
      (∃ l, locationOf (fieldAt b 5 1) (fieldAt b 6 1) (fieldAt b 7 1) (fieldAt b 8 1) = some l) ∧ (∃ m, measField b = some m) ∧
      (∃ l, linkField b = some l) ∧ (∃ q, qcauseField b = some q) ∧ (∃ l, lastField b = some l) ∧ fieldAt b 31 1 ≤ 4 := by
  rw [instFields_eq]
  constructor
  · rintro ⟨r, h⟩
    simp only [Option.bind_eq_some_iff, Option.ite_none_right_eq_some, decide_eq_true_eq] at h
    obtain ⟨c, hc, l, hl, m, hm, k, hk, q, hq, x, hx, hmarks, -⟩ := h
    exact ⟨⟨c, hc⟩, ⟨l, hl⟩, ⟨m, hm⟩, ⟨k, hk⟩, ⟨q, hq⟩, ⟨x, hx⟩, hmarks⟩
  · rintro ⟨⟨c, hc⟩, ⟨l, hl⟩, ⟨m, hm⟩, ⟨k, hk⟩, ⟨q, hq⟩, ⟨x, hx⟩, hmarks⟩
    exact ⟨recordOf b c l m k q x, by simp [hc, hl, hm, hk, hq, hx, hmarks]⟩

theorem instFields_reads {b : List Byte} {r : InstRec} (h : instFields b = some r) :
    r.type = fieldAt b 2 2 ∧ locationOf (fieldAt b 5 1) (fieldAt b 6 1) (fieldAt b 7 1) (fieldAt b 8 1) = some r.loc := by
  rw [instFields_eq] at h
  simp only [Option.bind_eq_some_iff, Option.ite_none_right_eq_some, Option.some.injEq] at h
  obtain ⟨c, -, l, hl, m, -, k, -, q, -, x, -, -, rfl⟩ := h
  exact ⟨rfl, hl⟩

theorem custodyOf_iff {n : Nat} : (∃ c, custodyOf n = some c) ↔ 1 ≤ n ∧ n ≤ 13 := by
  constructor
  · rintro ⟨c, h⟩
    unfold custodyOf at h
    split at h <;> first | omega | cases h
  · rintro ⟨h1, h2⟩
    interval_cases n <;> exact ⟨_, rfl⟩

theorem qcauseOf_iff {n : Nat} : (∃ c, qcauseOf n = some c) ↔ 1 ≤ n ∧ n ≤ 5 := by
  constructor
  · rintro ⟨c, h⟩
    unfold qcauseOf at h
    split at h <;> first | omega | cases h
  · rintro ⟨h1, h2⟩
    interval_cases n <;> exact ⟨_, rfl⟩

theorem headOf_iff {n : Nat} : (∃ h, headOf n = some h) ↔ 1 ≤ n ∧ n ≤ 2 := by
  constructor
  · rintro ⟨c, h⟩
    unfold headOf at h
    split at h <;> first | omega | cases h
  · rintro ⟨h1, h2⟩
    interval_cases n <;> exact ⟨_, rfl⟩

theorem measField_iff (b : List Byte) : (∃ m, measField b = some m) ↔
    (flagAt b 9 0 = true → fieldAt b 10 3 ≤ 4000000 ∧ fieldAt b 13 3 ≤ 1500000 ∧ fieldAt b 16 3 ≤ 1500000 ∧
      fieldAt b 23 2 ≤ 999 ∧ 1 ≤ fieldAt b 25 1 ∧ fieldAt b 25 1 ≤ 2) := by
  unfold measField
  by_cases hf : flagAt b 9 0 = true
  · simp only [hf, if_true, forall_const, Option.bind_eq_some_iff, Option.ite_none_right_eq_some, decide_eq_true_eq]
    rw [← headOf_iff]
    constructor
    · rintro ⟨m, h, hh, ⟨h1, h2, h3, h4⟩, -⟩
      exact ⟨h1, h2, h3, h4, h, hh⟩
    · rintro ⟨h1, h2, h3, h4, h, hh⟩
      exact ⟨_, h, hh, ⟨h1, h2, h3, h4⟩, rfl⟩
  · simp [hf]

theorem linkField_iff (b : List Byte) : (∃ l, linkField b = some l) ↔ (flagAt b 9 4 = true → 1 ≤ fieldAt b 32 1) := by
  unfold linkField
  by_cases hf : flagAt b 9 4 = true <;> simp [hf]

theorem qcauseField_iff (b : List Byte) : (∃ q, qcauseField b = some q) ↔
    (flagAt b 9 5 = true → 1 ≤ fieldAt b 33 1 ∧ fieldAt b 33 1 ≤ 5) := by
  unfold qcauseField
  rw [← qcauseOf_iff]
  by_cases hf : flagAt b 9 5 = true <;> simp [hf]

theorem lastField_iff (b : List Byte) : (∃ l, lastField b = some l) ↔
    (flagAt b 9 6 = true → 1 ≤ fieldAt b 34 1 ∧ fieldAt b 34 1 ≤ 32) := by
  unfold lastField
  by_cases hf : flagAt b 9 6 = true <;> simp [hf]

/-- R11, R14: the locations that a body may spell, a station place within the station's count. -/
theorem locationOf_iff (s : State) (kind sub a b : Nat) :
    (∃ l, locationOf kind sub a b = some l ∧ s.placeInCount l = true) ↔
      ((sub = 0 ∧ (kind = 0 ∨ (kind = 1 ∧ 1 ≤ a ∧ a ≤ 12 ∧ 1 ≤ b ∧ b ≤ 64) ∨ kind = 2 ∨ (kind = 3 ∧ 1 ≤ a ∧ a ≤ 2) ∨
          (kind = 5 ∧ 1 ≤ a ∧ a ≤ 32 ∧ 1 ≤ b ∧ b ≤ (s.station a).places) ∨ kind = 6)) ∨
        (kind = 4 ∧ ((sub = 1 ∧ 1 ≤ a ∧ a ≤ 32 ∧ 1 ≤ b ∧ b ≤ (s.station a).places) ∨ sub = 2 ∨
          (sub = 3 ∧ 1 ≤ a ∧ a ≤ 32) ∨ sub = 4))) := by
  unfold locationOf
  split
  case h_4 =>
    refine Iff.trans (b := 1 ≤ a ∧ a ≤ 2) ?_ (by simp)
    rw [← headOf_iff]
    constructor
    · rintro ⟨l, hl, -⟩
      obtain ⟨h, hh, -⟩ := Option.map_eq_some_iff.1 hl
      exact ⟨h, hh⟩
    · rintro ⟨h, hh⟩
      exact ⟨.head h, by rw [hh]; rfl, rfl⟩
  case h_11 =>
    constructor
    · rintro ⟨l, hl, -⟩
      cases hl
    · rename_i h0 h1 h2 h3 h4 h5 h6 h7 h8 h9
      rintro (⟨rfl, h⟩ | ⟨rfl, h⟩)
      · rcases h with rfl | ⟨rfl, -⟩ | rfl | ⟨rfl, -⟩ | ⟨rfl, -⟩ | rfl <;> simp at *
      · rcases h with ⟨rfl, -⟩ | rfl | ⟨rfl, -⟩ | rfl <;> simp at *
  all_goals simp [State.placeInCount, Station.hasPlace, and_assoc]

/-! ### The checks after the ranges -/

/-- R14: the custodies that LOAD_INSTANCE takes. -/
theorem loadable_iff {c : Custody} {l : Location} : loadable c l = true ↔
    c ≠ .reserved ∧ c ≠ .atPresetter ∧ (c = .issued → l = .toBench ∨ ∃ st p, l = .toStation st p) := by
  cases c <;> cases l <;> simp [loadable]

/-- R12, R14: the pairs of custody and location, among the custodies that LOAD_INSTANCE takes. -/
theorem allowedPair_iff {c : Custody} {l : Location} (h : loadable c l = true) : allowedPair c l = true ↔
    (c = .unmeasured ∨ c = .quarantine ∨ c = .regrindDue → l = .bench ∨ ∃ c p, l = .pocket c p) ∧
    (c = .staged → l = .bench) ∧ (c = .ready → ∃ c p, l = .pocket c p) ∧ (c = .loaded → ∃ st p, l = .station st p) ∧
    (c = .returning → l = .backBench ∨ ∃ st, l = .backStation st) ∧ (c = .missing ∨ c = .retired → l = .nowhere) ∧
    (c = .atRegrind → l = .offsite) := by
  cases c <;> cases l <;> simp_all [loadable, allowedPair]

theorem not_head_of_loads {c : Custody} {l : Location} (h : loadable c l = true) (hp : allowedPair c l = true) (k : HeadId) :
    l ≠ .head k := by
  rintro rfl
  cases c <;> simp_all [loadable, allowedPair]

/-- R14: the target that no other instance holds. -/
theorem State.targetFree_iff {s : State} {n : Nat} {l : Location} (hl : ∀ k, l ≠ .head k) : s.targetFree n l = true ↔
    (∀ c p, l = .pocket c p → (∀ m ∈ (s.pocket c p).tool, m = n) ∧ ∀ e ∈ s.trg.insts, e.1 ≠ n → e.2.loc ≠ .pocket c p) ∧
    (∀ st p, l = .station st p →
      (∀ x ∈ tget (s.station st).magazine p, x.tool = n) ∧ ∀ e ∈ s.trg.insts, e.1 ≠ n → e.2.loc ≠ .station st p) := by
  have others : ∀ l : Location, (s.trg.insts.all fun e => decide (e.1 = n) || decide (e.2.loc ≠ l)) = true ↔
      ∀ e ∈ s.trg.insts, e.1 ≠ n → e.2.loc ≠ l := fun l => by
    rw [List.all_eq_true]
    refine forall_congr' fun e => forall_congr' fun _ => ?_
    rw [Bool.or_eq_true, decide_eq_true_eq, decide_eq_true_eq, or_iff_not_imp_left]
  unfold State.targetFree State.vacant
  cases l with
  | head k => exact absurd rfl (hl k)
  | pocket c p =>
    have hown : ((s.pocket c p).tool.isNone || (s.pocket c p).tool == some n) = true ↔ ∀ m ∈ (s.pocket c p).tool, m = n := by
      cases (s.pocket c p).tool <;> simp
    simp only [Location.exclusive, Bool.not_true, Bool.false_or, Bool.and_true, Bool.and_eq_true, others, hown]
    constructor
    · rintro ⟨ho, hm⟩
      exact ⟨fun d q hd => (by cases hd; exact ⟨hm, ho⟩), fun st q hs => (by cases hs)⟩
    · rintro ⟨hp, -⟩
      exact ⟨(hp c p rfl).2, (hp c p rfl).1⟩
  | station st p =>
    have hown : (((tget (s.station st).magazine p).map fun e => decide (e.tool = n)).getD true) = true ↔
        ∀ x ∈ tget (s.station st).magazine p, x.tool = n := by
      cases tget (s.station st).magazine p <;> simp
    simp only [Location.exclusive, Bool.not_true, Bool.false_or, Bool.and_true, Bool.and_eq_true, others, hown]
    constructor
    · rintro ⟨ho, hm⟩
      exact ⟨fun d q hd => (by cases hd), fun x q hs => by cases hs; exact ⟨hm, ho⟩⟩
    · rintro ⟨-, hp⟩
      exact ⟨(hp st p rfl).2, (hp st p rfl).1⟩
  | _ => simp [Location.exclusive]

/-- R14: the fields that go with the custody and the generation. -/
theorem InstRec.fieldsOk_iff {r : InstRec} :
    (r.measOk = true ∧ r.certified = true ∧ ¬ (r.qcause.isSome ≠ (r.custody == .quarantine)) ∧
      ¬ (r.spent && decide (r.life ≠ 0)) = true ∧ ¬ r.link.isSome = true) ↔
    (r.generation = 0 → r.meas = none) ∧
    (1 ≤ r.generation → r.meas ≠ none ∨ (r.custody = .unmeasured ∨ r.custody = .quarantine ∨ r.custody = .regrindDue ∨
      r.custody = .atRegrind ∨ r.custody = .missing ∨ r.custody = .retired)) ∧
    (r.custody = .ready ∨ r.custody = .staged ∨ r.custody = .issued ∨ r.custody = .loaded → r.meas ≠ none) ∧
    (r.custody = .ready ∨ r.custody = .staged → 0 < r.life) ∧ (r.qcause ≠ none ↔ r.custody = .quarantine) ∧
    (r.spent = true → r.life = 0) ∧ r.link = none := by
  have hmeas : r.measOk = true ↔ (r.generation = 0 → r.meas = none) ∧
      (1 ≤ r.generation → r.meas ≠ none ∨ (r.custody = .unmeasured ∨ r.custody = .quarantine ∨ r.custody = .regrindDue ∨
        r.custody = .atRegrind ∨ r.custody = .missing ∨ r.custody = .retired)) := by
    have hlack : r.custody.mayLack = true ↔ r.custody = .unmeasured ∨ r.custody = .quarantine ∨ r.custody = .regrindDue ∨
        r.custody = .atRegrind ∨ r.custody = .missing ∨ r.custody = .retired := by
      cases r.custody <;> simp [Custody.mayLack]
    unfold InstRec.measOk
    rw [← hlack]
    by_cases hg : r.generation = 0
    · simp [hg]
    · have : 1 ≤ r.generation := by omega
      simp [hg, this, Option.isSome_iff_ne_none]
  have hcert : r.certified = true ↔
      (r.custody = .ready ∨ r.custody = .staged ∨ r.custody = .issued ∨ r.custody = .loaded → r.meas ≠ none) ∧
      (r.custody = .ready ∨ r.custody = .staged → 0 < r.life) := by
    unfold InstRec.certified
    cases r.custody <;> simp [Option.isSome_iff_ne_none]
  have hcause : ¬ (r.qcause.isSome ≠ (r.custody == .quarantine)) ↔ (r.qcause ≠ none ↔ r.custody = .quarantine) := by
    rw [not_not, Bool.eq_iff_iff, Option.isSome_iff_ne_none, beq_iff_eq]
  have hspent : ¬ (r.spent && decide (r.life ≠ 0)) = true ↔ (r.spent = true → r.life = 0) := by
    cases r.spent <;> simp
  have hlink : ¬ r.link.isSome = true ↔ r.link = none := by cases r.link <;> simp
  rw [hmeas, hcert, hcause, hspent, hlink, and_assoc, and_assoc]

/-- R14: the checks after the ranges that answer STATE for the custody, the pair and the target. -/
def State.loadPlaced (s : State) (n : Nat) (r : InstRec) : Prop :=
  loadable r.custody r.loc = true ∧ allowedPair r.custody r.loc = true ∧ s.targetFree n r.loc = true

theorem State.loadRefusal_of_not_placed {s : State} {n : Nat} {r : InstRec} {t : TypeRec} (ht : s.type r.type = some t)
    (h : ¬ s.loadPlaced n r) : s.loadRefusal n r = some .state := by
  unfold State.loadRefusal
  simp only [ht]
  by_cases h1 : loadable r.custody r.loc = true
  · by_cases h2 : allowedPair r.custody r.loc = true
    · have h3 : s.targetFree n r.loc = false := Bool.eq_false_iff.2 fun h3 => h ⟨h1, h2, h3⟩
      simp [h1, h2, h3]
    · simp [h1, h2]
  · simp [h1]

/-- R14: the checks that follow those of custody, pair and target. -/
theorem State.loadRefusal_of_placed {s : State} {n : Nat} {r : InstRec} {t : TypeRec} (ht : s.type r.type = some t)
    (h : s.loadPlaced n r) : s.loadRefusal n r =
      if t.budget < r.life then some .range
      else if t.regrindLimit < r.marks then some .limit
      else if r.measOk = false then some .state
      else if r.certified = false then some .state
      else if r.qcause.isSome ≠ (r.custody == .quarantine) then some .state
      else if r.spent && decide (r.life ≠ 0) then some .state
      else if r.link.isSome then some .state
      else none := by
  obtain ⟨h1, h2, h3⟩ := h
  unfold State.loadRefusal
  simp only [ht, h1, h2, h3, if_false, Bool.true_eq_false]

/-- R14: a record that passes every check is of a custody and location that may be loaded, and its target is free. -/
theorem State.loadPlaced_of_none {s : State} {n : Nat} {r : InstRec} (h : s.loadRefusal n r = none) : s.loadPlaced n r := by
  by_contra hno
  cases ht : s.type r.type with
  | none => simp [State.loadRefusal, ht] at h
  | some t =>
    rw [State.loadRefusal_of_not_placed ht hno] at h
    cases h

/-- R14, after the ranges: the order of the checks. -/
theorem loadRefusal_inOrder (s : State) (n : Nat) (r : InstRec) :
    (s.type r.type = none → s.loadRefusal n r = some .noSuch) ∧
    (∀ ty, s.type r.type = some ty →
      (¬ s.loadPlaced n r → s.loadRefusal n r = some .state) ∧
      (s.loadPlaced n r →
        (ty.budget < r.life → s.loadRefusal n r = some .range) ∧
        (r.life ≤ ty.budget → ty.regrindLimit < r.marks → s.loadRefusal n r = some .limit) ∧
        (r.life ≤ ty.budget → r.marks ≤ ty.regrindLimit →
          ¬ (r.measOk = true ∧ r.certified = true ∧ ¬ (r.qcause.isSome ≠ (r.custody == .quarantine)) ∧
            ¬ (r.spent && decide (r.life ≠ 0)) = true ∧ ¬ r.link.isSome = true) → s.loadRefusal n r = some .state) ∧
        (r.life ≤ ty.budget → r.marks ≤ ty.regrindLimit →
          (r.measOk = true ∧ r.certified = true ∧ ¬ (r.qcause.isSome ≠ (r.custody == .quarantine)) ∧
            ¬ (r.spent && decide (r.life ≠ 0)) = true ∧ ¬ r.link.isSome = true) → s.loadRefusal n r = none))) := by
  refine ⟨fun hnone => by simp [State.loadRefusal, hnone], fun ty hty => ⟨State.loadRefusal_of_not_placed hty, fun hp => ?_⟩⟩
  rw [State.loadRefusal_of_placed hty hp]
  refine ⟨fun h => if_pos h, fun h1 h2 => ?_, fun h1 h2 h3 => ?_, fun h1 h2 ⟨h3, h4, h5, h6, h7⟩ => ?_⟩
  all_goals rw [if_neg (by omega)]
  · rw [if_pos h2]
  · rw [if_neg (by omega)]
    split_ifs with c1 c2 c3 c4 c5
    · rfl
    · rfl
    · rfl
    · rfl
    · rfl
    · exact absurd ⟨by simpa using c1, by simpa using c2, c3, c4, c5⟩ h3
  · rw [if_neg (by omega), if_neg (by simp [h3]), if_neg (by simp [h4]), if_neg h5, if_neg h6, if_neg h7]

/-! ### The old location is vacated -/

/-- The stations' magazines once an instance has been vacated from its old location (R15, R157). -/
def magazineLeft (m : Table MagEntry) (n st : Nat) (old : Option Location) : Table MagEntry :=
  match old with
  | some (.station x _) => if x = st then m.filter (fun e => decide (e.2.tool ≠ n)) else m
  | _ => m

/-- R15: what vacating the old location of an instance does. -/
theorem State.vacate_does (s : State) (n : Nat) :
    s.vacate n = { s with
      psc := (s.vacate n).psc, isc := (s.vacate n).isc, svp := (s.vacate n).svp, hoe := (s.vacate n).hoe } ∧
    (s.vacate n).hoe = { s.hoe with stations := (s.vacate n).hoe.stations } ∧
    (∀ st, (s.vacate n).station st = { s.station st with
      magazine := magazineLeft (s.station st).magazine n st ((s.tool n).map (·.loc)) }) ∧
    (s.vacate n).psc.cabinets = s.psc.cabinets ∧ (s.vacate n).isc.queue = s.isc.queue ∧
    ∃ rs, (s.vacate n).svp = s.svp.handed s.now rs ∧ ∀ x ∈ rs, ∃ c p, x = .discrepancy .notTaken c p (some n) none := by
  by_cases h : ∃ st p, (s.tool n).map (·.loc) = some (.station st p)
  · obtain ⟨st, p, h⟩ := h
    have hleaves := State.Leaves.settleMarks n s
    have hhoe : (s.settleMarks n).hoe = s.hoe := by rw [hleaves.same]
    have hst : ∀ x, (s.settleMarks n).station x = s.station x := fun x => by simp only [State.station, hhoe]
    rw [State.vacate_station h, h]
    refine ⟨?_, ?_, fun x => ?_, hleaves.cabinets, hleaves.queue, hleaves.svp⟩
    · generalize s.settleMarks n = u at *
      change ({ u with hoe := (u.dropMagazine st n).hoe } : State) =
        { s with psc := u.psc, isc := u.isc, svp := u.svp, hoe := (u.dropMagazine st n).hoe }
      generalize (u.dropMagazine st n).hoe = x
      rw [hleaves.same]
    · generalize s.settleMarks n = u at *
      change ({ u.hoe with stations := (u.dropMagazine st n).hoe.stations } : Hoe) =
        { s.hoe with stations := (u.dropMagazine st n).hoe.stations }
      rw [hhoe]
    · unfold State.dropMagazine magazineLeft
      dsimp only
      rw [State.station_setStation]
      by_cases hx : x = st
      · subst hx
        rw [if_pos rfl, if_pos rfl, hst]
      · rw [if_neg hx, if_neg (Ne.symm hx), hst]
  · have hleaves := State.Leaves.vacate (s := s) (n := n) fun st p hl => h ⟨st, p, hl⟩
    have hhoe : (s.vacate n).hoe = s.hoe := by rw [hleaves.same]
    refine ⟨?_, ?_, fun x => ?_, hleaves.cabinets, hleaves.queue, hleaves.svp⟩
    · rw [hhoe]
      exact hleaves.same
    · rw [hhoe]
    · have hmag : magazineLeft (s.station x).magazine n x ((s.tool n).map (·.loc)) = (s.station x).magazine := by
        unfold magazineLeft
        split
        · rename_i y p hy
          exact absurd ⟨y, p, hy⟩ h
        · rfl
      rw [hmag]
      simp only [State.station, hhoe]

/-- R15, R43: with nothing waiting for put-away and no departure mark of the instance, its old pocket alone changes. -/
theorem State.vacate_quiet {s : State} {n : Nat} (hw : s.isc.waiting = [])
    (hm : ∀ c p, 1 ≤ p → p ≤ 64 → ∀ m ∈ (s.pocket c p).mark, m.tool ≠ n)
    (ho : ∀ c p, (s.tool n).map (·.loc) = some (.pocket c p) → 1 ≤ p ∧ p ≤ 64) :
    (s.vacate n).isc = s.isc ∧ (s.vacate n).svp = s.svp ∧ ∀ c p, 1 ≤ p → p ≤ 64 →
      (s.vacate n).pocket c p =
        if (s.tool n).map (·.loc) = some (.pocket c p) ∧ (s.pocket c p).tool = some n then (s.pocket c p).drop else s.pocket c p := by
  have hmarks := State.settleMarks_none hm
  cases hn : s.tool n with
  | none =>
    have : s.vacate n = s := by simp only [State.vacate, hn]
    rw [this]
    exact ⟨rfl, rfl, fun c p _ _ => by simp⟩
  | some i =>
    rw [hn] at ho
    cases hl : i.loc with
    | pocket d q =>
      have hq := ho d q (by simp [hl])
      have hvac : s.vacate n = if (s.pocket d q).tool = some n then s.setPocket d q (s.pocket d q).drop else s := by
        have : s.vacate n = s.dropPocket (.pocket d q) n := by simp only [State.vacate, hn, hmarks, hl]
        rw [this, State.dropPocket]
        exact if_congr Iff.rfl (State.noticeIfFree_none (s := s.setPocket d q _) hw d q) rfl
      rw [hvac]
      refine ⟨by split <;> rfl, by split <;> rfl, fun c p h1 h2 => ?_⟩
      by_cases ht : (s.pocket d q).tool = some n
      · rw [if_pos ht, State.pocket_setPocket]
        by_cases hk : pocketKey c p = pocketKey d q
        · obtain ⟨rfl, rfl⟩ := (pocketKey_inj hq ⟨h1, h2⟩).1 hk
          rw [if_pos rfl, if_pos ⟨by simp [hl], ht⟩]
        · rw [if_neg hk, if_neg]
          rintro ⟨hloc, -⟩
          simp only [Option.map_some, hl, Option.some.injEq, Location.pocket.injEq] at hloc
          exact hk (by rw [hloc.1, hloc.2])
      · rw [if_neg ht, if_neg]
        rintro ⟨hloc, hown⟩
        simp only [Option.map_some, hl, Option.some.injEq, Location.pocket.injEq] at hloc
        exact ht (by rw [hloc.1, hloc.2]; exact hown)
    | station st p =>
      have : s.vacate n = s.dropMagazine st n := by simp only [State.vacate, hn, hmarks, hl]
      rw [this]
      exact ⟨rfl, rfl, fun c p _ _ => by simp only [Option.map_some, hl, Option.some.injEq, reduceCtorEq, false_and, if_false]; rfl⟩
    | _ =>
      have : s.vacate n = s := by simp only [State.vacate, hn, hmarks, hl]
      rw [this]
      exact ⟨rfl, rfl, fun c p _ _ => by simp [hl]⟩

/-! ### LOAD_INSTANCE -/

/-- The run of LOAD_INSTANCE in LOADING (R14). -/
def State.loadInstance (s : State) (body : List Byte) : State × Reply :=
  match instFields body with
  | none => (s, .plain .range)
  | some r =>
    let n := fieldAt body 0 2
    if (toolNo n && typeNo r.type && s.placeInCount r.loc) = false then (s, .plain .range)
    else
      match s.loadRefusal n r with
      | some c => (s, .plain c)
      | none => ((s.vacate n).takeUp n r, .plain .ok)

theorem execLoadInstance_loading {s : State} {tag : Byte} {body : List Byte} (hm : s.svp.mode = .loading) :
    (fun s : State => if s.running then (s, Reply.plain .notInMode) else s.loadInstance body) (s.taken 0x09 tag body) =
      (s.taken 0x09 tag body).loadInstance body :=
  if_neg (by rw [State.taken_running, hm]; decide)

/-- R14: the ranges of LOAD_INSTANCE. -/
theorem loadInstance_inRange (s : State) (b : List Byte) :
    (∃ r, instFields b = some r ∧ (toolNo (fieldAt b 0 2) && typeNo r.type && s.placeInCount r.loc) = true) ↔
      1 ≤ fieldAt b 4 1 ∧ fieldAt b 4 1 ≤ 13 ∧
      ((fieldAt b 6 1 = 0 ∧ (fieldAt b 5 1 = 0 ∨ (fieldAt b 5 1 = 1 ∧ 1 ≤ fieldAt b 7 1 ∧ fieldAt b 7 1 ≤ 12 ∧ 1 ≤ fieldAt b 8 1 ∧
            fieldAt b 8 1 ≤ 64) ∨ fieldAt b 5 1 = 2 ∨ (fieldAt b 5 1 = 3 ∧ 1 ≤ fieldAt b 7 1 ∧ fieldAt b 7 1 ≤ 2) ∨
          (fieldAt b 5 1 = 5 ∧ 1 ≤ fieldAt b 7 1 ∧ fieldAt b 7 1 ≤ 32 ∧ 1 ≤ fieldAt b 8 1 ∧
            fieldAt b 8 1 ≤ (s.station (fieldAt b 7 1)).places) ∨ fieldAt b 5 1 = 6)) ∨
        (fieldAt b 5 1 = 4 ∧ ((fieldAt b 6 1 = 1 ∧ 1 ≤ fieldAt b 7 1 ∧ fieldAt b 7 1 ≤ 32 ∧ 1 ≤ fieldAt b 8 1 ∧
            fieldAt b 8 1 ≤ (s.station (fieldAt b 7 1)).places) ∨ fieldAt b 6 1 = 2 ∨
          (fieldAt b 6 1 = 3 ∧ 1 ≤ fieldAt b 7 1 ∧ fieldAt b 7 1 ≤ 32) ∨ fieldAt b 6 1 = 4))) ∧
      (flagAt b 9 0 = true → fieldAt b 10 3 ≤ 4000000 ∧ fieldAt b 13 3 ≤ 1500000 ∧ fieldAt b 16 3 ≤ 1500000 ∧
        fieldAt b 23 2 ≤ 999 ∧ 1 ≤ fieldAt b 25 1 ∧ fieldAt b 25 1 ≤ 2) ∧
      (flagAt b 9 4 = true → 1 ≤ fieldAt b 32 1) ∧ (flagAt b 9 5 = true → 1 ≤ fieldAt b 33 1 ∧ fieldAt b 33 1 ≤ 5) ∧
      (flagAt b 9 6 = true → 1 ≤ fieldAt b 34 1 ∧ fieldAt b 34 1 ≤ 32) ∧ fieldAt b 31 1 ≤ 4 ∧
      1 ≤ fieldAt b 0 2 ∧ fieldAt b 0 2 ≤ 2048 ∧ 1 ≤ fieldAt b 2 2 ∧ fieldAt b 2 2 ≤ 512 := by
  rw [← locationOf_iff, ← measField_iff, ← linkField_iff, ← qcauseField_iff, ← lastField_iff]
  constructor
  · rintro ⟨r, hr, hin⟩
    rw [Bool.and_eq_true, Bool.and_eq_true, toolNo_iff, typeNo_iff] at hin
    obtain ⟨⟨⟨hn1, hn2⟩, ht1, ht2⟩, hplace⟩ := hin
    obtain ⟨htype, hloc⟩ := instFields_reads hr
    obtain ⟨hc, -, hmeas, hlink, hq, hlast, hmarks⟩ := (instFields_iff b).1 ⟨r, hr⟩
    obtain ⟨hc1, hc2⟩ := custodyOf_iff.1 hc
    rw [htype] at ht1 ht2
    exact ⟨hc1, hc2, ⟨r.loc, hloc, hplace⟩, hmeas, hlink, hq, hlast, hmarks, hn1, hn2, ht1, ht2⟩
  · rintro ⟨hc1, hc2, ⟨l, hl, hplace⟩, hmeas, hlink, hq, hlast, hmarks, hn1, hn2, ht1, ht2⟩
    obtain ⟨r, hr⟩ := (instFields_iff b).2 ⟨custodyOf_iff.2 ⟨hc1, hc2⟩, ⟨l, hl⟩, hmeas, hlink, hq, hlast, hmarks⟩
    obtain ⟨htype, hloc⟩ := instFields_reads hr
    obtain rfl : l = r.loc := Option.some.inj (hl.symm.trans hloc)
    refine ⟨r, hr, ?_⟩
    rw [Bool.and_eq_true, Bool.and_eq_true, toolNo_iff, typeNo_iff, htype]
    exact ⟨⟨⟨hn1, hn2⟩, ht1, ht2⟩, hplace⟩

theorem State.loadInstance_out {s : State} {b : List Byte}
    (h : ¬ ∃ r, instFields b = some r ∧ (toolNo (fieldAt b 0 2) && typeNo r.type && s.placeInCount r.loc) = true) :
    s.loadInstance b = (s, .plain .range) := by
  unfold State.loadInstance
  split
  · rfl
  · rename_i r hr
    exact if_pos (Bool.eq_false_iff.2 fun hin => h ⟨r, hr, hin⟩)

theorem State.loadInstance_in {s : State} {b : List Byte} {r : InstRec} (hr : instFields b = some r)
    (h : (toolNo (fieldAt b 0 2) && typeNo r.type && s.placeInCount r.loc) = true) :
    s.loadInstance b = match s.loadRefusal (fieldAt b 0 2) r with
      | some c => (s, .plain c)
      | none => ((s.vacate (fieldAt b 0 2)).takeUp (fieldAt b 0 2) r, .plain .ok) := by
  unfold State.loadInstance
  simp only [hr, h, if_false, Bool.true_eq_false]

/-- R14, R15: what an accepted LOAD_INSTANCE does. -/
theorem State.load_does {s : State} {n : Nat} {r : InstRec} (h : s.loadPlaced n r) :
    ∃ t rs, (s.vacate n).takeUp n r = t ∧
      (∀ m, t.tool m = if m = n then
        some (match r.loc with
          | .toStation _ _ => { r with owed := true }
          | _ => r) else s.tool m) ∧
      (∀ c p, t.pocket c p = match r.loc with
        | .pocket d q => if pocketKey c p = pocketKey d q then ((s.vacate n).pocket d q).loadedWith n else (s.vacate n).pocket c p
        | _ => (s.vacate n).pocket c p) ∧
      (∀ st, t.station st = { s.station st with
        magazine := match r.loc with
          | .station x p =>
            if x = st then
              tset (magazineLeft (s.station st).magazine n st ((s.tool n).map (·.loc))) p
                { tool := n, active := true, confirmed := some r.generation, spentNotice := false }
            else magazineLeft (s.station st).magazine n st ((s.tool n).map (·.loc))
          | _ => magazineLeft (s.station st).magazine n st ((s.tool n).map (·.loc)) }) ∧
      t.hoe = { s.hoe with stations := t.hoe.stations } ∧ t.psc.cabinets = s.psc.cabinets ∧ s.Runs t ∧
      t.isc = (s.vacate n).isc ∧ t.isc.queue = s.isc.queue ∧ t.svp = s.svp.handed s.now rs ∧
      (∀ x ∈ rs, ∃ c p, x = .discrepancy .notTaken c p (some n) none) ∧ ((s.vacate n).svp = s.svp → rs = []) := by
  obtain ⟨hl, hp, -⟩ := h
  obtain ⟨hframe, hhoe, hstation, hcab, hqueue, told, htold, hall⟩ := s.vacate_does n
  obtain ⟨rs, hsvp, hreports, hquiet⟩ : ∃ rs, (s.vacate n).svp = s.svp.handed s.now rs ∧
      (∀ x ∈ rs, ∃ c p, x = .discrepancy .notTaken c p (some n) none) ∧ ((s.vacate n).svp = s.svp → rs = []) := by
    by_cases hq : (s.vacate n).svp = s.svp
    · exact ⟨[], hq, by simp, fun _ => rfl⟩
    · exact ⟨told, htold, hall, fun h => absurd h hq⟩
  obtain ⟨tframe, ttypes, tcab, thoe, ttool, tpocket, tstation⟩ := State.takeUp_does (s.vacate n) n r hp hl
  generalize s.vacate n = w at *
  have htrg : w.trg = s.trg := by rw [hframe]
  generalize w.takeUp n r = t at *
  have tsvp : t.svp = w.svp := by rw [tframe]
  have tisc : t.isc = w.isc := by rw [tframe]
  refine ⟨t, rs, rfl, fun m => ?_, tpocket, fun st => ?_, ?_, tcab.trans hcab, ⟨⟨rs, tsvp.trans hsvp⟩, ?_⟩, tisc,
    (congrArg Isc.queue tisc).trans hqueue, tsvp.trans hsvp, hreports, hquiet⟩
  · have hm := ttool m
    rw [State.tool_of_trg htrg] at hm
    exact hm
  · have hst := tstation st
    rw [hstation] at hst
    exact hst
  · rw [thoe, hhoe]
  · have hT : t.trg = { types := s.trg.types, insts := t.trg.insts } := by rw [← htrg, ← ttypes]
    calc t = { w with trg := t.trg, psc := t.psc, hoe := t.hoe } := tframe
      _ = { s with trg := t.trg, psc := t.psc, isc := w.isc, hoe := t.hoe, svp := w.svp } := by rw [hframe]
      _ = _ := by rw [← tisc, ← tsvp, ← hT]

/-- R43: a pocket that drops its instance and one that is loaded, in the terms of the records alone. -/
theorem Pocket.loadedWith_eq (p : Pocket) (n : Nat) : p.loadedWith n =
    { p with
      tool := some n, run := 0, state := if p.enabled = true then .occupied else p.state
      sensed := if p.enabled = true ∧ p.baseline ≠ none then .present else .undecided } := by
  unfold Pocket.loadedWith
  by_cases he : p.enabled = true <;> by_cases hb : p.baseline = none <;> simp [he, hb, Option.isSome_iff_ne_none]

/-- Settles O5: the ranges field by field, the checks in their order, and the record taken from its old place to its new one. -/
theorem loadInstanceWritesRecord : Obligations.LoadInstanceWritesRecord := by
  refine ⟨fun s tag body h => ?_, fun s n r => ?_⟩
  · intro n b listed
    have hlisted := loadInstance_inRange s body
    have hexec : exec (.loadInstance tag body) s = hostCommand 0x09 tag body
        (fun s => if s.running then (s, .plain .notInMode) else s.loadInstance body) s := rfl
    refine ⟨fun hm => ?_, fun hm hout => ?_, fun hm hin => ?_⟩
    · rw [hexec]
      exact hostCommand_answers h (if_pos (State.taken_running.2 hm))
    · rw [hexec]
      refine hostCommand_answers h ((execLoadInstance_loading hm).trans (State.loadInstance_out ?_))
      exact fun hr => hout (hlisted.1 hr)
    · obtain ⟨r, hr, hrange⟩ := hlisted.2 hin
      have hrun := State.loadInstance_in (s := s.taken 0x09 tag body) hr hrange
      refine ⟨r, hr, fun code hcode => ?_, fun hnone => ?_⟩
      · rw [hexec]
        refine hostCommand_answers h ((execLoadInstance_loading hm).trans (hrun.trans ?_))
        rw [show (s.taken 0x09 tag body).loadRefusal (fieldAt body 0 2) r = some code from hcode]
      · intro old
        rw [show (s.taken 0x09 tag body).loadRefusal (fieldAt body 0 2) r = none from hnone] at hrun
        obtain ⟨t, rs, ht, htool, hpocket, hstation, hhoe, hcab, hruns, hisc, hqueue, hsvp, hreports, hquiet⟩ :=
          State.load_does (s := s.taken 0x09 tag body) (State.loadPlaced_of_none hnone)
        refine ⟨{ t with svp := s.svpAnswered 0x09 tag body rs (.plain .ok) }, rs, ?_, ?_, ?_, ?_, ?_, ?_, ?_, hhoe, hcab,
          hruns.toolsOnly _, hqueue, rfl, hreports, ?_⟩
        · rw [hexec]
          exact hostCommand_runs h ((execLoadInstance_loading hm).trans (hrun.trans (by rw [ht]))) hsvp
        · rintro ⟨st, p, hl⟩
          refine (htool n).trans ((if_pos rfl).trans ?_)
          simp only [hl]
        · intro hl
          refine (htool n).trans ((if_pos rfl).trans ?_)
          cases hloc : r.loc with
          | toStation st p => exact absurd hloc (hl st p)
          | _ => rfl
        · exact fun m hm => (htool m).trans (if_neg hm)
        · intro c p hl
          refine (congrArg Pocket.tool (hpocket c p)).trans ?_
          simp only [hl, if_true, Pocket.loadedWith_eq]
        · intro c p h1 h2 ho hne
          refine ne_of_eq_of_ne (congrArg Pocket.tool (hpocket c p)) ?_
          have hleft : (((s.taken 0x09 tag body).vacate n).pocket c p).tool ≠ some n := State.vacate_pocket ho
          cases hloc : r.loc with
          | pocket d q =>
            have hq := locationOf_pocket ((instFields_reads hr).2.trans (congrArg some hloc))
            have hk : ¬ pocketKey c p = pocketKey d q := fun hk => by
              obtain ⟨rfl, rfl⟩ := (pocketKey_inj ⟨hq.2.2.1, hq.2.2.2⟩ ⟨h1, h2⟩).1 hk
              exact hne hloc
            simp only [if_neg hk]
            exact hleft
          | _ => exact hleft
        · exact hstation
        · intro hw hmarks ho
          obtain ⟨hvisc, hvsvp, hvpocket⟩ := State.vacate_quiet (s := s.taken 0x09 tag body) hw hmarks ho
          refine ⟨hquiet hvsvp, hisc.trans hvisc, fun c p h1 h2 => ?_⟩
          intro was left
          have hleft : ((s.taken 0x09 tag body).vacate n).pocket c p = left := by
            refine (hvpocket c p h1 h2).trans ?_
            rw [Pocket.drop_eq]
            rfl
          have hbase : left.enabled = was.enabled ∧ left.baseline = was.baseline := by
            simp only [left]
            split <;> exact ⟨rfl, rfl⟩
          refine (hpocket c p).trans ?_
          cases hloc : r.loc with
          | pocket d q =>
            have hq := locationOf_pocket ((instFields_reads hr).2.trans (congrArg some hloc))
            by_cases hk : pocketKey c p = pocketKey d q
            · obtain ⟨rfl, rfl⟩ := (pocketKey_inj ⟨hq.2.2.1, hq.2.2.2⟩ ⟨h1, h2⟩).1 hk
              simp only [if_true]
              rw [hleft, Pocket.loadedWith_eq, hbase.1, hbase.2]
            · simp only [if_neg hk, hleft]
              rw [if_neg]
              intro hsame
              cases hsame
              exact hk rfl
          | _ => exact hleft
  · intro custodyOk inPocket pairOk targetOk lasting fieldsOk
    have hplaced : s.loadPlaced n r ↔ custodyOk ∧ pairOk ∧ targetOk := by
      constructor
      · rintro ⟨hl, hp, ht⟩
        exact ⟨loadable_iff.1 hl, (allowedPair_iff hl).1 hp, (State.targetFree_iff (not_head_of_loads hl hp)).1 ht⟩
      · rintro ⟨hl, hp, ht⟩
        have hl := loadable_iff.2 hl
        have hp := (allowedPair_iff hl).2 hp
        exact ⟨hl, hp, (State.targetFree_iff (not_head_of_loads hl hp)).2 ht⟩
    obtain ⟨hnone, hsome⟩ := loadRefusal_inOrder s n r
    refine ⟨hnone, fun ty hty => ⟨fun hno => (hsome ty hty).1 (mt hplaced.1 hno), fun hc hp ht => ?_⟩⟩
    obtain ⟨hrange, hlimit, hstate, hpass⟩ := (hsome ty hty).2 (hplaced.2 ⟨hc, hp, ht⟩)
    exact ⟨hrange, hlimit, fun h1 h2 h3 => hstate h1 h2 (mt InstRec.fieldsOk_iff.1 h3),
      fun h1 h2 h3 => hpass h1 h2 (InstRec.fieldsOk_iff.2 h3)⟩

end Sys2Proof.Machine

/-! The queue of a station: how a transaction of the second class enters it and how one starts (R159, R160), and that both keep the
queue in its order. -/

namespace Sys2Proof.Machine

/-! ### Entering -/

/-- A queue in the order of its classes is its first class, then its second (R159). -/
theorem filter_classes {q : List Txn} (h : q.Pairwise (fun a b => b.kind.firstClass = true → a.kind.firstClass = true)) :
    q.filter (fun x => x.kind.firstClass) ++ q.filter (fun x => !x.kind.firstClass) = q := by
  induction q with
  | nil => rfl
  | cons a q ih =>
    obtain ⟨ha, hq⟩ := List.pairwise_cons.1 h
    cases hc : a.kind.firstClass with
    | true => simp [hc, ih hq]
    | false =>
      have hsecond : ∀ b ∈ q, b.kind.firstClass = false := fun b hb => by simpa [hc] using ha b hb
      have hnone : q.filter (fun x => x.kind.firstClass) = [] := List.filter_eq_nil_iff.2 fun b hb => by simp [hsecond b hb]
      have hall : q.filter (fun x => !x.kind.firstClass) = q := List.filter_eq_self.2 fun b hb => by simp [hsecond b hb]
      simp [hc, hnone, hall]

/-- R159: a transaction of the second class enters last. -/
theorem placeTxn_second {q : List Txn} {x : Txn} (hx : x.kind.firstClass = false)
    (h : q.Pairwise (fun a b => b.kind.firstClass = true → a.kind.firstClass = true)) :
    placeTxn q x (fun _ => false) = q ++ [x] := by
  have hall (c : List Txn) : c.takeWhile (fun _ => !false) = c := List.takeWhile_eq_self_iff.2 fun _ _ => rfl
  have hrest (c : List Txn) : c.dropWhile (fun _ => !false) = [] := List.dropWhile_eq_nil_iff.2 fun _ _ => rfl
  unfold placeTxn
  simp only [hx, Bool.false_eq_true, if_false, hall, hrest, List.append_nil]
  rw [← List.append_assoc, filter_classes h]

theorem State.setTxns_station (s : State) (n m : Nat) (q : List Txn) :
    (s.setTxns n q).station m = if m = n then { s.station n with queue := q } else s.station m :=
  State.station_setStation ..

theorem State.countTxn_station (s : State) (m : Nat) : s.countTxn.station m = s.station m := rfl

theorem State.enterTxn_station (s : State) (n m : Nat) (kind : TxnKind) (k : Option Nat) :
    (s.enterTxn n kind k).station m =
      if m = n then { s.station n with queue := placeTxn (s.station n).queue (s.newTxn kind k) (fun _ => false) }
      else s.station m :=
  State.setTxns_station ..

theorem State.enterTxn_entries (s : State) (n : Nat) (kind : TxnKind) (k : Option Nat) :
    (s.enterTxn n kind k).hoe.entries = s.hoe.entries + 1 := rfl

theorem Station.Queued.mono {st : Station} {k l : Nat} (h : st.Queued k) (hkl : k ≤ l) : st.Queued l :=
  ⟨h.1, h.2.1, fun x hx => (h.2.2.1 x hx).trans_le hkl, h.2.2.2⟩

/-- R159: a LIFE_UPDATE entered last keeps the queue in its order, where there was space. -/
theorem Station.Queued.entered {st : Station} {s : State} (h : st.Queued s.hoe.entries) (hspace : st.queue.length < 16)
    (tool place : Nat) (k : Option Nat) :
    Station.Queued { st with queue := st.queue ++ [s.newTxn (.lifeUpdate tool place false) k] } (s.hoe.entries + 1) := by
  obtain ⟨hlen, hids, hmade, hclasses, hpending, hflying⟩ := h
  have hsecond : (s.newTxn (.lifeUpdate tool place false) k).kind.firstClass = false := rfl
  refine ⟨?_, ?_, ?_, ?_, ?_, ?_⟩
  · simpa using hspace
  · rw [List.map_append, List.nodup_append]
    refine ⟨hids, List.nodup_singleton _, fun a ha b hb hab => ?_⟩
    obtain ⟨x, hx, rfl⟩ := List.mem_map.1 ha
    have : x.id = s.hoe.entries := hab.trans (List.mem_singleton.1 hb)
    exact absurd (hmade x hx) (by omega)
  · intro x hx
    rcases List.mem_append.1 hx with hx | hx
    · exact (hmade x hx).trans (Nat.lt_succ_self _)
    · rw [List.mem_singleton.1 hx]
      exact Nat.lt_succ_self _
  · rw [List.pairwise_append]
    refine ⟨hclasses, List.pairwise_singleton _ _, fun a _ b hb hfirst => ?_⟩
    rw [List.mem_singleton.1 hb, hsecond] at hfirst
    cases hfirst
  · intro a ha b hb hpa hpb hsame
    rcases List.mem_append.1 ha with ha | ha <;> rcases List.mem_append.1 hb with hb | hb
    · exact hpending a ha b hb hpa hpb hsame
    · rw [List.mem_singleton.1 hb] at hsame
      rcases hsame with ⟨_, _, hfalse⟩ | ⟨_, _, hfalse⟩ <;> cases hfalse
    · rw [List.mem_singleton.1 ha] at hsame
      rcases hsame with ⟨_, hfalse, _⟩ | ⟨_, hfalse, _⟩ <;> cases hfalse
    · rw [List.mem_singleton.1 ha, List.mem_singleton.1 hb]
  · intro a ha b hb hfa hfb
    rcases List.mem_append.1 ha with ha | ha <;> rcases List.mem_append.1 hb with hb | hb
    · exact hflying a ha b hb hfa hfb
    · rw [List.mem_singleton.1 hb] at hfb
      cases hfb
    · rw [List.mem_singleton.1 ha] at hfa
      cases hfa
    · rw [List.mem_singleton.1 ha, List.mem_singleton.1 hb]

/-! ### Starting -/

/-- A transaction that has just become IN_FLIGHT with this body (R160). -/
def Txn.started (x : Txn) (body : List Byte) : Txn :=
  { x with state := .inFlight, holdOff := none, firstSent := none, delivered := false, body := body, handed := false }

/-- Nothing keeps the station's next transaction from starting (R160). -/
def State.mayStart (s : State) (n : Nat) : Bool := s.running && s.linkRuns n && (s.inFlight n).isNone

theorem State.mayStart_eq_false {s : State} {n : Nat} :
    s.mayStart n = false ↔ s.svp.mode = .loading ∨ (s.link n).state.running = false ∨ s.inFlight n ≠ none := by
  unfold State.mayStart State.running State.linkRuns
  cases s.svp.mode <;> cases (s.link n).state.running <;> cases s.inFlight n <;> simp

theorem State.startTxn_idle {s : State} {n : Nat} (h : s.mayStart n = false) : s.startTxn n = s := by
  unfold State.startTxn
  rw [if_neg]
  rw [show (s.running && s.linkRuns n && (s.inFlight n).isNone) = false from h]
  exact Bool.false_ne_true

theorem State.startTxn_next {s : State} {n : Nat} {x : Txn} (h : s.mayStart n = true) (hx : s.nextToStart n = some x) :
    s.startTxn n = s.putTxn n (x.started (s.txnBody x.kind)) := by
  unfold State.startTxn
  rw [if_pos (by exact h), hx]
  rfl

theorem State.startTxn_none {s : State} {n : Nat} (hx : s.nextToStart n = none) : s.startTxn n = s := by
  unfold State.startTxn
  split
  · rw [hx]
  · rfl

theorem State.nextToStart_pending {s : State} {n : Nat} {x : Txn} (h : s.nextToStart n = some x) :
    x ∈ (s.station n).queue ∧ x.state = .pending := by
  refine ⟨List.mem_of_find?_eq_some h, ?_⟩
  have := List.find?_some h
  simp only [Bool.and_eq_true, beq_iff_eq] at this
  exact this.1

/-- What a start does to each transaction of the station (R160). -/
def State.startsAs (s : State) (n : Nat) (y : Txn) : Txn :=
  if s.mayStart n then
    match s.nextToStart n with
    | some x => if y.id = x.id then x.started (s.txnBody x.kind) else y
    | none => y
  else y

theorem State.startsAs_idle {s : State} {n : Nat} (h : s.mayStart n = false) (y : Txn) : s.startsAs n y = y := by
  simp [State.startsAs, h]

theorem State.startTxn_station (s : State) (n m : Nat) :
    (s.startTxn n).station m =
      if m = n then { s.station n with queue := (s.station n).queue.map (s.startsAs n) } else s.station m := by
  have hsame (hid : ∀ y, s.startsAs n y = y) :
      s.station m = if m = n then { s.station n with queue := (s.station n).queue.map (s.startsAs n) } else s.station m := by
    rw [show s.startsAs n = id from funext hid, List.map_id]
    split
    next hm => rw [hm]
    next => rfl
  cases h : s.mayStart n with
  | false =>
    rw [State.startTxn_idle h]
    exact hsame (State.startsAs_idle h)
  | true =>
    cases hx : s.nextToStart n with
    | none =>
      rw [State.startTxn_none hx]
      exact hsame fun y => by simp [State.startsAs, hx]
    | some x =>
      rw [State.startTxn_next h hx]
      refine (State.setTxns_station ..).trans ?_
      rw [show s.startsAs n = fun y => if y.id = x.id then x.started (s.txnBody x.kind) else y from
        funext fun y => by simp [State.startsAs, h, hx]]
      rfl

/-- Two transactions of a queue in its order with one number are one (R158). -/
theorem Station.Queued.eq_of_id {st : Station} {k : Nat} (h : st.Queued k) {x y : Txn} (hx : x ∈ st.queue) (hy : y ∈ st.queue)
    (hid : y.id = x.id) : y = x :=
  List.inj_on_of_nodup_map h.2.1 hy hx hid

/-- R160: a start leaves a transaction alone, or sets it in flight with the body of its records. -/
theorem State.startsAs_cases {s : State} {n k : Nat} (h : (s.station n).Queued k) {y : Txn} (hy : y ∈ (s.station n).queue) :
    s.startsAs n y = y ∨ (s.startsAs n y = y.started (s.txnBody y.kind) ∧ y.state = .pending ∧ s.mayStart n = true) := by
  unfold State.startsAs
  split
  next hmay =>
    split
    next x hx =>
      obtain ⟨hmem, hpending⟩ := State.nextToStart_pending hx
      split
      next hid =>
        obtain rfl := h.eq_of_id hmem hy hid
        exact .inr ⟨rfl, hpending, hmay⟩
      next => exact .inl rfl
    next => exact .inl rfl
  next => exact .inl rfl

theorem State.startsAs_id {s : State} {n k : Nat} (h : (s.station n).Queued k) {y : Txn} (hy : y ∈ (s.station n).queue) :
    (s.startsAs n y).id = y.id ∧ (s.startsAs n y).kind = y.kind ∧ (s.startsAs n y).broadcast = y.broadcast := by
  rcases State.startsAs_cases h hy with he | ⟨he, -⟩ <;> rw [he]
  · exact ⟨rfl, rfl, rfl⟩
  · exact ⟨rfl, rfl, rfl⟩

/-- At most the one that starts is changed (R160). -/
theorem State.startsAs_unique {s : State} {n k : Nat} (h : (s.station n).Queued k) {y z : Txn} (hy : y ∈ (s.station n).queue)
    (hz : z ∈ (s.station n).queue) (hye : s.startsAs n y ≠ y) (hze : s.startsAs n z ≠ z) : y = z := by
  have hstarted : ∀ {w : Txn}, w ∈ (s.station n).queue → s.startsAs n w ≠ w → s.nextToStart n = some w := by
    intro w hw hne
    unfold State.startsAs at hne
    split at hne
    next =>
      split at hne
      next x hx =>
        split at hne
        next hid => rw [hx, h.eq_of_id (State.nextToStart_pending hx).1 hw hid]
        next => exact absurd rfl hne
      next => exact absurd rfl hne
    next => exact absurd rfl hne
  exact Option.some.inj ((hstarted hy hye).symm.trans (hstarted hz hze))

theorem State.inFlight_ne_none {s : State} {n : Nat} : s.inFlight n ≠ none ↔ ∃ x ∈ (s.station n).queue, x.state = .inFlight := by
  simp [State.inFlight, List.find?_eq_none]

/-- R160: a start keeps the queue in its order. -/
theorem Station.Queued.startTxn {s : State} {n k : Nat} (h : (s.station n).Queued k) : ((s.startTxn n).station n).Queued k := by
  have hsame {y : Txn} (hy : y ∈ (s.station n).queue) := State.startsAs_id h hy
  obtain ⟨hlen, hids, hmade, hclasses, hpending, hflying⟩ := id h
  rw [State.startTxn_station, if_pos rfl]
  refine ⟨by simpa using hlen, ?_, ?_, ?_, ?_, ?_⟩
  · rw [List.map_map, List.map_congr_left (g := fun y => y.id) (by exact fun y hy => (hsame hy).1)]
    exact hids
  · intro x hx
    obtain ⟨y, hy, rfl⟩ := List.mem_map.1 hx
    rw [(hsame hy).1]
    exact hmade y hy
  · refine List.pairwise_map.2 (hclasses.imp_of_mem fun {a b} ha hb hab => ?_)
    rw [(hsame ha).2.1, (hsame hb).2.1]
    exact hab
  · have hback : ∀ {y : Txn}, y ∈ (s.station n).queue → (s.startsAs n y).state = .pending → s.startsAs n y = y := by
      intro y hy hp
      rcases State.startsAs_cases h hy with he | ⟨he, -⟩
      · exact he
      · rw [he] at hp
        cases hp
    intro a ha b hb hpa hpb hab
    obtain ⟨y, hy, rfl⟩ := List.mem_map.1 ha
    obtain ⟨z, hz, rfl⟩ := List.mem_map.1 hb
    have hye := hback hy hpa
    have hze := hback hz hpb
    rw [hye] at hpa hab ⊢
    rw [hze] at hpb hab ⊢
    exact hpending y hy z hz hpa hpb hab
  · have hstood : ∀ {y z : Txn}, y ∈ (s.station n).queue → z ∈ (s.station n).queue → s.startsAs n y ≠ y →
        (s.startsAs n z).state = .inFlight → y = z := by
      intro y z hy hz hne hf
      by_cases hze : s.startsAs n z = z
      · rcases State.startsAs_cases h hy with he | ⟨-, -, hmay⟩
        · exact absurd he hne
        · rw [hze] at hf
          rw [State.mayStart_eq_false.2 (.inr (.inr (State.inFlight_ne_none.2 ⟨z, hz, hf⟩)))] at hmay
          cases hmay
      · exact State.startsAs_unique h hy hz hne hze
    intro a ha b hb hfa hfb
    obtain ⟨y, hy, rfl⟩ := List.mem_map.1 ha
    obtain ⟨z, hz, rfl⟩ := List.mem_map.1 hb
    by_cases hye : s.startsAs n y = y
    · by_cases hze : s.startsAs n z = z
      · rw [hye] at hfa ⊢
        rw [hze] at hfb ⊢
        exact hflying y hy z hz hfa hfb
      · rw [hstood hz hy hze hfa]
    · rw [hstood hy hz hye hfb]

/-- R160: where a PENDING transaction holds off for nothing, something is in flight after a start. -/
theorem State.startTxn_flies {s : State} {n : Nat} (hrun : s.running = true)
    (hlink : s.linkRuns n = true) {x : Txn} (hx : x ∈ (s.station n).queue) (hp : x.state = .pending) (hh : x.holdOff = none) :
    (s.startTxn n).inFlight n ≠ none := by
  by_cases hf : s.inFlight n = none
  · have hmay : s.mayStart n = true := by simp [State.mayStart, hrun, hlink, hf]
    cases hy : s.nextToStart n with
    | none =>
      have := List.find?_eq_none.1 hy x hx
      simp [hp, hh] at this
    | some y =>
      obtain ⟨hmem, -⟩ := State.nextToStart_pending hy
      refine State.inFlight_ne_none.2 ⟨y.started (s.txnBody y.kind), ?_, rfl⟩
      rw [State.startTxn_station, if_pos rfl]
      exact List.mem_map.2 ⟨y, hmem, by simp [State.startsAs, hmay, hy]⟩
  · rwa [State.startTxn_idle (State.mayStart_eq_false.2 (.inr (.inr hf)))]

/-- What is in flight stays so while the next would start (R160). -/
theorem State.startTxn_inFlight {s : State} {n : Nat} (h : s.inFlight n ≠ none) : (s.startTxn n).inFlight n ≠ none := by
  rwa [State.startTxn_idle (State.mayStart_eq_false.2 (.inr (.inr h)))]

/-! ### What a start or an entry leaves alone -/

/-- Only the register and, of handoff, the stations and the counts of transactions have moved. -/
def State.StationsOnly (s t : State) : Prop :=
  t = { s with
    trg := t.trg
    hoe := { s.hoe with stations := t.hoe.stations, nextTxn := t.hoe.nextTxn, entries := t.hoe.entries } }

namespace State.StationsOnly

variable {s t u : State}

theorem refl (s : State) : s.StationsOnly s := rfl

theorem trans (h : s.StationsOnly t) (h' : t.StationsOnly u) : s.StationsOnly u := by
  unfold State.StationsOnly at *
  rw [h', h]

theorem setTool (s : State) (n : Nat) (r : InstRec) : s.StationsOnly (s.setTool n r) := rfl

theorem enterTxn (s : State) (n : Nat) (kind : TxnKind) (k : Option Nat) : s.StationsOnly (s.enterTxn n kind k) := rfl

theorem askUnblocked (s : State) (n place tool : Nat) : s.StationsOnly (s.askUnblocked n place tool) := by
  unfold State.askUnblocked
  split
  · exact refl s
  · exact enterTxn s n _ _

theorem startTxn (s : State) (n : Nat) : s.StationsOnly (s.startTxn n) := by
  unfold State.startTxn
  repeat' split
  · rfl
  · exact refl s
  · exact refl s

theorem running_eq (h : s.StationsOnly t) : t.running = s.running := by
  rw [h]
  rfl

theorem linkRuns_eq (h : s.StationsOnly t) (n : Nat) : t.linkRuns n = s.linkRuns n := by
  rw [h]
  rfl

end State.StationsOnly

end Sys2Proof.Machine

/-! O1: LOAD_TYPE. -/

namespace Sys2Proof.Machine

/-! ### What a station is told of the new lives -/

/-- R5: the LIFE_UPDATE that a station takes for an instance of the type whose life the new budget cuts. -/
def InstRec.toldOf (type budget st k : Nat) (r : InstRec) : Option TxnKind :=
  if r.type = type ∧ budget < r.life then
    match r.heldPlace with
    | some (x, place) => if x = st then some (.lifeUpdate k place false) else none
    | none => none
  else none

/-- How far a station has taken the LIFE_UPDATEs told so far: its old queue, some of it started, and behind it the new ones as far as
they found space (R5, R159, R160). -/
structure State.HasTold (s t : State) (st budget : Nat) (told : List TxnKind) (kept new : List Txn) : Prop where
  station : t.station st = { s.station st with queue := kept ++ new }
  same : kept.map (fun x => (x.id, x.kind)) = (s.station st).queue.map (fun x => (x.id, x.kind))
  prefixes : new.map (·.kind) <+: told
  length : new.length = min told.length (16 - (s.station st).queue.length)
  plain : ∀ x ∈ new, x.broadcast = none ∧ (x.state = .pending ∨ (x.state = .inFlight ∧
    ∀ n place, x.kind = .lifeUpdate n place false → x.body = lifeUpdateBody n place budget false))
  lives : ∀ x ∈ new, ∀ n place, x.kind = .lifeUpdate n place false → ∃ i, t.tool n = some i ∧ i.life = budget
  silent : told = [] → t.station st = s.station st
  idle : s.mayStart st = false → kept = (s.station st).queue ∧ ∀ x ∈ new, x.state = .pending
  ordered : (t.station st).Queued t.hoe.entries

namespace State.HasTold

variable {s t u : State} {st budget : Nat} {told : List TxnKind} {kept new : List Txn}

theorem start (h : (s.station st).Queued s.hoe.entries) : s.HasTold s st budget [] (s.station st).queue [] where
  station := by rw [List.append_nil]
  same := rfl
  prefixes := List.nil_prefix
  length := (Nat.zero_min _).symm
  plain := by simp
  lives := by simp
  silent := fun _ => rfl
  idle := fun _ => ⟨rfl, by simp⟩
  ordered := h

theorem kept_length (h : s.HasTold t st budget told kept new) : kept.length = (s.station st).queue.length := by
  simpa using congrArg List.length h.same

theorem queue (h : s.HasTold t st budget told kept new) : (t.station st).queue = kept ++ new := by rw [h.station]

theorem new_mem (h : s.HasTold t st budget told kept new) {x : Txn} (hx : x ∈ new) : x ∈ (t.station st).queue := by
  rw [h.queue]
  exact List.mem_append_right _ hx

/-- What was in flight has stayed so. -/
theorem inFlight_of (h : s.HasTold t st budget told kept new) (hf : s.inFlight st ≠ none) : t.inFlight st ≠ none := by
  obtain ⟨x, hx, hxf⟩ := State.inFlight_ne_none.1 hf
  refine State.inFlight_ne_none.2 ⟨x, ?_, hxf⟩
  rw [h.queue, (h.idle (State.mayStart_eq_false.2 (.inr (.inr hf)))).1]
  exact List.mem_append_left _ hx

/-- A step that leaves the station alone, and no life cut to the budget otherwise, tells it nothing. -/
theorem elsewhere (h : s.HasTold t st budget told kept new) (hst : u.station st = t.station st)
    (hentries : t.hoe.entries ≤ u.hoe.entries)
    (hlives : ∀ n i, t.tool n = some i → i.life = budget → ∃ j, u.tool n = some j ∧ j.life = budget) :
    s.HasTold u st budget told kept new where
  station := hst.trans h.station
  same := h.same
  prefixes := h.prefixes
  length := h.length
  plain := h.plain
  lives := fun x hx n place hk => by
    obtain ⟨i, hi, hl⟩ := h.lives x hx n place hk
    exact hlives n i hi hl
  silent := fun ht => hst.trans (h.silent ht)
  idle := h.idle
  ordered := hst ▸ h.ordered.mono hentries

/-- R160: a start changes one transaction, and cannot happen where it could not at first. -/
theorem started (h : s.HasTold t st budget told kept new) (hframe : s.StationsOnly t) (htold : told ≠ []) :
    s.HasTold (t.startTxn st) st budget told (kept.map (t.startsAs st)) (new.map (t.startsAs st)) where
  station := by
    rw [State.startTxn_station, if_pos rfl, h.station, List.map_append]
  same := by
    rw [List.map_map, ← h.same]
    refine List.map_congr_left fun x hx => ?_
    obtain ⟨hid, hkind, -⟩ := State.startsAs_id h.ordered (h.queue ▸ List.mem_append_left _ hx)
    exact Prod.ext hid hkind
  prefixes := by
    rw [List.map_map, List.map_congr_left (g := fun x => x.kind) (by
      exact fun x hx => (State.startsAs_id h.ordered (h.new_mem hx)).2.1)]
    exact h.prefixes
  length := by rw [List.length_map, h.length]
  plain := by
    intro y hy
    obtain ⟨x, hx, rfl⟩ := List.mem_map.1 hy
    obtain ⟨hb, hstate⟩ := h.plain x hx
    rcases State.startsAs_cases h.ordered (h.new_mem hx) with he | ⟨he, -⟩
    · rw [he]
      exact ⟨hb, hstate⟩
    · rw [he]
      refine ⟨hb, .inr ⟨rfl, fun n place hk => ?_⟩⟩
      obtain ⟨i, hi, hl⟩ := h.lives x hx n place hk
      show t.txnBody x.kind = _
      rw [show x.kind = .lifeUpdate n place false from hk]
      simp [State.txnBody, hi, hl]
  lives := by
    intro y hy n place hk
    obtain ⟨x, hx, rfl⟩ := List.mem_map.1 hy
    rw [(State.startsAs_id h.ordered (h.new_mem hx)).2.1] at hk
    rw [State.tool_of_trg (State.startTxn_trg t st)]
    exact h.lives x hx n place hk
  silent := fun ht => absurd ht htold
  idle := by
    intro hmay
    have hidle : t.mayStart st = false := by
      rcases State.mayStart_eq_false.1 hmay with hm | hm | hm
      · exact State.mayStart_eq_false.2 (.inl (by rw [hframe]; exact hm))
      · exact State.mayStart_eq_false.2 (.inr (.inl (by rw [hframe]; exact hm)))
      · exact State.mayStart_eq_false.2 (.inr (.inr (h.inFlight_of hm)))
    rw [show t.startsAs st = id from funext (State.startsAs_idle hidle), List.map_id, List.map_id]
    exact h.idle hmay
  ordered := by
    have he : (t.startTxn st).hoe.entries = t.hoe.entries := by
      unfold State.startTxn
      repeat' split
      all_goals rfl
    rw [he]
    exact h.ordered.startTxn

/-- R159: a LIFE_UPDATE that finds no space is left out. -/
theorem leftOut (h : s.HasTold t st budget told kept new) (hfull : t.queueFull st = true) (k : TxnKind) :
    s.HasTold t st budget (told ++ [k]) kept new where
  station := h.station
  same := h.same
  prefixes := h.prefixes.trans (List.prefix_append _ _)
  length := by
    have hq : 16 ≤ (kept ++ new).length := by
      rw [← h.queue]
      exact of_decide_eq_true hfull
    have hl := h.length
    have hk := h.kept_length
    rw [List.length_append] at hq
    rw [List.length_append, List.length_singleton]
    omega
  plain := h.plain
  lives := h.lives
  silent := fun ht => absurd ht (by simp)
  idle := h.idle
  ordered := h.ordered

/-- R159: a LIFE_UPDATE that finds space stands last, for an instance whose life has been cut. -/
theorem entered (h : s.HasTold t st budget told kept new) (hspace : (t.station st).queue.length < 16) {n place : Nat}
    {i : InstRec} (hi : t.tool n = some i) (hl : i.life = budget) :
    s.HasTold (t.enterTxn st (.lifeUpdate n place false) none) st budget (told ++ [.lifeUpdate n place false]) kept
      (new ++ [t.newTxn (.lifeUpdate n place false) none]) where
  station := by
    rw [State.enterTxn_station, if_pos rfl, placeTxn_second rfl h.ordered.2.2.2.1, h.station, List.append_assoc]
  same := h.same
  prefixes := by
    have hlen := h.length
    have hk := h.kept_length
    rw [h.queue, List.length_append] at hspace
    have hall : new.map (·.kind) = told := h.prefixes.eq_of_length (by rw [List.length_map]; omega)
    rw [List.map_append, hall]
    exact List.prefix_rfl
  length := by
    have hlen := h.length
    have hk := h.kept_length
    rw [h.queue, List.length_append] at hspace
    rw [List.length_append, List.length_append, List.length_singleton, List.length_singleton]
    omega
  plain := by
    intro x hx
    rcases List.mem_append.1 hx with hx | hx
    · exact h.plain x hx
    · rw [List.mem_singleton.1 hx]
      exact ⟨rfl, .inl rfl⟩
  lives := by
    intro x hx m p hk
    rcases List.mem_append.1 hx with hx | hx
    · exact h.lives x hx m p hk
    · rw [List.mem_singleton.1 hx] at hk
      cases hk
      exact ⟨i, hi, hl⟩
  silent := fun ht => absurd ht (by simp)
  idle := by
    intro hmay
    obtain ⟨hkept, hnew⟩ := h.idle hmay
    refine ⟨hkept, fun x hx => ?_⟩
    rcases List.mem_append.1 hx with hx | hx
    · exact hnew x hx
    · rw [List.mem_singleton.1 hx]
      rfl
  ordered := by
    rw [State.enterTxn_station, if_pos rfl, placeTxn_second rfl h.ordered.2.2.2.1, State.enterTxn_entries]
    exact h.ordered.entered hspace n place none

end State.HasTold

/-- The station has been told so much, and what it took in is under way where its link runs (R160). -/
def State.Told (s t : State) (st budget : Nat) (told : List TxnKind) : Prop :=
  ∃ kept new, s.HasTold t st budget told kept new ∧
    (s.running = true → s.linkRuns st = true → new ≠ [] → t.inFlight st ≠ none)

namespace State.Told

variable {s t : State} {st budget type : Nat} {told : List TxnKind}

theorem elsewhere {u : State} (h : s.Told t st budget told) (hst : u.station st = t.station st)
    (hentries : t.hoe.entries ≤ u.hoe.entries)
    (hlives : ∀ n i, t.tool n = some i → i.life = budget → ∃ j, u.tool n = some j ∧ j.life = budget) :
    s.Told u st budget told := by
  obtain ⟨kept, new, h, hflies⟩ := h
  refine ⟨kept, new, h.elsewhere hst hentries hlives, fun hr hl hn => ?_⟩
  rw [State.inFlight, hst]
  exact hflies hr hl hn

/-- A life cut to the budget leaves every life that is at the budget there. -/
theorem cut (h : s.Told t st budget told) (n : Nat) (r : InstRec) :
    s.Told (t.setTool n { r with life := budget }) st budget told := by
  refine h.elsewhere rfl le_rfl fun m i hi hl => ?_
  rw [State.tool_setTool]
  split
  · exact ⟨_, rfl, rfl⟩
  · exact ⟨i, hi, hl⟩

/-- R5, R159, R160: one LIFE_UPDATE is asked for at the station and the next transaction starts. -/
theorem asked (h : s.Told t st budget told) (hframe : s.StationsOnly t) {n : Nat} {i : InstRec} (hi : t.tool n = some i)
    (hl : i.life = budget) (place : Nat) :
    s.Told ((t.askUnblocked st place n).startTxn st) st budget (told ++ [.lifeUpdate n place false]) := by
  obtain ⟨kept, new, h, hflies⟩ := h
  unfold State.askUnblocked
  split
  next hfull =>
    refine ⟨_, _, (h.leftOut hfull _).started hframe (by simp), fun hr hlink hn => ?_⟩
    exact State.startTxn_inFlight (hflies hr hlink fun hnil => hn (by rw [hnil]; rfl))
  next hspace =>
    have hspace : (t.station st).queue.length < 16 := Nat.not_le.1 fun hle => hspace (decide_eq_true hle)
    have hentered := h.entered (place := place) hspace hi hl
    have hsame := hframe.trans (.enterTxn t st (.lifeUpdate n place false) none)
    refine ⟨_, _, hentered.started hsame (by simp), fun hr hlink _ => ?_⟩
    refine State.startTxn_flies ?_ ?_ (hentered.new_mem (List.mem_append_right _ (List.mem_singleton.2 rfl))) rfl rfl
    · rwa [hsame.running_eq]
    · rwa [hsame.linkRuns_eq]

end State.Told

/-! ### The clamping of the lives -/

theorem State.StationsOnly.clampLife (s : State) (k type budget : Nat) : s.StationsOnly (s.clampLife k type budget) := by
  unfold State.clampLife
  repeat' split
  · exact .refl s
  · exact ((State.StationsOnly.setTool s k _).trans (.askUnblocked _ _ _ _)).trans (.startTxn _ _)
  · exact .setTool s k _
  · exact .refl s

theorem State.StationsOnly.clampAll (s : State) (ks : List Nat) (type budget : Nat) :
    s.StationsOnly (ks.foldl (fun s k => s.clampLife k type budget) s) := by
  induction ks generalizing s with
  | nil => exact .refl s
  | cons k ks ih => exact (State.StationsOnly.clampLife s k type budget).trans (ih _)

theorem State.startTxn_entries (s : State) (n : Nat) : (s.startTxn n).hoe.entries = s.hoe.entries := by
  unfold State.startTxn
  repeat' split
  all_goals rfl

theorem State.askUnblocked_elsewhere {s : State} {x m : Nat} (hm : m ≠ x) (place tool : Nat) :
    (s.askUnblocked x place tool).station m = s.station m := by
  unfold State.askUnblocked
  split
  · rfl
  · rw [State.enterTxn_station, if_neg hm]

theorem State.le_askUnblocked_entries (s : State) (x place tool : Nat) :
    s.hoe.entries ≤ (s.askUnblocked x place tool).hoe.entries := by
  unfold State.askUnblocked
  split
  · exact le_rfl
  · exact Nat.le_succ _

/-- R5: the clamping of one instance tells the station of it, if it is cut and held there. -/
theorem State.Told.clampLife {s t : State} {st budget : Nat} {told : List TxnKind} (h : s.Told t st budget told)
    (hframe : s.StationsOnly t) {k : Nat} {r : InstRec} (hr : t.tool k = some r) (type : Nat) :
    s.Told (t.clampLife k type budget) st budget (told ++ (r.toldOf type budget st k).toList) := by
  unfold State.clampLife InstRec.toldOf
  rw [hr]
  dsimp only
  split
  next hcut =>
    have hset := h.cut k r
    cases hplace : r.heldPlace with
    | none => simpa using hset
    | some at' =>
      obtain ⟨x, place⟩ := at'
      dsimp only
      split
      next hx =>
        subst hx
        exact hset.asked (hframe.trans (.setTool t k _)) (tget_tset_self ..) rfl place
      next hx =>
        rw [Option.toList_none, List.append_nil]
        refine hset.elsewhere ?_ ?_ fun m i hi hl => ⟨i, ?_, hl⟩
        · rw [State.startTxn_station, if_neg (Ne.symm hx), State.askUnblocked_elsewhere (Ne.symm hx)]
        · rw [State.startTxn_entries]
          exact State.le_askUnblocked_entries ..
        · rwa [State.tool_of_trg ((State.startTxn_trg _ _).trans (State.askUnblocked_trg _ _ _ _))]
  next => simpa using h

/-- R5: the clamping of the instances of a list, each for the first time, tells the station of those that are cut and held there. -/
theorem State.Told.clampAll {s : State} {st budget : Nat} (type : Nat) (es : List (Nat × InstRec)) {t : State}
    {told : List TxnKind} (h : s.Told t st budget told) (hframe : s.StationsOnly t) (hkeys : (es.map (·.1)).Nodup)
    (htools : ∀ e ∈ es, t.tool e.1 = some e.2) :
    s.Told ((es.map (·.1)).foldl (fun u k => u.clampLife k type budget) t) st budget
      (told ++ es.filterMap (fun e => e.2.toldOf type budget st e.1)) := by
  induction es generalizing t told with
  | nil => simpa using h
  | cons e es ih =>
    obtain ⟨hfresh, hkeys⟩ := List.nodup_cons.1 hkeys
    have hstep := h.clampLife hframe (htools e (List.mem_cons_self ..)) type
    have hrest := ih hstep (hframe.trans (.clampLife t e.1 type budget)) hkeys fun d hd => by
      rw [State.clampLife_tool, if_neg fun hde : d.1 = e.1 => hfresh (List.mem_map.2 ⟨d, hd, hde⟩)]
      exact htools d (List.mem_cons_of_mem _ hd)
    rw [List.append_assoc] at hrest
    have happend : (e :: es).filterMap (fun e => e.2.toldOf type budget st e.1) =
        (e.2.toldOf type budget st e.1).toList ++ es.filterMap (fun e => e.2.toldOf type budget st e.1) := by
      rw [List.filterMap_cons]
      cases e.2.toldOf type budget st e.1 <;> rfl
    rw [happend]
    exact hrest

/-! ### The command -/

/-- A run on the state of a taken command that moves the register and the stations leaves the rest of the part as it was. -/
theorem State.StationsOnly.answered {s t : State} {kind tag : Byte} {body : List Byte}
    (h : (s.taken kind tag body).StationsOnly t) (v : Svp) :
    { t with svp := v } = { s with trg := t.trg, hoe := t.hoe, svp := v, lines := Lines.quiet } :=
  congrArg (fun x : State => { x with svp := v, trg := t.trg, hoe := t.hoe }) h

theorem State.marksAbove_iff {s : State} {n limit : Nat} :
    s.marksAbove n limit = true ↔ ∃ e ∈ s.trg.insts, e.2.type = n ∧ limit < e.2.marks := by
  simp [State.marksAbove]

/-- R4: what refuses a record for a present slot. -/
def State.typeBound (s : State) (n : Nat) (old r : TypeRec) : Prop :=
  (r.lifeUnit ≠ old.lifeUnit ∧ ∃ e ∈ s.trg.insts, e.2.type = n) ∨ ∃ e ∈ s.trg.insts, e.2.type = n ∧ r.regrindLimit < e.2.marks

/-- R5: a present slot takes the record, but for held, and the lives of its instances the budget. -/
def State.replaceType (s : State) (n : Nat) (old r : TypeRec) : State :=
  (s.trg.insts.map (·.1)).foldl (fun u k => u.clampLife k n r.budget) (s.setType n { r with held := old.held })

theorem State.loadType_bound {s : State} {n : Nat} {old r : TypeRec} (ho : s.type n = some old) (h : s.typeBound n old r) :
    s.loadType n r = (s, .plain .state) := by
  unfold State.loadType
  rw [ho]
  dsimp only
  rcases h with ⟨hunit, hused⟩ | hmarks
  · exact if_pos (by simp [State.typeUsed_iff.2 hused, hunit.symm])
  · split
    · rfl
    · exact if_pos (State.marksAbove_iff.2 hmarks)

theorem State.loadType_replaces {s : State} {n : Nat} {old r : TypeRec} (ho : s.type n = some old) (h : ¬ s.typeBound n old r) :
    s.loadType n r = (s.replaceType n old r, .plain .ok) := by
  have hunit : ¬ (decide (old.lifeUnit ≠ r.lifeUnit) && s.typeUsed n) = true := fun hc => by
    obtain ⟨hne, hused⟩ := Bool.and_eq_true_iff.1 hc
    exact h (.inl ⟨(of_decide_eq_true hne).symm, State.typeUsed_iff.1 hused⟩)
  have hmarks : ¬ s.marksAbove n r.regrindLimit = true := fun hc => h (.inr (State.marksAbove_iff.1 hc))
  unfold State.loadType
  rw [ho]
  exact (if_neg hunit).trans (if_neg hmarks)

theorem State.replaceType_stationsOnly (s : State) (n : Nat) (old r : TypeRec) : s.StationsOnly (s.replaceType n old r) :=
  State.StationsOnly.trans (t := s.setType n { r with held := old.held }) rfl (.clampAll _ _ _ _)

theorem State.replaceType_type (s : State) (n m : Nat) (old r : TypeRec) :
    (s.replaceType n old r).type m = if m = n then some { r with held := old.held } else s.type m := by
  unfold State.replaceType State.type
  rw [State.clampAll_types]
  exact State.type_setType ..

theorem State.replaceType_tool (s : State) (n m : Nat) (old r : TypeRec) :
    (s.replaceType n old r).tool m = (s.tool m).map (·.clamped n r.budget) :=
  State.clampAll_listed (s.setType n { r with held := old.held }) n r.budget m

/-- R5: each station is told of the clamped instances held there. -/
theorem State.replaceType_told {s : State} {st : Nat} (hs : tableSorted s.trg.insts = true)
    (hq : (s.station st).Queued s.hoe.entries) (n : Nat) (old r : TypeRec) :
    s.Told (s.replaceType n old r) st r.budget (s.trg.insts.filterMap (fun e => e.2.toldOf n r.budget st e.1)) := by
  have hstart : s.Told (s.setType n { r with held := old.held }) st r.budget [] :=
    State.Told.elsewhere ⟨_, _, .start hq, fun _ _ h => absurd rfl h⟩ rfl le_rfl fun _ i hi hl => ⟨i, hi, hl⟩
  have hkeys : (s.trg.insts.map (·.1)).Nodup := ((tableSorted_iff _).1 hs).imp fun h => h.ne
  exact hstart.clampAll n s.trg.insts rfl hkeys fun e he => tget_of_mem hs he

/-- R5, R159, R160: what the told LIFE_UPDATEs are in a station's queue, kept transactions first. -/
theorem State.Told.queue {s t : State} {st budget : Nat} {told : List TxnKind} (h : s.Told t st budget told) :
    let before := (s.station st).queue
    let kept := (t.station st).queue.take before.length
    let new := (t.station st).queue.drop before.length
    t.station st = { s.station st with queue := kept ++ new } ∧ (told = [] → t.station st = s.station st) ∧
    kept.map (fun x => (x.id, x.kind)) = before.map (fun x => (x.id, x.kind)) ∧
    (∃ left, (new.map (·.kind) ++ left).Perm told) ∧ new.length = min told.length (16 - before.length) ∧
    (∀ x ∈ new, x.broadcast = none ∧ (x.state = .pending ∨ (x.state = .inFlight ∧
      ∀ n place, x.kind = .lifeUpdate n place false → x.body = lifeUpdateBody n place budget false))) ∧
    (s.svp.mode = .loading ∨ (s.link st).state.running = false ∨ s.inFlight st ≠ none →
      kept = before ∧ ∀ x ∈ new, x.state = .pending) ∧
    (s.svp.mode = .running → (s.link st).state.running = true → new ≠ [] → t.inFlight st ≠ none) := by
  obtain ⟨kept, new, h, hflies⟩ := h
  have hlen := h.kept_length
  have htake : (t.station st).queue.take (s.station st).queue.length = kept := by rw [h.queue, List.take_left' hlen]
  have hdrop : (t.station st).queue.drop (s.station st).queue.length = new := by rw [h.queue, List.drop_left' hlen]
  dsimp only
  rw [htake, hdrop]
  obtain ⟨left, hleft⟩ := h.prefixes
  refine ⟨h.station, h.silent, h.same, ⟨left, by rw [hleft]⟩, h.length, h.plain, fun hidle => ?_, fun hm hlink hn => ?_⟩
  · exact h.idle (State.mayStart_eq_false.2 hidle)
  · exact hflies (by simp [State.running, hm]) hlink hn

/-- Settles O1: the checks of R2, the absent slot of R3, the refusals of R4, and R5 by an induction over the instances that says how
each station's queue grows. -/
theorem loadTypeChecksFillsAndReplaces : Obligations.LoadTypeChecksFillsAndReplaces := by
  refine ⟨⟨fun s tag body h hbad => ?_, fun s tag body r h hr hn hrange hnone => ?_⟩,
    fun s tag body r old h hr hn hrange ho => ⟨fun hbound => ?_, fun hfree => ?_⟩⟩
  case refine_1 =>
    change execLoadType tag body s = _
    unfold execLoadType
    refine hostCommand_answers h ?_
    split
    · rfl
    next r hr =>
      refine if_neg fun hc => hbad ⟨r, hr, ?_⟩
      obtain ⟨hno, hrange⟩ := Bool.and_eq_true_iff.1 hc
      obtain ⟨hlo, hhi⟩ := typeNo_iff.1 hno
      exact ⟨hlo, hhi, (TypeRec.inRange_iff r).1 hrange⟩
  case refine_2 =>
    let u := (s.taken 0x01 tag body).setType (fieldAt body 0 2) { r with held := false }
    refine ⟨{ u with svp := s.svpAnswered 0x01 tag body [] (.plain .ok) }, ?_, ?_, fun m hm => ?_, rfl⟩
    · change execLoadType tag body s = _
      unfold execLoadType
      refine hostCommand_silent (u := u) h ?_ rfl
      rw [hr]
      refine (if_pos (by simp [hn, hrange])).trans ?_
      unfold State.loadType
      rw [show (s.taken 0x01 tag body).type _ = none from hnone]
    · exact (State.type_setType _ _ _ _).trans (if_pos rfl)
    · exact (State.type_setType _ _ _ _).trans (if_neg hm)
  case refine_3 =>
    change execLoadType tag body s = _
    unfold execLoadType
    refine hostCommand_answers h ?_
    rw [hr]
    exact (if_pos (by simp [hn, hrange])).trans (State.loadType_bound (s := s.taken 0x01 tag body) ho hbound)
  case refine_4 =>
    let w := s.taken 0x01 tag body
    have hexec : exec (.loadType tag body) s =
        .next { w.replaceType (fieldAt body 0 2) old r with svp := s.svpAnswered 0x01 tag body [] (.plain .ok) } := by
      change execLoadType tag body s = _
      unfold execLoadType
      refine hostCommand_silent h ?_ ?_
      · rw [hr]
        exact (if_pos (by simp [hn, hrange])).trans (State.loadType_replaces (s := w) ho hfree)
      · rw [w.replaceType_stationsOnly]
    have hframe := w.replaceType_stationsOnly (fieldAt body 0 2) old r
    have htype := w.replaceType_type (fieldAt body 0 2) (old := old) (r := r)
    have htool := w.replaceType_tool (fieldAt body 0 2) (old := old) (r := r)
    have htold := fun hs st hq => (State.replaceType_told (s := w) (st := st) hs hq (fieldAt body 0 2) old r).queue
    generalize w.replaceType (fieldAt body 0 2) old r = t at *
    refine ⟨_, hexec, (htype _).trans (if_pos rfl), fun m hm => (htype m).trans (if_neg hm), htool, ?_, ?_, fun hs hq st => ?_⟩
    · exact hframe.answered _
    · exact congrArg State.hoe hframe
    · have hqueue := htold hs st (hq st)
      rw [show w.svp.mode = s.svp.mode from State.bringIn_mode ..] at hqueue
      exact hqueue

end Sys2Proof.Machine

/-! O41 fails: its clause on a verified ISSUED instance is said of every state, also of one where a RESERVED request names that
instance. -/

namespace Sys2Proof.Machine

/-- A held type whose spent tools are replaced. -/
def heldType : TypeRec :=
  { cls := .lengthOnly, adjustable := false, nominalLength := 0, nominalRadius := 0, lengthBand := ⟨0, 0⟩, radiusBand := ⟨0, 0⟩
    adjustBand := none, runoutLimit := 0, expansion := 0, adapter := 0, lifeUnit := .hits, budget := 2, warnLevel := 0
    governed := .length, regrindStep := 0, regrindLimit := 0, keepOnReturn := false, autoPrefetch := false, autoReplace := true
    home := none, held := true }

/-- An instance of that type, ISSUED and standing at a place of station 1. -/
def issuedAt (place : Nat) (spent : Bool) : InstRec :=
  { newInstance 1 0 1 with custody := .issued, loc := .station 1 place, spent := spent }

/-- Its magazine entry, the data confirmed. -/
def confirmedEntry (tool : Nat) : MagEntry := { tool := tool, active := false, confirmed := some 0, spentNotice := false }

/-- Station 1 holds two ISSUED instances of the held type, their data confirmed. The second is spent and its place has a live request,
which is RESERVED, names the first instance, and asks for more life than that has. -/
def reservedWhileIssued : State :=
  { State.reset with
    svp := { State.reset.svp with mode := .running }
    trg := { types := [(1, heldType)], insts := [(1, issuedAt 1 false), (2, issuedAt 2 true)] }
    isc := { State.reset.isc with
      queue := [
        { number := 1, origin := .auto, type := 1, dest := .station 1 2, prio := .urgent, neededBy := none, minLife := some 2
          state := .reserved, tool := some 1, misses := 0, enqTick := 0, reserveTick := some 0, entry := 0 }] }
    hoe := { State.reset.hoe with
      stations := [(1, { Station.reset with magazine := [(1, confirmedEntry 1), (2, confirmedEntry 2)] })] } }

theorem reservedWhileIssued_type : reservedWhileIssued.type (fieldAt [0, 1, 1] 0 2) = some heldType := by decide +kernel

theorem reservedWhileIssued_tool : reservedWhileIssued.tool 1 = some (issuedAt 1 false) := by decide +kernel

theorem reservedWhileIssued_entry : tget (reservedWhileIssued.station 1).magazine 1 = some (confirmedEntry 1) := by decide +kernel

/-- TYPE_RELEASE verifies the first instance, then the second, whose replacement merges into the request and so releases the first
(R53, R61, R124). -/
theorem reservedWhileIssued_released :
    ∃ t, exec (.typeRelease 9 [0, 1, 1]) reservedWhileIssued = .next t ∧ (t.tool 1).map (·.custody) = some .staged :=
  ⟨_, rfl, by decide +kernel⟩

/-- Refutes O41: an ISSUED instance whose generation is confirmed does not stay LOADED where a RESERVED request names it. The
statement's hypotheses let such a request stand, which R57 excludes. -/
theorem not_typeReleaseLiftsHold : ¬ Obligations.TypeReleaseLiftsHold := by
  unfold Obligations.TypeReleaseLiftsHold
  intro h
  obtain ⟨-, -, -, -, hreleased⟩ := h reservedWhileIssued 9 [0, 1, 1] (by decide +kernel)
  obtain ⟨t, rs, r, ht, -, hverified, -⟩ := hreleased heldType rfl (by decide) reservedWhileIssued_type rfl (by decide) rfl
    (by decide) (by decide)
  obtain ⟨⟨j, hj, hloaded, -⟩, -⟩ := hverified 1 (issuedAt 1 false) 1 1 (confirmedEntry 1) reservedWhileIssued_tool rfl rfl rfl
    reservedWhileIssued_entry rfl rfl
  obtain ⟨u, hu, hstaged⟩ := reservedWhileIssued_released
  generalize exec (.typeRelease 9 [0, 1, 1]) reservedWhileIssued = out at ht hu
  obtain rfl : t = u := by
    rw [ht] at hu
    exact Host.Outcome.next.inj hu
  rw [hj, Option.map_some, hloaded] at hstaged
  cases hstaged

end Sys2Proof.Machine

/-! O57, the blocks: what the tables, a pocket, the port, a checker and a link keep within their ranges, and the capacities of the
part through each update of one record. -/

namespace Sys2Proof.Machine

variable {α : Type}

/-! ### Tables -/

theorem mem_dset [DecidableEq α] {d : α} {t : Table α} {k : Nat} {v : α} {e : Nat × α} (h : e ∈ dset d t k v) :
    e = (k, v) ∨ e ∈ t := by
  unfold dset at h
  split at h
  · exact .inr (mem_tdel h)
  · exact mem_tset h

/-- What holds of the default and of every record listed holds of every record read. -/
theorem dget_of_forall {P : α → Prop} {d : α} {t : Table α} (hd : P d) (h : ∀ e ∈ t, P e.2) (k : Nat) : P (dget d t k) := by
  unfold dget
  cases hk : tget t k with
  | none => exact hd
  | some v => exact h _ (mem_of_tget hk)

theorem dget_of_mem {d : α} {t : Table α} (hs : tableSorted t = true) {e : Nat × α} (h : e ∈ t) : dget d t e.1 = e.2 := by
  unfold dget
  rw [tget_of_mem hs h, Option.getD_some]

theorem tableSorted_filter {t : Table α} (p : Nat × α → Bool) (h : tableSorted t = true) : tableSorted (t.filter p) = true := by
  rw [tableSorted_iff] at h ⊢
  exact List.Pairwise.sublist (List.Sublist.map _ List.filter_sublist) h

theorem cyclicNext_bounds {top : Nat} (htop : 1 ≤ top) (n : Nat) : 1 ≤ cyclicNext top n ∧ cyclicNext top n ≤ top := by
  unfold cyclicNext
  split <;> omega

/-! ### Pockets -/

/-- A pocket changed in nothing that its ranges speak of, but that its run may have fallen. -/
def Pocket.SameCounts (p q : Pocket) : Prop :=
  q.baseline = p.baseline ∧ q.presentBound = p.presentBound ∧ q.absentBound = p.absentBound ∧ q.lastCount = p.lastCount ∧
  q.run ≤ p.run

theorem Pocket.SameCounts.refl (p : Pocket) : p.SameCounts p := ⟨rfl, rfl, rfl, rfl, le_rfl⟩

theorem Pocket.SameCounts.within {p q : Pocket} {c : CabSettings} (h : p.SameCounts q) (hp : p.Within c) : q.Within c := by
  obtain ⟨hbase, hpresent, habsent, hlast, hrun⟩ := h
  obtain ⟨h1, h2, h3, h4, h5⟩ := hp
  unfold Pocket.Within
  rw [hbase, hpresent, habsent, hlast]
  exact ⟨h1, h2, hrun.trans h3, h4, h5⟩

theorem Pocket.drop_sameCounts (p : Pocket) : p.SameCounts p.drop := Pocket.SameCounts.refl p

theorem Pocket.depart_sameCounts (p : Pocket) (n : Nat) (cause : MarkCause) : p.SameCounts (p.depart n cause) := by
  unfold Pocket.depart
  split <;> exact Pocket.SameCounts.refl p

theorem Pocket.loadedWith_sameCounts (p : Pocket) (n : Nat) : p.SameCounts (p.loadedWith n) := by
  unfold Pocket.loadedWith
  split <;> exact ⟨rfl, rfl, rfl, rfl, Nat.zero_le _⟩

theorem Pocket.enable_sameCounts (p : Pocket) (on : Bool) : p.SameCounts (p.enable on) := by
  unfold Pocket.enable
  split
  · exact Pocket.SameCounts.refl p
  · split
    · exact Pocket.SameCounts.refl p
    · exact ⟨rfl, rfl, rfl, rfl, Nat.zero_le _⟩

theorem Pocket.recovered_sameCounts (p : Pocket) : p.SameCounts p.recovered := by
  unfold Pocket.recovered
  split
  · exact ⟨rfl, rfl, rfl, rfl, Nat.zero_le _⟩
  · split <;> exact ⟨rfl, rfl, rfl, rfl, Nat.zero_le _⟩
  · exact ⟨rfl, rfl, rfl, rfl, Nat.zero_le _⟩

theorem Pocket.reset_within (c : CabSettings) : Pocket.reset.Within c := by simp [Pocket.Within, Pocket.reset]

/-- R32: the counter stops at 16,383. -/
theorem countOf_le (cycles : Nat) : countOf cycles ≤ 16383 := min_le_right _ _

/-- R35: the bounds computed are those of the baseline. -/
theorem Pocket.withBounds_within {p : Pocket} (c : CabSettings) (hb : ∀ b ∈ p.baseline, 1 ≤ b ∧ b ≤ 16383)
    (hk : ∀ k ∈ p.lastCount, k ≤ 16383) (hr : p.run ≤ 8) : (p.withBounds c).Within c := ⟨hb, hk, hr, rfl, rfl⟩

/-- R35: a learned pocket has the bounds of its new baseline. -/
theorem Pocket.learned_within (p : Pocket) (c : CabSettings) {count : Nat} (h0 : count ≠ 0) (h1 : count ≤ 16383) :
    (p.learned c count).Within c := by
  have hw : (({ p with lastCount := some count, baseline := some count, run := 0 } : Pocket).withBounds c).Within c :=
    Pocket.withBounds_within c (by simpa using ⟨by omega, h1⟩) (by simpa using h1) (Nat.zero_le _)
  unfold Pocket.learned
  dsimp only
  split <;> exact hw

/-- R30: a pocket under changed settings has the bounds of its scaled baseline. -/
theorem Pocket.resettled_within {p : Pocket} {old : CabSettings} (new : CabSettings) (h : p.Within old) :
    (p.resettled old new).Within new := by
  obtain ⟨hb, hk, hr, -, -⟩ := h
  refine Pocket.withBounds_within new ?_ hk hr
  intro b hbase
  dsimp only at hbase
  split at hbase
  · exact hb b hbase
  · obtain ⟨a, -, rfl⟩ := Option.map_eq_some_iff.1 hbase
    omega

/-! ### The crib -/

theorem CabSettings.reset_within : CabSettings.reset.Within := by simp [CabSettings.Within, CabSettings.reset]

theorem Cabinet.reset_within : Cabinet.reset.Within := ⟨CabSettings.reset_within, by simp [Cabinet.reset]⟩

/-- The ranges of the crib, said of what its tables read as. -/
theorem Psc.within_iff (p : Psc) :
    p.Within ↔ tableSorted p.pockets = true ∧ tableSorted p.cabinets = true ∧ (∀ c, (dget Cabinet.reset p.cabinets c).Within) ∧
      ∀ k, (dget Pocket.reset p.pockets k).Within (dget Cabinet.reset p.cabinets (keyCabinet k)).settings := by
  constructor
  · rintro ⟨hp, hc, hcabs, hpockets⟩
    refine ⟨hp, hc, dget_of_forall Cabinet.reset_within hcabs, fun k => ?_⟩
    unfold dget
    cases hk : tget p.pockets k with
    | none => exact Pocket.reset_within _
    | some r => exact hpockets _ (mem_of_tget hk)
  · rintro ⟨hp, hc, hcabs, hpockets⟩
    refine ⟨hp, hc, fun e he => ?_, fun e he => ?_⟩
    · rw [← dget_of_mem hc he]
      exact hcabs e.1
    · have := hpockets e.1
      rwa [dget_of_mem hp he] at this

theorem keyCabinet_pocketKey {c p : Nat} (h1 : 1 ≤ p) (h2 : p ≤ 64) : keyCabinet (pocketKey c p) = c := by
  unfold keyCabinet pocketKey
  omega

theorem mem_allPockets {p : Nat} : p ∈ allPockets ↔ 1 ≤ p ∧ p ≤ 64 := by
  simp only [allPockets, List.mem_map, List.mem_range]
  exact ⟨fun ⟨_, _, _⟩ => by omega, fun h => ⟨p - 1, by omega, by omega⟩⟩

/-! ### The port -/

theorem Svp.Within.report {v : Svp} (h : v.Within) (time : HallTime) (r : Report) : (v.report time r).Within := by
  obtain ⟨hbuffer, hreports, hlost, hrest⟩ := h
  unfold Svp.report
  split_ifs with hoff hfull
  · exact ⟨hbuffer, hreports, hlost, hrest⟩
  · exact ⟨hbuffer, hreports, min_le_right _ _, hrest⟩
  · refine ⟨hbuffer, ?_, Nat.zero_le _, hrest⟩
    rw [List.length_append, List.length_singleton]
    omega

theorem Svp.Within.receive {v : Svp} (h : v.Within) (f : HostFrame) : (v.receive f).Within := by
  obtain ⟨hbuffer, hreports, hlost, h1, h2, hdiscards, hrefusals, hdrops, henable⟩ := h
  unfold Svp.receive
  split_ifs with hroom
  · refine ⟨?_, hreports, hlost, h1, h2, hdiscards, hrefusals, hdrops, henable⟩
    rw [List.length_append, List.length_singleton]
    omega
  · split
    · exact ⟨hbuffer, hreports, hlost, h1, h2, hdiscards, min_le_right _ _, hdrops, henable⟩
    · exact ⟨hbuffer, hreports, hlost, h1, h2, hdiscards, hrefusals, min_le_right _ _, henable⟩

theorem attachReply_length (stamp : Nat) (r : Reply) (b : List BufEntry) : (attachReply stamp r b).length = b.length := by
  induction b with
  | nil => rfl
  | cons e rest ih =>
    unfold attachReply
    split
    · rfl
    · rw [List.length_cons, List.length_cons, ih]

theorem Svp.Within.makeReply {v : Svp} (h : v.Within) (r : Reply) : (v.makeReply r).Within := by
  obtain ⟨hbuffer, hrest⟩ := h
  exact ⟨(attachReply_length _ _ _).trans_le hbuffer, hrest⟩

theorem Svp.Within.startTx {v : Svp} (h : v.Within) : v.startTx.Within := by
  rw [v.startTx_only]
  exact h

theorem Svp.Within.discarding {v : Svp} (h : v.Within) (rx : List Byte) :
    Svp.Within { v with rx := rx, discards := countUp v.discards } := by
  obtain ⟨hbuffer, hreports, hlost, h1, h2, -, hrest⟩ := h
  exact ⟨hbuffer, hreports, hlost, h1, h2, min_le_right _ _, hrest⟩

theorem Svp.Within.dropLate {v : Svp} (h : v.Within) (tick : Nat) : (v.dropLate tick).Within := by
  unfold Svp.dropLate
  split
  · exact h.discarding []
  · exact h

theorem Svp.Within.pump {v : Svp} (h : v.Within) (turns : Nat) : (v.pump turns).Within := by
  induction turns generalizing v with
  | zero => exact h
  | succ k ih =>
    unfold Svp.pump
    split
    · exact h
    · exact ih h
    · exact ih (h.discarding _)
    next payload size _ => exact ih (Svp.Within.receive (v := { v with rx := v.rx.drop size }) h _)

theorem Svp.Within.bytes {v : Svp} (h : v.Within) (tick : Nat) (bs : List Byte) : (v.bytes tick bs).Within := by
  unfold Svp.bytes
  split
  · exact h
  · have hv : Svp.Within { v.dropLate tick with rx := (v.dropLate tick).rx ++ bs, rxTick := tick } := h.dropLate tick
    exact hv.pump _

theorem Svp.powerOn_within (rate : Nat) : (Svp.powerOn rate).Within := by simp [Svp.Within, Svp.powerOn]

/-! ### The clock -/

theorem Path.Within.count {p : Path} (h : p.Within) (valid : Bool) : (p.count valid).Within := by
  obtain ⟨h1, h2⟩ := h
  unfold Path.count
  cases valid
  · exact ⟨Nat.zero_le _, min_le_right _ _⟩
  · exact ⟨min_le_right _ _, Nat.zero_le _⟩

theorem Path.Within.pulse {p : Path} (h : p.Within) (tol tick : Nat) : (p.pulse tol tick).Within := by
  unfold Path.pulse
  cases p.reference with
  | none => exact h
  | some r =>
    have hp (x : LastStep) : Path.Within { p with reference := some r, lastStep := some x } := h
    exact (hp (.measured (tick - r) (stepValid tol (tick - r)))).count _

theorem Path.Within.missed {p : Path} (h : p.Within) (tol tick : Nat) : (p.missed tol tick).Within :=
  Path.Within.count (p := { p with lastStep := _ }) h false

theorem HallTime.advance_lt {t : HallTime} (h : t.sec < 4294967296) :
    t.advance.sec < 4294967296 ∧ t.advance.ms < 1000 := by
  unfold HallTime.advance
  split
  · exact ⟨h, by assumption⟩
  · exact ⟨Nat.mod_lt _ (by decide), Nat.zero_lt_succ _⟩

theorem HallTime.rounded_lt {t : HallTime} (h : t.sec < 4294967296) : t.rounded.sec < 4294967296 ∧ t.rounded.ms < 1000 := by
  unfold HallTime.rounded
  split
  · exact ⟨h, Nat.zero_lt_succ _⟩
  · exact ⟨Nat.mod_lt _ (by decide), Nat.zero_lt_succ _⟩

theorem Hck.Within.elapse {k : Hck} (h : k.Within) : k.elapse.Within := by
  obtain ⟨hsec, -, hrest⟩ := h
  exact ⟨(HallTime.advance_lt hsec).1, (HallTime.advance_lt hsec).2, hrest⟩

theorem Hck.Within.selected {k : Hck} (h : k.Within) : k.selected.Within := by
  unfold Hck.selected
  dsimp only
  split <;> exact h

theorem Hck.Within.afterReset {k : Hck} (h : k.Within) : k.afterReset.Within := by
  obtain ⟨hsec, hms, -, hrest⟩ := h
  exact ⟨hsec, hms, by simp [Hck.afterReset], hrest⟩

/-! ### Links -/

theorem length_dropFirst {p : α → Bool} {xs : List α} (h : xs.any p = true) : (dropFirst p xs).length + 1 = xs.length := by
  induction xs with
  | nil => cases h
  | cons x rest ih =>
    unfold dropFirst
    split
    next => rfl
    next hx => rw [List.length_cons, List.length_cons, ih (by simpa [hx] using h)]

theorem Link.reset_within : Link.reset.Within :=
  ⟨Nat.zero_le _, Nat.zero_le _, Nat.zero_le _, Nat.zero_le _, Nat.zero_le _, le_rfl, Nat.le_add_left 1 254, fun _ h => nomatch h⟩

theorem Link.Within.stopped {l : Link} (h : l.Within) : l.stopped.Within := by
  obtain ⟨-, -, hrest⟩ := id h
  unfold Link.stopped
  split
  · exact ⟨Nat.zero_le _, Nat.zero_le _, hrest⟩
  · exact h

theorem Link.Within.unframed {l : Link} (h : l.Within) : l.unframed.Within := by
  obtain ⟨hreturns, houtstanding, hdensity, happlied, -, h1, h2, -⟩ := h
  exact ⟨hreturns, houtstanding, hdensity, happlied, Nat.zero_le _, h1, h2, by simp [Link.unframed]⟩

theorem Link.Within.addVerdict {l : Link} (h : l.Within) (v : ReturnVerdict) : (l.addVerdict v).Within := by
  obtain ⟨hreturns, hrest⟩ := h
  refine ⟨?_, hrest⟩
  unfold Link.addVerdict
  dsimp only
  rw [List.length_append, List.length_singleton]
  split_ifs with hroom hspare
  · omega
  · have := length_dropFirst hspare
    omega
  · rw [List.length_drop]
    omega

theorem Link.Within.withDensity {l : Link} (h : l.Within) {d : List Bool} (hd : d.length ≤ 256) :
    Link.Within { l with density := d } := by
  obtain ⟨hreturns, houtstanding, -, hrest⟩ := h
  exact ⟨hreturns, houtstanding, hd, hrest⟩

theorem Link.Within.addDensity {l : Link} (h : l.Within) (good : Bool) : (l.addDensity good).Within := by
  have hd (d : List Bool) : (d.drop (d.length - 256)).length ≤ 256 := by
    rw [List.length_drop]
    omega
  unfold Link.addDensity
  exact h.withDensity (hd _)

theorem Link.Within.acquired {l : Link} (h : l.Within) (ok : Bool) : (l.acquired ok).Within := by
  obtain ⟨hreturns, houtstanding, hdensity, happlied, -, hrest⟩ := h
  exact ⟨hreturns, houtstanding, hdensity, happlied, min_le_right _ _, hrest⟩

theorem Link.Within.seeing {l : Link} (h : l.Within) (b : List Byte) : (l.seeing b).Within := by
  unfold Link.seeing
  split <;> exact h

theorem Link.Within.judgeHeld {l : Link} (h : l.Within) (k : HeldBlock) (ok : Bool) : (l.judgeHeld k ok).Within := by
  unfold Link.judgeHeld
  dsimp only
  split
  · exact (h.acquired ok).addVerdict _
  · exact (h.addDensity ok).addVerdict _

theorem Link.Within.judgeBroken {l : Link} (h : l.Within) (b : List Byte) (position : Nat) : (l.judgeBroken b position).Within := by
  unfold Link.judgeBroken
  split
  · exact (h.acquired false).addVerdict _
  · exact (h.addDensity false).addVerdict _
  · exact h.addDensity false

/-- R134: the train positions are 0 to 7. -/
theorem Link.Within.expecting {l : Link} (h : l.Within) (e : Option Nat) (he : ∀ x ∈ e, x < 8) :
    Link.Within { l with expected := e } := by
  obtain ⟨hreturns, houtstanding, hdensity, happlied, hcount, h1, h2, -⟩ := h
  exact ⟨hreturns, houtstanding, hdensity, happlied, hcount, h1, h2, he⟩

theorem Link.Within.withOutstanding {l : Link} (h : l.Within) {xs : List Outstanding} (hx : xs.length ≤ 4) :
    Link.Within { l with outstanding := xs } := by
  obtain ⟨hreturns, -, hrest⟩ := h
  exact ⟨hreturns, hx, hrest⟩

end Sys2Proof.Machine

/-! O57, the handoff queue of a station: every change of it keeps its order (R158, R159, R160). -/

namespace Sys2Proof.Machine

/-! ### Kinds -/

/-- Two transactions serve one instance with TOOL_DATA, or one type with notices: of those at most one is PENDING (R159). -/
def TxnKind.Rivals (a b : TxnKind) : Prop :=
  (∃ tool, a.isDataOf tool = true ∧ b.isDataOf tool = true) ∨ (∃ type, a.isNoticeOf type = true ∧ b.isNoticeOf type = true)

theorem TxnKind.isDataOf_iff {k : TxnKind} {tool : Nat} : k.isDataOf tool = true ↔ ∃ p g, k = .toolData tool p g := by
  cases k <;> simp [TxnKind.isDataOf]

theorem TxnKind.isNoticeOf_iff {k : TxnKind} {type : Nat} : k.isNoticeOf type = true ↔ ∃ n, k = .notice n type := by
  cases k <;> simp [TxnKind.isNoticeOf]

theorem TxnKind.Rivals.symm {a b : TxnKind} (h : a.Rivals b) : b.Rivals a := by
  rcases h with ⟨x, ha, hb⟩ | ⟨x, ha, hb⟩
  · exact .inl ⟨x, hb, ha⟩
  · exact .inr ⟨x, hb, ha⟩

/-- A rival of a TOOL_DATA is one of the same instance. -/
theorem TxnKind.Rivals.data {b : TxnKind} {tool p g : Nat} (h : TxnKind.Rivals (.toolData tool p g) b) : b.isDataOf tool = true := by
  rcases h with ⟨x, ha, hb⟩ | ⟨x, ha, -⟩
  · simp only [TxnKind.isDataOf, beq_iff_eq] at ha
    rw [ha]
    exact hb
  · cases ha

/-- A rival of a notice is one of the same type. -/
theorem TxnKind.Rivals.notice {b : TxnKind} {k : NoticeKind} {type : Nat} (h : TxnKind.Rivals (.notice k type) b) :
    b.isNoticeOf type = true := by
  rcases h with ⟨x, ha, -⟩ | ⟨x, ha, hb⟩
  · cases ha
  · simp only [TxnKind.isNoticeOf, beq_iff_eq] at ha
    rw [ha]
    exact hb

theorem TxnKind.not_rivals_lifeUpdate {b : TxnKind} {tool p : Nat} {k : Bool} : ¬ TxnKind.Rivals (.lifeUpdate tool p k) b := by
  rintro (⟨x, ha, -⟩ | ⟨x, ha, -⟩) <;> cases ha

theorem TxnKind.Rivals.trans {a b c : TxnKind} (h : a.Rivals b) (k : b.Rivals c) : a.Rivals c := by
  rcases h with ⟨x, ha, hb⟩ | ⟨x, ha, hb⟩
  · obtain ⟨p, g, rfl⟩ := TxnKind.isDataOf_iff.1 hb
    exact .inl ⟨x, ha, k.data⟩
  · obtain ⟨n, rfl⟩ := TxnKind.isNoticeOf_iff.1 hb
    exact .inr ⟨x, ha, k.notice⟩

theorem TxnKind.Rivals.firstClass {a b : TxnKind} (h : a.Rivals b) : a.firstClass = b.firstClass := by
  rcases h with ⟨x, ha, hb⟩ | ⟨x, ha, hb⟩
  · obtain ⟨p, g, rfl⟩ := TxnKind.isDataOf_iff.1 ha
    obtain ⟨p', g', rfl⟩ := TxnKind.isDataOf_iff.1 hb
    rfl
  · obtain ⟨n, rfl⟩ := TxnKind.isNoticeOf_iff.1 ha
    obtain ⟨n', rfl⟩ := TxnKind.isNoticeOf_iff.1 hb
    rfl

/-! ### Queues -/

/-- What `Station.Queued` says of a station, said of its queue alone. -/
def QueueKept (q : List Txn) (entries : Nat) : Prop := Station.Queued { Station.reset with queue := q } entries

theorem Station.queued_iff (st : Station) (entries : Nat) : st.Queued entries ↔ QueueKept st.queue entries := Iff.rfl

theorem QueueKept.nil (entries : Nat) : QueueKept [] entries := by simp [QueueKept, Station.Queued]

theorem QueueKept.mono {q : List Txn} {k l : Nat} (h : QueueKept q k) (hkl : k ≤ l) : QueueKept q l := Station.Queued.mono h hkl

theorem QueueKept.filter {q : List Txn} {entries : Nat} (h : QueueKept q entries) (p : Txn → Bool) :
    QueueKept (q.filter p) entries := by
  obtain ⟨hlen, hids, hmade, hclasses, hpending, hflying⟩ := h
  have hmem {x : Txn} (hx : x ∈ q.filter p) : x ∈ q := List.mem_of_mem_filter hx
  exact ⟨(List.length_filter_le _ _).trans hlen, (List.Sublist.map _ List.filter_sublist).nodup hids, fun x hx => hmade x (hmem hx),
    hclasses.sublist List.filter_sublist, fun a ha b hb => hpending a (hmem ha) b (hmem hb),
    fun a ha b hb => hflying a (hmem ha) b (hmem hb)⟩

/-- R158: changes that leave every transaction its number, kind and state keep the queue in its order. -/
theorem QueueKept.map {q : List Txn} {entries : Nat} (h : QueueKept q entries) {f : Txn → Txn}
    (hf : ∀ x ∈ q, (f x).id = x.id ∧ (f x).kind = x.kind ∧ (f x).state = x.state) : QueueKept (q.map f) entries := by
  obtain ⟨hlen, hids, hmade, hclasses, hpending, hflying⟩ := h
  refine ⟨by simpa using hlen, ?_, ?_, ?_, ?_, ?_⟩
  · rw [List.map_map, List.map_congr_left (g := fun x => x.id) (by exact fun x hx => (hf x hx).1)]
    exact hids
  · rintro _ hy
    obtain ⟨x, hx, rfl⟩ := List.mem_map.1 hy
    exact (hf x hx).1 ▸ hmade x hx
  · refine List.pairwise_map.2 (hclasses.imp_of_mem fun {a b} ha hb hab => ?_)
    rw [(hf a ha).2.1, (hf b hb).2.1]
    exact hab
  · rintro _ ha _ hb
    obtain ⟨x, hx, rfl⟩ := List.mem_map.1 ha
    obtain ⟨y, hy, rfl⟩ := List.mem_map.1 hb
    rw [(hf x hx).1, (hf y hy).1, (hf x hx).2.1, (hf y hy).2.1, (hf x hx).2.2, (hf y hy).2.2]
    exact hpending x hx y hy
  · rintro _ ha _ hb
    obtain ⟨x, hx, rfl⟩ := List.mem_map.1 ha
    obtain ⟨y, hy, rfl⟩ := List.mem_map.1 hb
    rw [(hf x hx).1, (hf y hy).1, (hf x hx).2.2, (hf y hy).2.2]
    exact hflying x hx y hy

/-! ### Placing -/

theorem perm_put (t : Txn) (c : List Txn) (p : Txn → Bool) : (c.takeWhile p ++ [t] ++ c.dropWhile p).Perm (t :: c) := by
  have h : (c.takeWhile p ++ t :: c.dropWhile p).Perm (t :: (c.takeWhile p ++ c.dropWhile p)) := List.perm_middle
  rwa [List.takeWhile_append_dropWhile, List.append_cons] at h

/-- R159: placing a transaction adds it and moves the others at most. -/
theorem placeTxn_perm (q : List Txn) (t : Txn) (behind : Txn → Bool) : (placeTxn q t behind).Perm (t :: q) := by
  have hq : (q.filter (fun x => x.kind.firstClass) ++ q.filter (fun x => !x.kind.firstClass)).Perm q :=
    List.filter_append_perm _ q
  unfold placeTxn
  dsimp only
  split
  · exact ((perm_put t _ _).append_right _).trans (hq.cons t)
  · exact ((perm_put t _ _).append_left _).trans (List.perm_middle.trans (hq.cons t))

/-- R159: placing a transaction puts the first class ahead of the second. -/
theorem placeTxn_classes (q : List Txn) (t : Txn) (behind : Txn → Bool) :
    (placeTxn q t behind).Pairwise (fun a b => b.kind.firstClass = true → a.kind.firstClass = true) := by
  have hclasses {xs ys : List Txn} (hx : ∀ x ∈ xs, x.kind.firstClass = true) (hy : ∀ y ∈ ys, y.kind.firstClass = false) :
      (xs ++ ys).Pairwise (fun a b => b.kind.firstClass = true → a.kind.firstClass = true) := by
    refine List.pairwise_append.2 ⟨?_, ?_, fun a ha _ _ _ => hx a ha⟩
    · exact List.pairwise_of_forall_mem_list fun a ha _ _ _ => hx a ha
    · exact List.pairwise_of_forall_mem_list fun _ _ b hb hf => absurd hf (by simp [hy b hb])
  unfold placeTxn
  dsimp only
  split
  next ht =>
    refine hclasses (fun x hx => ?_) (fun y hy => by simpa using List.of_mem_filter hy)
    rcases List.mem_cons.1 ((perm_put t _ _).mem_iff.1 hx) with rfl | hx
    · exact ht
    · exact (List.mem_filter.1 hx).2
  next ht =>
    refine hclasses (fun x hx => (List.mem_filter.1 hx).2) (fun y hy => ?_)
    rcases List.mem_cons.1 ((perm_put t _ _).mem_iff.1 hy) with rfl | hy
    · simpa using ht
    · simpa using List.of_mem_filter hy

/-- R159: a PENDING transaction without a PENDING rival, placed where there is room, keeps the queue in its order. -/
theorem QueueKept.place {q : List Txn} {k entries : Nat} {t : Txn} (h : QueueKept q k) (hkl : k ≤ entries) (hroom : q.length < 16)
    (hid : t.id < entries) (hnew : ∀ x ∈ q, x.id ≠ t.id) (hstate : t.state = .pending)
    (halone : ∀ x ∈ q, x.state = .pending → ¬ t.kind.Rivals x.kind) (behind : Txn → Bool) :
    QueueKept (placeTxn q t behind) entries := by
  obtain ⟨-, hids, hmade, -, hpending, hflying⟩ := h
  have hperm := placeTxn_perm q t behind
  have hmem {x : Txn} (hx : x ∈ placeTxn q t behind) : x = t ∨ x ∈ q := List.mem_cons.1 (hperm.mem_iff.1 hx)
  refine ⟨?_, ?_, ?_, placeTxn_classes q t behind, ?_, ?_⟩
  · exact hperm.length_eq.trans_le hroom
  · refine (hperm.map _).nodup_iff.2 (List.nodup_cons.2 ⟨?_, hids⟩)
    rintro ht
    obtain ⟨x, hx, he⟩ := List.mem_map.1 ht
    exact hnew x hx he
  · intro x hx
    rcases hmem hx with rfl | hx
    · exact hid
    · exact (hmade x hx).trans_le hkl
  · intro a ha b hb hpa hpb hrivals
    rcases hmem ha with rfl | hqa <;> rcases hmem hb with rfl | hqb
    · rfl
    · exact absurd hrivals (halone b hqb hpb)
    · exact absurd (TxnKind.Rivals.symm hrivals) (halone a hqa hpa)
    · exact hpending a hqa b hqb hpa hpb hrivals
  · intro a ha b hb hfa hfb
    rcases hmem ha with rfl | ha
    · rw [hstate] at hfa
      cases hfa
    · rcases hmem hb with rfl | hb
      · rw [hstate] at hfb
        cases hfb
      · exact hflying a ha b hb hfa hfb

/-! ### Superseding -/

/-- R159: the queue once a transaction has taken the position of one that has left. -/
theorem superseded_queue {q : List Txn} {old t : Txn} (hne : t.id ≠ old.id) :
    ((q.map (fun x => if x.id = old.id then [t, x] else [x])).flatten).filter (fun x => decide (x.id ≠ old.id)) =
      q.map (fun x => if x.id = old.id then t else x) := by
  induction q with
  | nil => rfl
  | cons x q ih =>
    rw [List.map_cons, List.flatten_cons, List.filter_append, ih, List.map_cons]
    by_cases hx : x.id = old.id <;> simp [hx, hne]

/-- R159: a new PENDING transaction in the place of a PENDING rival keeps the queue in its order. -/
theorem QueueKept.replace {q : List Txn} {entries : Nat} {old t : Txn} (h : QueueKept q entries) (hold : old ∈ q)
    (hpending : old.state = .pending) (hid : t.id = entries) (hstate : t.state = .pending) (hrival : old.kind.Rivals t.kind) :
    QueueKept (q.map (fun x => if x.id = old.id then t else x)) (entries + 1) := by
  have hself {x : Txn} (hx : x ∈ q) (he : x.id = old.id) : x = old := Station.Queued.eq_of_id h hold hx he
  obtain ⟨hlen, hids, hmade, hclasses, halone, hflying⟩ := id h
  have hkind {x : Txn} (hx : x ∈ q) : (if x.id = old.id then t else x).kind.firstClass = x.kind.firstClass := by
    split
    next he => rw [hself hx he, hrival.firstClass]
    next => rfl
  have hnew {x : Txn} (hx : x ∈ q) : x.id ≠ t.id := hid ▸ (hmade x hx).ne
  have hclash {x : Txn} (hx : x ∈ q) (hpx : x.state = .pending) (hr : TxnKind.Rivals x.kind t.kind) : x.id = old.id :=
    halone x hx old hold hpx hpending (hr.trans hrival.symm)
  refine ⟨by simpa using hlen, ?_, ?_, ?_, ?_, ?_⟩
  · rw [List.map_map]
    refine (List.nodup_map_iff_inj_on (List.Nodup.of_map _ hids)).2 fun x hx y hy hxy => ?_
    simp only [Function.comp] at hxy
    split at hxy <;> split at hxy
    next hxe hye => exact (hself hx hxe).trans (hself hy hye).symm
    next => exact absurd hxy.symm (hnew hy)
    next => exact absurd hxy (hnew hx)
    next => exact List.inj_on_of_nodup_map hids hx hy hxy
  · rintro _ hy
    obtain ⟨x, hx, rfl⟩ := List.mem_map.1 hy
    split
    · exact hid ▸ Nat.lt_succ_self _
    · exact (hmade x hx).trans (Nat.lt_succ_self _)
  · refine List.pairwise_map.2 (hclasses.imp_of_mem fun {a b} ha hb hab => ?_)
    rw [hkind ha, hkind hb]
    exact hab
  · rintro _ ha _ hb
    obtain ⟨x, hx, rfl⟩ := List.mem_map.1 ha
    obtain ⟨y, hy, rfl⟩ := List.mem_map.1 hb
    split <;> split <;> intro hpa hpb hr
    next => rfl
    next hye => exact absurd (hclash hy hpb (TxnKind.Rivals.symm hr)) hye
    next hxe _ => exact absurd (hclash hx hpa hr) hxe
    next => exact halone x hx y hy hpa hpb hr
  · rintro _ ha _ hb
    obtain ⟨x, hx, rfl⟩ := List.mem_map.1 ha
    obtain ⟨y, hy, rfl⟩ := List.mem_map.1 hb
    split <;> split <;> intro hfa hfb
    next => rfl
    next =>
      rw [hstate] at hfa
      cases hfa
    next =>
      rw [hstate] at hfb
      cases hfb
    next => exact hflying x hx y hy hfa hfb

end Sys2Proof.Machine

/-! O57: the capacities of the part through each update of one record, and through the operations of custody, put-away, requests and
handoff. -/

namespace Sys2Proof.Machine

/-! ### What the capacities say of one record -/

namespace State.WithinCapacities

variable {s : State}

theorem svp (h : s.WithinCapacities) : s.svp.Within := h.1

theorem hck (h : s.WithinCapacities) : s.hck.Within := h.2.1

theorem psc (h : s.WithinCapacities) : s.psc.Within := h.2.2.1

theorem head (h : s.WithinCapacities) (k : HeadId) : (s.head k).Within := h.2.2.2.1 k

theorem link (h : s.WithinCapacities) (n : Nat) : (s.link n).Within := h.2.2.2.2.1 n

theorem hoe (h : s.WithinCapacities) : s.hoe.Within := h.2.2.2.2.2.1

theorem queue (h : s.WithinCapacities) (n : Nat) : QueueKept (s.station n).queue s.hoe.entries := h.2.2.2.2.2.2 n

theorem cab (h : s.WithinCapacities) (c : Nat) : (s.cab c).Within := ((Psc.within_iff _).1 h.psc).2.2.1 c

theorem pocket (h : s.WithinCapacities) (c p : Nat) : (s.pocket c p).Within (s.cab (keyCabinet (pocketKey c p))).settings :=
  ((Psc.within_iff _).1 h.psc).2.2.2 (pocketKey c p)

theorem station (h : s.WithinCapacities) (n : Nat) : (s.station n).Within :=
  dget_of_forall (P := Station.Within) ⟨by decide, by decide, by decide, by decide, by decide, by decide⟩ h.hoe.1 n

/-! ### Updates of one record -/

theorem foldl {α : Type} {f : State → α → State} {xs : List α} (k : ∀ (u : State) (x : α), u.WithinCapacities → (f u x).WithinCapacities)
    (h : s.WithinCapacities) : (xs.foldl f s).WithinCapacities := by
  induction xs generalizing s with
  | nil => exact h
  | cons x xs ih => exact ih (k s x h)

theorem setSvp (h : s.WithinCapacities) {v : Svp} (hv : v.Within) : (s.setSvp v).WithinCapacities := ⟨hv, h.2⟩

theorem report (h : s.WithinCapacities) (r : Report) : (s.report r).WithinCapacities := h.setSvp (h.svp.report _ r)

theorem setHck (h : s.WithinCapacities) {k : Hck} (hk : k.Within) : (s.setHck k).WithinCapacities := ⟨h.1, hk, h.2.2⟩

theorem setTool (h : s.WithinCapacities) (n : Nat) (r : InstRec) : (s.setTool n r).WithinCapacities := h

theorem delTool (h : s.WithinCapacities) (n : Nat) : (s.delTool n).WithinCapacities := h

theorem setType (h : s.WithinCapacities) (n : Nat) (r : TypeRec) : (s.setType n r).WithinCapacities := h

theorem setIsc (h : s.WithinCapacities) (r : Isc) : (s.setIsc r).WithinCapacities := h

theorem setGroup (h : s.WithinCapacities) (g : Nat) (ms : List Nat) : (s.setGroup g ms).WithinCapacities := h

theorem setPsc (h : s.WithinCapacities) {p : Psc} (hp : p.Within) : WithinCapacities { s with psc := p } :=
  ⟨h.1, h.2.1, hp, h.2.2.2⟩

theorem setPocket (h : s.WithinCapacities) (c p : Nat) {r : Pocket} (hr : r.Within (s.cab (keyCabinet (pocketKey c p))).settings) :
    (s.setPocket c p r).WithinCapacities := by
  obtain ⟨hpockets, hcabinets, hcabs, hall⟩ := (Psc.within_iff _).1 h.psc
  refine h.setPsc ((Psc.within_iff _).2 ⟨tableSorted_dset _ r hpockets, hcabinets, hcabs, fun k => ?_⟩)
  rw [dget_dset]
  split
  next hk => exact hk ▸ hr
  next => exact hall k

/-- A pocket is rewritten with its counts as they were. -/
theorem rewritePocket (h : s.WithinCapacities) (c p : Nat) {r : Pocket}
    (hr : (s.pocket c p).SameCounts r := by exact ⟨rfl, rfl, rfl, rfl, le_rfl⟩) :
    (s.setPocket c p r).WithinCapacities := h.setPocket c p (hr.within (h.pocket c p))

/-- A cabinet is rewritten with its settings as they were. -/
theorem setCab (h : s.WithinCapacities) (c : Nat) {r : Cabinet} (hr : r.Within) (hsame : r.settings = (s.cab c).settings) :
    (s.setCab c r).WithinCapacities := by
  obtain ⟨hpockets, hcabinets, hcabs, hall⟩ := (Psc.within_iff _).1 h.psc
  refine h.setPsc ((Psc.within_iff _).2 ⟨hpockets, tableSorted_dset _ r hcabinets, fun d => ?_, fun k => ?_⟩)
  · rw [dget_dset]
    split
    next => exact hr
    next => exact hcabs d
  · rw [dget_dset]
    split
    next hk =>
      rw [hsame]
      exact hk ▸ hall k
    next => exact hall k

theorem setHead (h : s.WithinCapacities) (k : HeadId) {r : Head} (hr : r.Within) : (s.setHead k r).WithinCapacities := by
  refine ⟨?_, ?_, ?_, fun j => ?_, ?_⟩
  · exact State.setHead_svp s k r ▸ h.svp
  · exact State.setHead_hck s k r ▸ h.hck
  · exact State.setHead_psc s k r ▸ h.psc
  · rw [State.head_setHead]
    split
    · exact hr
    · exact h.head j
  · cases k <;> exact h.2.2.2.2

theorem setLink (h : s.WithinCapacities) (n : Nat) {r : Link} (hr : r.Within) : (s.setLink n r).WithinCapacities := by
  refine ⟨h.1, h.2.1, h.2.2.1, h.2.2.2.1, fun m => ?_, h.2.2.2.2.2⟩
  rw [State.link_setLink]
  split
  · exact hr
  · exact h.link m

theorem setStation (h : s.WithinCapacities) (n : Nat) {r : Station} (hr : r.Within) (hq : QueueKept r.queue s.hoe.entries) :
    (s.setStation n r).WithinCapacities := by
  obtain ⟨hstations, hrest⟩ := h.hoe
  refine ⟨h.1, h.2.1, h.2.2.1, h.2.2.2.1, h.2.2.2.2.1, ⟨fun e he => ?_, hrest⟩, fun m => ?_⟩
  · rcases mem_dset he with rfl | he
    · exact hr
    · exact hstations e he
  · rw [State.station_setStation]
    split
    · exact hq
    · exact h.queue m

/-- A station is rewritten in its magazine alone. -/
theorem setMagazine (h : s.WithinCapacities) (n : Nat) {m : Table MagEntry} (hm : tableSorted m = true) :
    (s.setStation n { s.station n with magazine := m }).WithinCapacities := by
  obtain ⟨hqueue, hreplies, hlow, hhigh, -, hunacked⟩ := h.station n
  exact h.setStation n ⟨hqueue, hreplies, hlow, hhigh, hm, hunacked⟩ (h.queue n)

theorem setUnacked (h : s.WithinCapacities) (n : Nat) {u : Table HoldEntry} (hu : tableSorted u = true) :
    (s.setUnacked n u).WithinCapacities := by
  obtain ⟨hqueue, hreplies, hlow, hhigh, hmagazine, -⟩ := h.station n
  exact h.setStation n ⟨hqueue, hreplies, hlow, hhigh, hmagazine, hu⟩ (h.queue n)

theorem setTxns (h : s.WithinCapacities) (n : Nat) {q : List Txn} (hq : QueueKept q s.hoe.entries) :
    (s.setTxns n q).WithinCapacities := h.setStation n ⟨hq.1, (h.station n).2⟩ hq

theorem setBroadcasts (h : s.WithinCapacities) {bs : List (Option Broadcast)} (hb : bs.length = 4) :
    (s.setBroadcasts bs).WithinCapacities := by
  obtain ⟨hstations, -, hrest⟩ := h.hoe
  exact ⟨h.1, h.2.1, h.2.2.1, h.2.2.2.1, h.2.2.2.2.1, ⟨hstations, hb, hrest⟩, h.2.2.2.2.2.2⟩

theorem countTxn (h : s.WithinCapacities) : s.countTxn.WithinCapacities := by
  obtain ⟨hstations, hbroadcasts, -, -, hrest⟩ := h.hoe
  have hnext := cyclicNext_bounds (top := 65535) (by omega) s.hoe.nextTxn
  exact ⟨h.1, h.2.1, h.2.2.1, h.2.2.2.1, h.2.2.2.2.1, ⟨hstations, hbroadcasts, hnext.1, hnext.2, hrest⟩,
    fun n => (h.queue n).mono (Nat.le_succ _)⟩

theorem takeHandle (h : s.WithinCapacities) : s.takeHandle.WithinCapacities := by
  obtain ⟨hbuffer, hreports, hlost, -, -, hrest⟩ := h.svp
  have hnext := cyclicNext_bounds (top := 65535) (by omega) s.svp.handle
  exact h.setSvp ⟨hbuffer, hreports, hlost, hnext.1, hnext.2, hrest⟩

theorem modTool (h : s.WithinCapacities) (n : Nat) (f : InstRec → InstRec) : (s.modTool n f).WithinCapacities := by
  unfold State.modTool
  split <;> exact h

/-! ### Custody -/

theorem transition (h : s.WithinCapacities) (n : Nat) (r : InstRec) (m : Move) (also : InstRec → InstRec) :
    (s.transition n r m also).WithinCapacities := (h.setTool n _).report _

theorem move (h : s.WithinCapacities) (n : Nat) (r : InstRec) (m : Move) : (s.move n r m).WithinCapacities := h.transition n r m id

theorem settleMarkAt (h : s.WithinCapacities) (n key : Nat) : (s.settleMarkAt n key).WithinCapacities := by
  unfold State.settleMarkAt
  dsimp only
  split
  · split
    · exact h.rewritePocket _ _
    · exact (h.rewritePocket _ _).report _
  · exact h

theorem settleMarks (h : s.WithinCapacities) (n : Nat) : (s.settleMarks n).WithinCapacities :=
  h.foldl fun _ key hu => hu.settleMarkAt n key

theorem dropMagazine (h : s.WithinCapacities) (k n : Nat) : (s.dropMagazine k n).WithinCapacities := by
  obtain ⟨-, -, -, -, hmagazine, -⟩ := h.station k
  exact h.setMagazine k (tableSorted_filter _ hmagazine)

/-! ### Put-away -/

theorem assign (h : s.WithinCapacities) (n key : Nat) (z : Zone) : (s.assign n key z).WithinCapacities :=
  (h.rewritePocket _ _).setIsc _

theorem tryPutaway (h : s.WithinCapacities) (n : Nat) : (s.tryPutaway n).WithinCapacities := by
  unfold State.tryPutaway
  split
  · split
    · exact h
    · dsimp only
      split
      · exact h.assign n _ _
      · split
        · exact h
        · exact (h.setIsc _).report _
  · exact h

theorem assignIfFree (h : s.WithinCapacities) (n : Nat) : (s.assignIfFree n).WithinCapacities := by
  unfold State.assignIfFree
  split
  · split
    · exact h
    · dsimp only
      split
      · exact h.assign n _ _
      · exact h
  · exact h

theorem freeNotice (h : s.WithinCapacities) : s.freeNotice.WithinCapacities := h.foldl fun _ n hu => hu.assignIfFree n

theorem noticeIfFree (h : s.WithinCapacities) (c p : Nat) : (s.noticeIfFree c p).WithinCapacities := by
  unfold State.noticeIfFree
  split
  · exact h.freeNotice
  · exact h

theorem vacateAssigned (h : s.WithinCapacities) (a : Assignment) : (s.vacateAssigned a).WithinCapacities := by
  unfold State.vacateAssigned
  dsimp only
  split
  · exact (h.rewritePocket _ _).noticeIfFree _ _
  · exact h

theorem forgetAssignment (h : s.WithinCapacities) (n : Nat) : (s.forgetAssignment n).WithinCapacities := h

theorem dropAssignment (h : s.WithinCapacities) (n : Nat) : (s.dropAssignment n).WithinCapacities := by
  unfold State.dropAssignment
  split
  · exact (h.forgetAssignment n).vacateAssigned _
  · exact h

theorem leavePutaway (h : s.WithinCapacities) (n : Nat) : (s.leavePutaway n).WithinCapacities := (h.setIsc _).dropAssignment n

/-! ### Requests -/

theorem setQueue (h : s.WithinCapacities) (q : List Request) : (s.setQueue q).WithinCapacities := h

theorem endRequest (h : s.WithinCapacities) (r : Request) (state : ReqState) (cause : ReqCause) :
    (s.endRequest r state cause).WithinCapacities := (h.report _).setQueue _

theorem changeRequest (h : s.WithinCapacities) (r : Request) (cause : ReqCause) : (s.changeRequest r cause).WithinCapacities :=
  (h.setQueue _).report _

theorem enterWaiting (h : s.WithinCapacities) (r : Request) (cause : ReqCause) : (s.enterWaiting r cause).WithinCapacities := by
  have hchanged := h.changeRequest { r with state := .waitingStock } cause
  unfold State.enterWaiting
  dsimp only
  split
  · split
    · exact hchanged
    · exact hchanged.report _
  · exact hchanged

theorem reserve (h : s.WithinCapacities) (r : Request) (n : Nat) (i : InstRec) : (s.reserve r n i).WithinCapacities := by
  have hmoved := (h.move n i { cause := .reserve, custody := .reserved, loc := i.loc, link := some r.number }).setQueue
  unfold State.reserve
  dsimp only
  split
  · exact ((hmoved _).rewritePocket _ _).report _
  · exact ((hmoved _).leavePutaway n).report _

theorem allocateFor (h : s.WithinCapacities) (number : Nat) : (s.allocateFor number).WithinCapacities := by
  unfold State.allocateFor
  split
  · exact h
  · split
    · split
      · exact h.reserve _ _ _
      · split
        · exact h.enterWaiting _ _
        · exact h
    · exact h

theorem allocationPass (h : s.WithinCapacities) : s.allocationPass.WithinCapacities := by
  unfold State.allocationPass
  split
  · exact h.foldl fun _ n hu => hu.allocateFor n
  · exact h

theorem announce (h : s.WithinCapacities) (n : Nat) : (s.announce n).WithinCapacities := by
  unfold State.announce
  split
  · exact h
  · split
    · exact h.allocationPass
    · exact h.allocationPass.tryPutaway n
    · exact h.tryPutaway n

theorem releaseTool (h : s.WithinCapacities) (n : Nat) (redirected : Bool) : (s.releaseTool n redirected).WithinCapacities := by
  unfold State.releaseTool
  split
  · exact h
  next i _ =>
    have hreleased (j : InstRec) (r : Report) : ((s.setTool n j).report r).WithinCapacities := (h.setTool n j).report r
    have hback {u : State} (hu : u.WithinCapacities) (c p : Nat) :
        (if (u.pocket c p).state = .expectTake then u.setPocket c p { u.pocket c p with state := .occupied }
          else u).WithinCapacities := by
      split
      · exact hu.rewritePocket c p
      · exact hu
    cases redirected <;> cases i.loc
    case false.pocket c p => exact hback (hreleased _ _) c p
    case true.pocket c p => exact hback (h.move n i _) c p
    all_goals exact h.report _

theorem afterRelease (h : s.WithinCapacities) (n : Nat) : (s.afterRelease n).WithinCapacities := h.allocationPass.tryPutaway n

theorem releaseToQueue (h : s.WithinCapacities) (n : Nat) (redirected : Bool) : (s.releaseToQueue n redirected).WithinCapacities := by
  unfold State.releaseToQueue
  split
  · exact h.releaseTool n redirected
  · exact (h.releaseTool n redirected).changeRequest _ _

theorem pickTimesOut (h : s.WithinCapacities) (r : Request) (n : Nat) : (s.pickTimesOut r n).WithinCapacities := by
  have hreleased := h.releaseTool n true
  unfold State.pickTimesOut
  dsimp only
  split
  · exact (hreleased.endRequest _ _ _).afterRelease n
  · split
    · exact ((hreleased.changeRequest _ _).setIsc _).afterRelease n
    · exact (hreleased.changeRequest _ _).afterRelease n

theorem firePick (h : s.WithinCapacities) (number : Nat) : (s.firePick number).WithinCapacities := by
  unfold State.firePick
  split
  · split
    · split
      · exact h.pickTimesOut _ _
      · exact h
    · exact h
  · exact h

theorem enterAs (h : s.WithinCapacities) (q : NewRequest) (number : Nat) : (s.enterAs q number).WithinCapacities :=
  (h.setIsc _).report _

theorem evict (h : s.WithinCapacities) (r : Request) : (s.evict r).WithinCapacities := by
  unfold State.evict
  dsimp only
  split
  · exact (h.releaseTool _ true).endRequest _ _ _
  · exact h.endRequest _ _ _

theorem enter (h : s.WithinCapacities) (q : NewRequest) : (s.enter q).1.WithinCapacities := by
  unfold State.enter
  split
  · exact (h.enterAs q _).allocationPass
  · split
    next v _ _ =>
      have hsettled (u : State) (hu : u.WithinCapacities) :
          (match v.state, v.tool with
            | .reserved, some n => u.afterRelease n
            | _, _ => u.allocationPass).WithinCapacities := by
        split
        · exact hu.afterRelease _
        · exact hu.allocationPass
      dsimp only
      split
      · exact hsettled _ ((h.evict v).enterAs q _)
      · exact hsettled _ (h.evict v)
    · exact h

theorem merge (h : s.WithinCapacities) (r : Request) (q : NewRequest) : (s.merge r q).WithinCapacities := by
  have hmerged (x y : Request) : ((s.replaceRequest x).report (.requestState y .merged)).WithinCapacities := (h.setQueue _).report _
  unfold State.merge
  dsimp only
  split
  · split
    · exact ((hmerged _ _).releaseToQueue _ true).afterRelease _
    · exact hmerged _ _
  · split
    · exact (hmerged _ _).allocationPass
    · exact hmerged _ _

theorem autoRequest (h : s.WithinCapacities) (st place type : Nat) (prio : Priority) :
    (s.autoRequest st place type prio).WithinCapacities := by
  unfold State.autoRequest
  dsimp only
  split
  · exact h.merge _ _
  · have hentered := h.enter { origin := .auto, type := type, dest := .station st place, prio := prio, neededBy := none, minLife := none }
    split
    next he =>
      rw [he] at hentered
      exact hentered
    next he =>
      rw [he] at hentered
      exact hentered.report _
    next he =>
      rw [he] at hentered
      exact hentered.report _

theorem loseRequest (h : s.WithinCapacities) (k : Option Nat) : (s.loseRequest k).WithinCapacities := by
  unfold State.loseRequest
  split
  · exact h.endRequest _ _ _
  · exact h

theorem deliverRequest (h : s.WithinCapacities) (k : Option Nat) : (s.deliverRequest k).WithinCapacities := by
  unfold State.deliverRequest
  split
  · exact h.endRequest _ _ _
  · exact h

theorem cancelRequest (h : s.WithinCapacities) (r : Request) (cause : ReqCause) : (s.cancelRequest r cause).WithinCapacities := by
  unfold State.cancelRequest
  split
  · exact ((h.releaseTool _ true).endRequest _ _ _).afterRelease _
  · exact h.endRequest _ _ _

theorem expiryTest (h : s.WithinCapacities) : s.expiryTest.WithinCapacities := h.foldl fun _ r hu => hu.endRequest r _ _

theorem clearLatePick (h : s.WithinCapacities) (key : Nat) : (s.clearLatePick key).WithinCapacities := h

theorem clearLatePicksOf (h : s.WithinCapacities) (n : Nat) : (s.clearLatePicksOf n).WithinCapacities := h

theorem putawayTimesOut (h : s.WithinCapacities) (n : Nat) (a : Assignment) : (s.putawayTimesOut n a).WithinCapacities := by
  have hvacated := (h.forgetAssignment n).vacateAssigned a
  unfold State.putawayTimesOut
  dsimp only
  split
  · exact hvacated
  · exact ((hvacated.move n _ _).leavePutaway n).report _

theorem firePutaway (h : s.WithinCapacities) (n : Nat) : (s.firePutaway n).WithinCapacities := by
  unfold State.firePutaway
  split
  · split
    · exact h.putawayTimesOut n _
    · exact h
  · exact h

end State.WithinCapacities

end Sys2Proof.Machine

/-! O57: the capacities of the part through the operations of handoff (R158 to R163, R172, R173). -/

namespace Sys2Proof.Machine

/-- What a table lists once a record has been set twice. -/
theorem mem_dset_dset {α : Type} [DecidableEq α] {d : α} {t : Table α} {k : Nat} {v w : α} {e : Nat × α}
    (h : e ∈ dset d (dset d t k v) k w) : e = (k, w) ∨ e ∈ t := by
  have htset (t : Table α) : tset (tset t k v) k w = tset t k w := by
    induction t with
    | nil => simp [tset]
    | cons x rest ih =>
      obtain ⟨j, u⟩ := x
      by_cases hj : j = k
      · simp [tset, hj]
      · by_cases hk : k < j
        · simp [tset, hj, hk]
        · simp [tset, hj, hk, ih]
  unfold dset at h
  split_ifs at h
  · exact .inr (mem_tdel (mem_tdel h))
  · obtain ⟨hmem, hne⟩ := List.mem_filter.1 h
    rcases mem_tset hmem with rfl | hmem
    · simp at hne
    · exact .inr hmem
  · rcases mem_tset h with rfl | h
    · exact .inl rfl
    · exact .inr (mem_tdel h)
  · rw [htset] at h
    exact mem_tset h

/-! ### The transactions that a search finds -/

theorem State.pendingTxn_some {s : State} {n : Nat} {p : TxnKind → Bool} {t : Txn} (h : s.pendingTxn n p = some t) :
    t ∈ (s.station n).queue ∧ t.state = .pending ∧ p t.kind = true := by
  have := List.find?_some h
  simp only [Bool.and_eq_true, beq_iff_eq] at this
  exact ⟨List.mem_of_find?_eq_some h, this.1, this.2⟩

theorem State.pendingTxn_none {s : State} {n : Nat} {p : TxnKind → Bool} (h : s.pendingTxn n p = none) {x : Txn}
    (hx : x ∈ (s.station n).queue) (hs : x.state = .pending) : p x.kind = false := by
  have := List.find?_eq_none.1 h x hx
  simpa [hs] using this

theorem State.inFlight_some {s : State} {n : Nat} {t : Txn} (h : s.inFlight n = some t) :
    t ∈ (s.station n).queue ∧ t.state = .inFlight := by
  have := List.find?_some h
  exact ⟨List.mem_of_find?_eq_some h, by simpa using this⟩

theorem State.flying_some {s : State} {n id : Nat} {t : Txn} (h : s.flying n id = some t) :
    t ∈ (s.station n).queue ∧ t.state = .inFlight := by
  have := List.find?_some h
  simp only [Bool.and_eq_true, beq_iff_eq] at this
  exact ⟨List.mem_of_find?_eq_some h, this.2⟩

theorem State.queueFull_eq_false {s : State} {n : Nat} : ¬ s.queueFull n = true ↔ (s.station n).queue.length < 16 := by
  simp [State.queueFull]

theorem State.setOwed_hoe (s : State) (tool : Nat) (owed : Bool) : (s.setOwed tool owed).hoe = s.hoe := by
  unfold State.setOwed State.modTool
  split <;> rfl

theorem State.setOwed_station (s : State) (tool : Nat) (owed : Bool) (n : Nat) : (s.setOwed tool owed).station n = s.station n := by
  unfold State.station
  rw [State.setOwed_hoe]

namespace State.WithinCapacities

variable {s : State}

/-! ### Endings -/

/-- Only the last of two writes of a station counts. -/
theorem setStation_twice (h : s.WithinCapacities) (n : Nat) (r : Station) {q : Station} (hq : q.Within)
    (hkept : QueueKept q.queue s.hoe.entries) : ((s.setStation n r).setStation n q).WithinCapacities := by
  obtain ⟨hstations, hrest⟩ := h.hoe
  refine ⟨h.1, h.2.1, h.2.2.1, h.2.2.2.1, h.2.2.2.2.1, ⟨fun e he => ?_, hrest⟩, fun m => ?_⟩
  · rcases mem_dset_dset he with rfl | he
    · exact hq
    · exact hstations e he
  · rw [State.station_setStation, State.station_setStation]
    split
    · exact hkept
    · exact h.queue m

theorem putBroadcast (h : s.WithinCapacities) (b : Broadcast) : (s.putBroadcast b).WithinCapacities :=
  h.setBroadcasts (by rw [List.length_map]; exact h.hoe.2.1)

theorem settleBroadcast (h : s.WithinCapacities) (b : Broadcast) : (s.settleBroadcast b).WithinCapacities := by
  unfold State.settleBroadcast
  split
  · exact h.putBroadcast b
  · exact (h.putBroadcast _).report _

theorem memberResult (h : s.WithinCapacities) (number : Option Nat) (n : Nat) (code : MemberCode) :
    (s.memberResult number n code).WithinCapacities := by
  unfold State.memberResult
  split
  · exact h
  · split
    · exact h
    · exact h.settleBroadcast _

theorem noticeEnded (h : s.WithinCapacities) (n id : Nat) (kind : NoticeKind) (type : Nat) (state : TxnState) :
    (s.noticeEnded n id kind type state).WithinCapacities := by
  obtain ⟨-, -, -, -, -, hunacked⟩ := h.station n
  unfold State.noticeEnded
  dsimp only
  split
  · split
    · exact h.setUnacked n (tableSorted_tdel _ hunacked)
    · exact h
  · split
    · exact h
    · exact h.setUnacked n (tableSorted_tset _ _ hunacked)

/-- An ending keeps the capacities where the departure from the queue does. -/
theorem finishTxn_of_left {n : Nat} {t : Txn} (state : TxnState) (code : TxnCode)
    (h : ∀ r, ((s.report r).setTxns n ((s.station n).queue.filter (fun x => x.id ≠ t.id))).WithinCapacities) :
    (s.finishTxn n t state code).WithinCapacities := by
  unfold State.finishTxn
  dsimp only
  split
  · exact ((h _).memberResult _ _ _).noticeEnded _ _ _ _ _
  · exact h _

theorem finishTxn (h : s.WithinCapacities) (n : Nat) (t : Txn) (state : TxnState) (code : TxnCode) :
    (s.finishTxn n t state code).WithinCapacities :=
  finishTxn_of_left state code fun r => (h.report r).setTxns n ((h.queue n).filter _)

/-! ### Entering -/

/-- R159: a transaction that takes the position of a PENDING rival leaves as many queued as before. -/
theorem supersede (h : s.WithinCapacities) {n : Nat} {old : Txn} (hold : old ∈ (s.station n).queue) (hp : old.state = .pending)
    {kind : TxnKind} (hr : old.kind.Rivals kind) (broadcast : Option Nat) : (s.supersede n old kind broadcast).WithinCapacities := by
  have hne : ({ s.newTxn kind broadcast with slot := old.slot } : Txn).id ≠ old.id := ((h.queue n).2.2.1 old hold).ne'
  have hkept : QueueKept _ (s.hoe.entries + 1) := (h.queue n).replace hold hp (t := { s.newTxn kind broadcast with slot := old.slot })
    rfl rfl hr
  unfold State.supersede
  refine finishTxn_of_left _ _ fun r => ?_
  rw [State.setTxns_station, if_pos rfl, superseded_queue hne]
  unfold State.setTxns
  rw [State.station_report, State.station_setStation, if_pos rfl]
  have hwithin : Station.Within { s.station n with queue := _ } := ⟨hkept.1, (h.station n).2⟩
  exact (h.countTxn.setStation_twice n _ hwithin hkept).report r

/-- R159: a transaction without a PENDING rival enters where there is room. -/
theorem enterTxn (h : s.WithinCapacities) {n : Nat} (hroom : (s.station n).queue.length < 16) {kind : TxnKind}
    (halone : ∀ x ∈ (s.station n).queue, x.state = .pending → ¬ kind.Rivals x.kind) (broadcast : Option Nat) :
    (s.enterTxn n kind broadcast).WithinCapacities :=
  h.countTxn.setTxns n <| (h.queue n).place (Nat.le_succ _) hroom (Nat.lt_succ_self _)
    (fun x hx => ((h.queue n).2.2.1 x hx).ne) rfl halone _

theorem setOwed (h : s.WithinCapacities) (tool : Nat) (owed : Bool) : (s.setOwed tool owed).WithinCapacities := h.modTool tool _

theorem askToolData (h : s.WithinCapacities) (n place tool : Nat) : (s.askToolData n place tool).WithinCapacities := by
  unfold State.askToolData
  split
  · exact h
  next i _ =>
    dsimp only
    split
    · exact h
    · split
      next old hold =>
        obtain ⟨hmem, hp, hk⟩ := State.pendingTxn_some hold
        rw [← State.setOwed_station s tool false] at hmem
        exact (h.setOwed tool false).supersede hmem hp (.inl ⟨tool, hk, by simp [TxnKind.isDataOf]⟩) none
      next hnone =>
        split
        · exact h.setOwed tool true
        next hroom =>
          refine (h.setOwed tool false).enterTxn ?_ ?_ none
          · rw [State.setOwed_station]
            exact State.queueFull_eq_false.1 hroom
          · intro x hx hp hr
            rw [State.setOwed_station] at hx
            exact absurd hr.data (by simp [State.pendingTxn_none hnone hx hp])

theorem enterLifeUpdate (h : s.WithinCapacities) {n : Nat} (hroom : ¬ s.queueFull n = true) (tool place : Nat) (blocked : Bool) :
    (s.enterTxn n (.lifeUpdate tool place blocked) none).WithinCapacities :=
  h.enterTxn (State.queueFull_eq_false.1 hroom) (fun _ _ _ => TxnKind.not_rivals_lifeUpdate) none

theorem askBlocked (h : s.WithinCapacities) (n place tool : Nat) : (s.askBlocked n place tool).WithinCapacities := by
  unfold State.askBlocked
  split
  · exact h.setOwed tool true
  next hroom => exact h.enterLifeUpdate hroom tool place true

theorem askUnblocked (h : s.WithinCapacities) (n place tool : Nat) : (s.askUnblocked n place tool).WithinCapacities := by
  unfold State.askUnblocked
  split
  · exact h
  next hroom => exact h.enterLifeUpdate hroom tool place false

theorem enterOwedNotices (h : s.WithinCapacities) (n : Nat) : (s.enterOwedNotices n).WithinCapacities := by
  unfold State.enterOwedNotices
  split
  · refine h.foldl fun u e hu => ?_
    split
    · exact hu
    next hfree =>
      rw [Bool.or_eq_true, not_or] at hfree
      refine hu.enterTxn (State.queueFull_eq_false.1 hfree.2) (fun x hx _ hr => hfree.1 ?_) none
      exact List.any_eq_true.2 ⟨x, hx, hr.notice⟩
  · exact h

theorem fillFor (h : s.WithinCapacities) (n tool : Nat) : (s.fillFor n tool).WithinCapacities := by
  unfold State.fillFor
  split
  · exact h
  · split
    · exact h
    · split
      · exact h
      · split
        · split
          · exact (h.setOwed tool false).askBlocked _ _ _
          · exact h
        · exact h.askToolData _ _ _

theorem fillSpace (h : s.WithinCapacities) (n : Nat) : (s.fillSpace n).WithinCapacities :=
  (h.enterOwedNotices n).foldl fun _ tool hu => hu.fillFor n tool

/-! ### Starting and ending -/

theorem startTxn (h : s.WithinCapacities) (n : Nat) : (s.startTxn n).WithinCapacities := by
  have hkept : QueueKept _ s.hoe.entries := Station.Queued.startTxn (h.queue n)
  cases hmay : s.mayStart n with
  | false =>
    rw [State.startTxn_idle hmay]
    exact h
  | true =>
    cases hx : s.nextToStart n with
    | none =>
      rw [State.startTxn_none hx]
      exact h
    | some x =>
      rw [State.startTxn_next hmay hx, State.putTxn, State.setTxns_station, if_pos rfl] at hkept
      rw [State.startTxn_next hmay hx]
      exact h.setTxns n hkept

theorem reaskBlocked (h : s.WithinCapacities) (n : Nat) (t : Txn) (state : TxnState) :
    (s.reaskBlocked n t state).WithinCapacities := by
  unfold State.reaskBlocked
  split
  · split
    · split
      · exact h.askBlocked _ _ _
      · exact h
    · exact h
  · exact h

theorem endTxn (h : s.WithinCapacities) (n : Nat) (t : Txn) (state : TxnState) (code : TxnCode) :
    (s.endTxn n t state code).WithinCapacities :=
  (((h.finishTxn n t state code).fillSpace n).reaskBlocked n t state).startTxn n

theorem endQueued (h : s.WithinCapacities) (n id : Nat) (state : TxnState) (code : TxnCode) :
    (s.endQueued n id state code).WithinCapacities := by
  unfold State.endQueued
  split
  · exact h.endTxn n _ state code
  · exact h

theorem cancelAt (h : s.WithinCapacities) (n : Nat) (p : TxnKind → Bool) : (s.cancelAt n p).WithinCapacities :=
  h.foldl fun _ id hu => hu.endQueued n id _ _

theorem cancelAll (h : s.WithinCapacities) (p : TxnKind → Bool) : (s.cancelAll p).WithinCapacities :=
  h.foldl fun _ n hu => hu.cancelAt n p

theorem leftIssued (h : s.WithinCapacities) (tool : Nat) : (s.leftIssued tool).WithinCapacities := h.cancelAll _

theorem gone (h : s.WithinCapacities) (tool : Nat) : (s.gone tool).WithinCapacities := h.cancelAll _

theorem supplyData (h : s.WithinCapacities) (n place tool : Nat) : (s.supplyData n place tool).WithinCapacities :=
  (h.askToolData n place tool).startTxn n

/-! ### Returning to PENDING -/

/-- A transaction is rewritten in what its place in the queue does not turn on. -/
theorem putTxn (h : s.WithinCapacities) {n : Nat} {x t : Txn} (hx : x ∈ (s.station n).queue) (hid : t.id = x.id) (hkind : t.kind = x.kind)
    (hstate : t.state = x.state) : (s.putTxn n t).WithinCapacities := by
  refine h.setTxns n ((h.queue n).map fun y hy => ?_)
  split
  next he =>
    rw [Station.Queued.eq_of_id (h.queue n) hx hy (he.trans hid)]
    exact ⟨hid, hkind, hstate⟩
  next => exact ⟨rfl, rfl, rfl⟩

/-- R162: a transaction of the queue goes back among the PENDING ones where no PENDING rival stands. -/
theorem returnTxn (h : s.WithinCapacities) {n : Nat} {t : Txn} (ht : t ∈ (s.station n).queue) (behind : Txn → Bool) :
    (s.returnTxn n t behind).WithinCapacities := by
  have hback (halone : ∀ x ∈ (s.station n).queue, x.state = .pending → ¬ t.kind.Rivals x.kind) :
      (s.setTxns n (placeTxn ((s.station n).queue.filter (fun x => x.id ≠ t.id)) t.grounded behind)).WithinCapacities := by
    have hleft := (h.queue n).filter (fun x => x.id ≠ t.id)
    have hshort : ((s.station n).queue.filter (fun x => x.id ≠ t.id)).length < (s.station n).queue.length := by
      refine lt_of_le_of_ne (List.length_filter_le _ _) fun he => ?_
      have := List.length_filter_eq_length_iff.1 he t ht
      simp at this
    refine h.setTxns n (hleft.place (t := t.grounded) le_rfl (hshort.trans_le (h.queue n).1) ((h.queue n).2.2.1 t ht) ?_ rfl ?_ behind)
    · exact fun x hx => of_decide_eq_true (List.mem_filter.1 hx).2
    · exact fun x hx => halone x (List.mem_filter.1 hx).1
  unfold State.returnTxn
  dsimp only
  split
  · exact h.endTxn n t _ _
  next hnone =>
    refine hback fun x hx hp hr => ?_
    cases hk : t.kind with
    | toolData tool p g =>
      rw [hk] at hr hnone
      exact absurd hr.data (by simp [State.pendingTxn_none hnone hx hp])
    | lifeUpdate tool p b =>
      rw [hk] at hr
      exact TxnKind.not_rivals_lifeUpdate hr
    | notice kind type =>
      rw [hk] at hr hnone
      exact absurd hr.notice (by simp [State.pendingTxn_none hnone hx hp])

theorem linkStopped (h : s.WithinCapacities) (n : Nat) : (s.linkStopped n).WithinCapacities := by
  unfold State.linkStopped
  have hended := h.foldl (xs := (((s.station n).queue.filter
    (fun t => t.broadcast.isSome && (t.state == .inFlight || t.state == .pending))).map (·.id)))
    fun _ id hu => hu.endQueued n id .failed .offline
  dsimp only
  split
  next ht => exact hended.returnTxn (State.inFlight_some ht).1 _
  next => exact hended

theorem linkStarted (h : s.WithinCapacities) (n : Nat) : (s.linkStarted n).WithinCapacities := (h.enterOwedNotices n).startTxn n

/-! ### Notices of the links, timers and messages -/

theorem markNotice (h : s.WithinCapacities) (n tool place : Nat) : (s.markNotice n tool place).WithinCapacities := by
  obtain ⟨-, -, -, -, hmagazine, -⟩ := h.station n
  unfold State.markNotice
  dsimp only
  split
  · split
    · exact h.setMagazine n (tableSorted_tset _ _ hmagazine)
    · exact h
  · exact h

theorem delivered (h : s.WithinCapacities) (n id : Nat) : (s.delivered n id).WithinCapacities := by
  unfold State.delivered
  split
  · exact h
  next t ht =>
    split
    · split
      · exact (h.markNotice n _ _).endTxn n t _ _
      · exact h.endTxn n t _ _
    · exact h.putTxn (State.flying_some ht).1 rfl rfl rfl

theorem sendFailed (h : s.WithinCapacities) (n id : Nat) : (s.sendFailed n id).WithinCapacities := by
  unfold State.sendFailed
  split
  · exact h
  · exact h.endTxn n _ _ _

theorem fireHandoff (h : s.WithinCapacities) (n : Nat) : (s.fireHandoff n).WithinCapacities := by
  unfold State.fireHandoff
  split
  · exact h.endTxn n _ _ _
  · exact h

theorem fireHoldOff (h : s.WithinCapacities) (n : Nat) : (s.fireHoldOff n).WithinCapacities := by
  unfold State.fireHoldOff
  split
  · exact h.startTxn n
  · exact h

theorem setReplies (h : s.WithinCapacities) (n : Nat) {rs : List StationReply} (hr : rs.length ≤ 8) :
    (s.setStation n { s.station n with replies := rs }).WithinCapacities :=
  h.setStation n ⟨(h.station n).1, hr, (h.station n).2.2⟩ (h.queue n)

theorem offer (h : s.WithinCapacities) {n : Nat} {body : List Byte} {origin : BlockOrigin} {t : State}
    (ht : s.offer n = some (body, origin, t)) : t.WithinCapacities := by
  obtain ⟨-, hreplies, -⟩ := h.station n
  unfold State.offer at ht
  dsimp only at ht
  split at ht
  next r rest hr =>
    cases ht
    rw [hr, List.length_cons] at hreplies
    exact h.setReplies n (by omega)
  next =>
    split at ht
    next x hx =>
      split at ht
      · cases ht
      · cases ht
        exact h.putTxn (State.inFlight_some hx).1 rfl rfl rfl
    next => cases ht

theorem stationReply (h : s.WithinCapacities) (n : Nat) (r : StationReply) : (s.stationReply n r).WithinCapacities := by
  obtain ⟨-, hreplies, -⟩ := h.station n
  refine h.setReplies n ?_
  rw [List.length_append, List.length_singleton]
  split
  · rw [List.length_drop]
    omega
  · omega

/-! ### Broadcasts -/

theorem holdEntry (h : s.WithinCapacities) (n type : Nat) (kind : NoticeKind) : (s.holdEntry n type kind).WithinCapacities := by
  obtain ⟨-, -, -, -, -, hunacked⟩ := h.station n
  exact ((h.setUnacked n (tableSorted_tset _ _ hunacked)).enterOwedNotices n).startTxn n

theorem inviteMember (h : s.WithinCapacities) (number n type : Nat) (kind : NoticeKind) :
    (s.inviteMember number n type kind).WithinCapacities := by
  have hresult (c : MemberCode) : (match s.broadcast number with
      | some b => s.putBroadcast
          { b with results := b.results.map (fun (m : Nat × Option MemberCode) => if m.1 = n then (m.1, some c) else m) }
      | none => s).WithinCapacities := by
    split
    · exact h.putBroadcast _
    · exact h
  unfold State.inviteMember
  dsimp only
  split
  · exact (hresult .offline).holdEntry n type kind
  · split
    next old hold =>
      obtain ⟨hmem, hp, hk⟩ := State.pendingTxn_some hold
      exact (h.supersede hmem hp (.inr ⟨type, hk, by simp [TxnKind.isNoticeOf]⟩) _).startTxn n
    next hnone =>
      split
      · exact (hresult .refused).holdEntry n type kind
      next hroom =>
        refine (h.enterTxn (State.queueFull_eq_false.1 hroom) (fun x hx hp hr => ?_) _).startTxn n
        exact absurd hr.notice (by simp [State.pendingTxn_none hnone hx hp])

theorem createBroadcast (h : s.WithinCapacities) (kind : NoticeKind) (type : Nat) (members : List Nat) :
    (s.createBroadcast kind type members).1.WithinCapacities := by
  have hcreated {bs : List (Option Broadcast)} (hb : bs.length = 4) (k : Nat) :
      (s.setHoe { s.hoe with broadcasts := bs, nextBroadcast := cyclicNext 255 k }).WithinCapacities := by
    obtain ⟨hstations, -, hlow, hhigh, -⟩ := h.hoe
    have hnext := cyclicNext_bounds (top := 255) (by omega) k
    exact ⟨h.1, h.2.1, h.2.2.1, h.2.2.2.1, h.2.2.2.2.1, ⟨hstations, hb, hlow, hhigh, hnext⟩, h.2.2.2.2.2.2⟩
  unfold State.createBroadcast
  split
  · exact h.foldl fun _ n hu => hu.holdEntry n type kind
  · have hinvited (number slot : Nat) (b : Broadcast) := (hcreated (bs := s.hoe.broadcasts.set slot (some b))
      (by rw [List.length_set]; exact h.hoe.2.1) number).foldl (xs := members) fun _ n hu => hu.inviteMember number n type kind
    dsimp only
    split
    · exact (hinvited _ _ _).settleBroadcast _
    · exact hinvited _ _ _

theorem fireBroadcast (h : s.WithinCapacities) (number : Nat) : (s.fireBroadcast number).WithinCapacities := by
  unfold State.fireBroadcast
  split
  · exact h
  · split
    · refine State.WithinCapacities.settleBroadcast (h.foldl fun u n hu => ?_) _
      refine hu.setTxns n ((hu.queue n).map fun x _ => ?_)
      split <;> exact ⟨rfl, rfl, rfl⟩
    · exact h

theorem afterPick (h : s.WithinCapacities) (r : Request) (tool : Nat) : (s.afterPick r tool).WithinCapacities := by
  unfold State.afterPick
  split
  · exact h.supplyData _ _ _
  · exact h.endRequest _ _ _

end State.WithinCapacities

end Sys2Proof.Machine

/-! O57: the capacities of the part through the operations of life, of the crib (R30 to R43) and of the messages of the stations. -/

namespace Sys2Proof.Machine

/-! ### The pockets of a cabinet -/

theorem pocketKey_keys (k : Nat) : pocketKey (keyCabinet k) (keyPocket k) = k := by
  unfold pocketKey keyCabinet keyPocket
  omega

theorem keyPocket_bounds (k : Nat) : 1 ≤ keyPocket k ∧ keyPocket k ≤ 64 := by
  unfold keyPocket
  omega

theorem allPockets_nodup : allPockets.Nodup := List.Nodup.map (Nat.succ_injective) List.nodup_range

/-- Pockets of one cabinet rewritten one after the other: nothing else changes. -/
theorem State.foldl_setPocket_only (f : Pocket → Pocket) (c : Nat) (ps : List Nat) (s : State) :
    ps.foldl (fun s p => s.setPocket c p (f (s.pocket c p))) s =
      { s with psc := { s.psc with
        pockets := (ps.foldl (fun s p => s.setPocket c p (f (s.pocket c p))) s).psc.pockets } } := by
  induction ps generalizing s with
  | nil => rfl
  | cons p ps ih =>
    rw [List.foldl_cons, ih]
    rfl

theorem State.foldl_setPocket_sorted (f : Pocket → Pocket) (c : Nat) (ps : List Nat) {s : State} (h : tableSorted s.psc.pockets = true) :
    tableSorted (ps.foldl (fun s p => s.setPocket c p (f (s.pocket c p))) s).psc.pockets = true := by
  induction ps generalizing s with
  | nil => exact h
  | cons p ps ih => exact ih (tableSorted_dset _ _ h)

/-- Pockets of one cabinet rewritten one after the other: each of them once, from its record before. -/
theorem State.foldl_setPocket_pocket (f : Pocket → Pocket) (c : Nat) {ps : List Nat} (hps : ∀ p ∈ ps, 1 ≤ p ∧ p ≤ 64) (hnodup : ps.Nodup)
    (s : State) {d q : Nat} (h1 : 1 ≤ q) (h2 : q ≤ 64) :
    (ps.foldl (fun s p => s.setPocket c p (f (s.pocket c p))) s).pocket d q =
      if d = c ∧ q ∈ ps then f (s.pocket d q) else s.pocket d q := by
  induction ps generalizing s with
  | nil => simp
  | cons p ps ih =>
    obtain ⟨hp, hrest⟩ := List.forall_mem_cons.1 hps
    obtain ⟨hnew, hnodup⟩ := List.nodup_cons.1 hnodup
    rw [List.foldl_cons, ih hrest hnodup, State.pocket_setPocket, if_congr (pocketKey_inj hp ⟨h1, h2⟩) rfl rfl]
    by_cases hd : d = c
    · by_cases hq : q = p
      · subst hd hq
        simp [hnew]
      · simp [hd, hq]
    · simp [hd]

/-! ### Searches of the crib -/

theorem State.nextEnabled_some {s : State} {c above p : Nat} (h : s.nextEnabled c above = some p) :
    1 ≤ p ∧ p ≤ 64 ∧ above < p ∧ (s.pocket c p).enabled = true := by
  have := List.find?_some h
  simp only [Bool.and_eq_true, decide_eq_true_eq] at this
  have hp := mem_allPockets.1 (List.mem_of_find?_eq_some h)
  exact ⟨hp.1, hp.2, this⟩

/-- R35: the pocket that a learning pass moves to and those it leaves for later are of its list. -/
theorem State.learnNext_mem {s : State} {c : Nat} {pockets refused : List Nat} {p : Nat}
    (h : (s.learnNext c pockets refused).current = some p) :
    p ∈ pockets ∧ ∀ q ∈ (s.learnNext c pockets refused).rest, q ∈ pockets := by
  induction pockets generalizing refused with
  | nil => cases h
  | cons q rest ih =>
    unfold State.learnNext at h ⊢
    split at h
    next hq =>
      cases h
      rw [if_pos hq]
      exact ⟨List.mem_cons_self, fun x hx => List.mem_cons_of_mem _ hx⟩
    next hq =>
      rw [if_neg hq]
      exact ⟨List.mem_cons_of_mem _ (ih h).1, fun x hx => List.mem_cons_of_mem _ ((ih h).2 x hx)⟩

namespace State.WithinCapacities

variable {s : State}

/-! ### Life -/

theorem afterRetired (h : s.WithinCapacities) (n : Nat) : (s.afterRetired n).WithinCapacities :=
  ((h.leavePutaway n).settleMarks n).gone n

theorem spentAtLimit (h : s.WithinCapacities) (n : Nat) : (s.spentAtLimit n).WithinCapacities := by
  unfold State.spentAtLimit
  split
  · exact (h.move n _ _).afterRetired n
  · exact h

theorem lifeZero (h : s.WithinCapacities) (n : Nat) : (s.lifeZero n).WithinCapacities := by
  unfold State.lifeZero
  split
  · exact h.move n _ _
  · exact h

theorem prefetch (h : s.WithinCapacities) (r : InstRec) : (s.prefetch r).WithinCapacities := by
  unfold State.prefetch
  split
  · split
    · exact h.autoRequest _ _ _ _
    · exact h
  · exact h

theorem warnTest (h : s.WithinCapacities) (n : Nat) : (s.warnTest n).WithinCapacities := by
  unfold State.warnTest
  split
  · exact h
  · split
    · exact h
    · split
      · exact ((h.setTool n _).report _).prefetch _
      · exact h

theorem replacement (h : s.WithinCapacities) (r : InstRec) : (s.replacement r).WithinCapacities := by
  unfold State.replacement
  split
  · dsimp only
    split
    · split
      · exact h.autoRequest _ _ _ _
      · exact h
    · split
      · exact h.autoRequest _ _ _ _
      · exact h
  · exact h

theorem spentActions (h : s.WithinCapacities) (n : Nat) (r : InstRec) (units : Nat) (late : Bool) :
    (s.spentActions n r units late).WithinCapacities := by
  have htold : ∀ x : Option (Nat × Nat), (match x with
      | some (st, place) => ((s.setTool n { r with spent := true }).askBlocked st place n).startTxn st
      | none => s.setTool n { r with spent := true }).WithinCapacities := by
    rintro (_ | ⟨st, place⟩)
    · exact h
    · exact ((h.setTool n _).askBlocked st place n).startTxn st
  exact State.WithinCapacities.replacement ((htold _).report _) r

theorem zeroTest (h : s.WithinCapacities) (n units : Nat) (late : Bool) : (s.zeroTest n units late).WithinCapacities := by
  unfold State.zeroTest
  split
  · exact h
  · split
    · exact h
    · split
      · split
        · exact h
        · exact h.spentActions _ _ _ _
      · split
        · exact h
        · exact h.spentActions _ _ _ _
      · exact h.lifeZero n
      · exact (h.lifeZero n).announce n
      · exact (h.lifeZero n).announce n
      · exact (((h.releaseToQueue n false).allocationPass).lifeZero n).tryPutaway n
      · split
        · exact h.spentAtLimit n
        · exact h
      · exact h

theorem applyUsage (h : s.WithinCapacities) (n units : Nat) (late : Bool) : (s.applyUsage n units late).WithinCapacities :=
  ((h.modTool n _).warnTest n).zeroTest n units late

theorem usage (h : s.WithinCapacities) (st n place units : Nat) : (s.usage st n place units).1.WithinCapacities := by
  unfold State.usage
  split
  · exact h
  · split
    · exact h
    · split
      · exact h
      · split_ifs
        · exact h.applyUsage _ _ _
        · exact h.applyUsage _ _ _
        · exact h
        · exact h

theorem verifiedLife (h : s.WithinCapacities) (n : Nat) : (s.verifiedLife n).WithinCapacities := by
  unfold State.verifiedLife
  split
  · exact h
  · split
    · exact h
    · split_ifs
      · exact h.replacement _
      · exact h.prefetch _
      · exact h

/-! ### Events of a pocket -/

theorem pick (h : s.WithinCapacities) (c p n : Nat) : (s.pick c p n).WithinCapacities := by
  unfold State.pick
  split
  · exact h
  · split
    · exact h
    · exact ((((h.move n _ _).rewritePocket c p).changeRequest _ _).afterPick _ n).noticeIfFree c p

theorem latePick (h : s.WithinCapacities) (c p n : Nat) (r : Request) : (s.latePick c p n r).WithinCapacities := by
  unfold State.latePick
  split
  · exact h
  · exact ((((h.move n _ _).rewritePocket c p).changeRequest _ _).afterPick _ n).noticeIfFree c p

theorem unsanctioned (h : s.WithinCapacities) (c p n : Nat) : (s.unsanctioned c p n).WithinCapacities := by
  unfold State.unsanctioned
  dsimp only
  split
  · exact (((h.report _).move n _ _).rewritePocket c p).noticeIfFree c p
  · exact ((h.report _).rewritePocket c p).noticeIfFree c p

theorem removed (h : s.WithinCapacities) (c p : Nat) : (s.removed c p).WithinCapacities := by
  have hcleared := h.clearLatePick (pocketKey c p)
  unfold State.removed
  dsimp only
  split
  · exact hcleared.pick c p _
  · split
    · exact hcleared.latePick c p _ _
    · exact hcleared.unsanctioned c p _
  · exact (hcleared.rewritePocket c p).noticeIfFree c p
  · exact (hcleared.rewritePocket c p).noticeIfFree c p
  · exact hcleared

theorem unknownPlacement (h : s.WithinCapacities) (c p : Nat) (tool : Option Nat) (custody : Option Custody) :
    (s.unknownPlacement c p tool custody).WithinCapacities := (h.rewritePocket c p).report _

theorem place (h : s.WithinCapacities) (c p n : Nat) : (s.place c p n).WithinCapacities := by
  unfold State.place
  split
  · exact (h.forgetAssignment n).unknownPlacement c p _ _
  · split
    · exact ((((h.move n _ _).rewritePocket c p).forgetAssignment n).leavePutaway n).announce n
    · exact ((h.forgetAssignment n).unknownPlacement c p _ _).tryPutaway n

theorem placed (h : s.WithinCapacities) (c p : Nat) : (s.placed c p).WithinCapacities := by
  unfold State.placed
  split
  · split
    · exact h.place c p _
    · exact h.unknownPlacement c p _ _
  · exact h.unknownPlacement c p _ _
  · exact h

theorem faultNow (h : s.WithinCapacities) (c p count : Nat) (before : PocketState) : (s.faultNow c p count before).WithinCapacities :=
  (h.rewritePocket c p (r := { s.pocket c p with state := .fault, run := 0 }) ⟨rfl, rfl, rfl, rfl, Nat.zero_le _⟩).report _

theorem enterFault (h : s.WithinCapacities) (c p count : Nat) : (s.enterFault c p count).WithinCapacities := by
  unfold State.enterFault
  dsimp only
  split
  · exact h
  · split
    · exact ((h.releaseToQueue _ true).faultNow c p count _).afterRelease _
    · exact h.faultNow c p count _
  · split
    · exact ((h.forgetAssignment _).tryPutaway _).faultNow c p count _
    · exact h.faultNow c p count _
  · exact h.faultNow c p count _

theorem recover (h : s.WithinCapacities) (c p : Nat) : (s.recover c p).WithinCapacities := by
  have hrecovered (r : Report) := (h.rewritePocket c p (s.pocket c p).recovered_sameCounts).report r
  unfold State.recover
  dsimp only
  split
  · exact (hrecovered _).allocationPass
  · exact (hrecovered _).noticeIfFree c p

theorem presenceEvent (h : s.WithinCapacities) (c p : Nat) (e : Presence) : (s.presenceEvent c p e).WithinCapacities := by
  have hsensed (r : Report) := (h.rewritePocket c p (r := { s.pocket c p with sensed := e, run := 0 })
    ⟨rfl, rfl, rfl, rfl, Nat.zero_le _⟩).report r
  unfold State.presenceEvent
  dsimp only
  split
  · exact (hsensed _).placed c p
  · exact (hsensed _).removed c p

/-- A pocket's run is rewritten within 8. -/
theorem setRun (h : s.WithinCapacities) (c p : Nat) {run : Nat} (hrun : run ≤ 8) :
    (s.setPocket c p { s.pocket c p with run := run }).WithinCapacities := by
  obtain ⟨hbase, hlast, -, hbounds⟩ := h.pocket c p
  exact h.setPocket c p ⟨hbase, hlast, hrun, hbounds⟩

theorem debounce (h : s.WithinCapacities) (c p : Nat) (seen : Option Presence) : (s.debounce c p seen).WithinCapacities := by
  have hdebounce : (s.cab c).settings.debounce ≤ 8 := by
    obtain ⟨-, -, -, -, -, -, -, hle⟩ := (h.cab c).1
    exact hle
  unfold State.debounce
  dsimp only
  split
  · split
    · exact h.setRun c p (Nat.zero_le _)
    · split_ifs
      · exact h.setRun c p (Nat.zero_le _)
      · exact h.presenceEvent c p _
      · exact h.setRun c p (by omega)
  · exact h

theorem inRangeCount (h : s.WithinCapacities) (c p : Nat) : (s.inRangeCount c p).WithinCapacities := by
  unfold State.inRangeCount
  dsimp only
  split
  · exact h.recover c p
  · exact h.setRun c p (by omega)

theorem setLastCount (h : s.WithinCapacities) (c p : Nat) {count : Nat} (hcount : count ≤ 16383) :
    (s.setPocket c p { s.pocket c p with lastCount := some count }).WithinCapacities := by
  obtain ⟨hbase, -, hrest⟩ := h.pocket c p
  exact h.setPocket c p ⟨hbase, fun k hk => (Option.some.inj hk) ▸ hcount, hrest⟩

theorem countPocket (h : s.WithinCapacities) (c p : Nat) {count : Nat} (hcount : count ≤ 16383) :
    (s.countPocket c p count).WithinCapacities := by
  have hcounted := h.setLastCount c p hcount
  unfold State.countPocket
  dsimp only
  split
  · exact hcounted
  · split
    · exact hcounted.setRun c p (Nat.zero_le _)
    · exact hcounted.enterFault c p count
  · split
    · exact hcounted.inRangeCount c p
    · exact hcounted.debounce c p _
  · split
    · exact hcounted.inRangeCount c p
    · exact hcounted.debounce c p _
  · split
    · exact hcounted.inRangeCount c p
    · exact hcounted.debounce c p _

/-! ### Passes -/

theorem setPass (h : s.WithinCapacities) (c : Nat) {x : Option Pass} (hx : ∀ y ∈ x, y.Within) :
    (s.setCab c { s.cab c with pass := x }).WithinCapacities := by
  obtain ⟨hsettings, hpending, -, hheld⟩ := h.cab c
  exact h.setCab c ⟨hsettings, hpending, hx, hheld⟩ rfl

theorem setBoundary (h : s.WithinCapacities) (c : Nat) (b : Option Nat) :
    (s.setCab c { s.cab c with boundary := b }).WithinCapacities := h.setCab c (h.cab c) rfl

theorem setHeldLearn (h : s.WithinCapacities) (c : Nat) {l : Option HeldLearn} (hl : ∀ x ∈ l, ∀ p ∈ x.pockets, 1 ≤ p ∧ p ≤ 64) :
    (s.setCab c { s.cab c with heldLearn := l }).WithinCapacities := by
  obtain ⟨hsettings, hpending, hpass, -⟩ := h.cab c
  exact h.setCab c ⟨hsettings, hpending, hpass, hl⟩ rfl

theorem learnOn (h : s.WithinCapacities) (c handle : Nat) {pockets : List Nat} (hp : ∀ q ∈ pockets, 1 ≤ q ∧ q ≤ 64)
    (learned refused failed : List Nat) : (s.learnOn c handle pockets learned refused failed).WithinCapacities := by
  unfold State.learnOn
  dsimp only
  split
  next p hcurrent =>
    obtain ⟨hmem, hrest⟩ := State.learnNext_mem hcurrent
    refine h.setPass c fun y hy => ?_
    cases hy
    exact ⟨hp p hmem, fun q hq => hp q (hrest q hq)⟩
  next => exact (h.setPass c (by simp)).report _

theorem startAuto (h : s.WithinCapacities) (c : Nat) : (s.startAuto c).WithinCapacities := by
  unfold State.startAuto
  split
  next hp =>
    obtain ⟨h1, h2, -⟩ := State.nextEnabled_some hp
    exact h.setPass c fun y hy => by
      cases hy
      exact ⟨h1, h2⟩
  next => exact h

theorem restartBoundary (h : s.WithinCapacities) (c : Nat) : (s.restartBoundary c).WithinCapacities :=
  (h.setBoundary c _).startAuto c

/-- R30: settings in range that take effect leave every bound that of its baseline. -/
theorem takeSettings (h : s.WithinCapacities) (c : Nat) {new : CabSettings} (hnew : new.Within) :
    (s.takeSettings c new).1.WithinCapacities := by
  obtain ⟨hpockets, hcabinets, hcabs, -⟩ := (Psc.within_iff _).1 h.psc
  obtain ⟨-, -, hpass, hheld⟩ := h.cab c
  unfold State.takeSettings
  dsimp only
  have hread {d q : Nat} (h1 : 1 ≤ q) (h2 : q ≤ 64) := State.foldl_setPocket_pocket
    (fun r => r.resettled (s.cab c).settings new) c (fun p hp => mem_allPockets.1 hp) allPockets_nodup s (d := d) h1 h2
  have hsorted := State.foldl_setPocket_sorted (fun r => r.resettled (s.cab c).settings new) c allPockets hpockets
  have honly := State.foldl_setPocket_only (fun r => r.resettled (s.cab c).settings new) c allPockets s
  generalize allPockets.foldl (fun s' p => s'.setPocket c p ((s'.pocket c p).resettled (s.cab c).settings new)) s = u at *
  have hcab (d : Nat) : u.cab d = s.cab d := by
    rw [honly]
    rfl
  have hpsc : ∀ k : Cabinet, k.Within → k.settings = new → (u.setCab c k).psc.Within := by
    intro k hk hks
    refine (Psc.within_iff _).2 ⟨hsorted, tableSorted_dset _ _ (by rw [honly]; exact hcabinets), fun d => ?_, fun key => ?_⟩
    · rw [State.setCab_psc, dget_dset]
      split
      · exact hk
      · rw [show dget Cabinet.reset u.psc.cabinets d = s.cab d from hcab d]
        exact h.cab d
    · obtain ⟨h1, h2⟩ := keyPocket_bounds key
      have hkey := hread (d := keyCabinet key) h1 h2
      rw [State.pocket, State.pocket, pocketKey_keys] at hkey
      have hwas := h.pocket (keyCabinet key) (keyPocket key)
      rw [State.pocket, pocketKey_keys] at hwas
      rw [State.setCab_psc, dget_dset, hkey]
      by_cases hc : keyCabinet key = c
      · rw [if_pos hc, if_pos ⟨hc, mem_allPockets.2 ⟨h1, h2⟩⟩, hks]
        exact Pocket.resettled_within new (hc ▸ hwas)
      · rw [if_neg hc, if_neg fun hand => hc hand.1]
        rw [show dget Cabinet.reset u.psc.cabinets _ = s.cab _ from hcab _]
        exact hwas
  have hwithin (p : Psc) (hp : p.Within) : WithinCapacities { u with psc := p } := by
    rw [honly]
    exact h.setPsc hp
  exact hwithin _ (hpsc { u.cab c with settings := new, pendingSettings := none, boundary := _ }
    ⟨hnew, by simp, by rw [hcab]; exact hpass, by rw [hcab]; exact hheld⟩ rfl)

/-- R35: the end of a pass, from the settings that have taken effect on. -/
theorem heldPass (h : s.WithinCapacities) (c : Nat) (restart : Bool) :
    (let next := match (s.cab c).heldLearn with
      | some l => (s.setCab c { s.cab c with heldLearn := none }).learnOn c l.handle l.pockets [] [] []
      | none => s
    if restart then next.restartBoundary c else next).WithinCapacities := by
  have hnext : (match (s.cab c).heldLearn with
      | some l => (s.setCab c { s.cab c with heldLearn := none }).learnOn c l.handle l.pockets [] [] []
      | none => s).WithinCapacities := by
    split
    next l hl => exact (h.setHeldLearn c (by simp)).learnOn c _ ((h.cab c).2.2.2 l hl) _ _ _
    next => exact h
  cases restart
  · exact hnext
  · exact hnext.restartBoundary c

theorem endPass (h : s.WithinCapacities) (c : Nat) : (s.endPass c).WithinCapacities := by
  have hidle := h.setPass c (x := none) (by simp)
  unfold State.endPass
  dsimp only
  generalize s.setCab c { s.cab c with pass := none } = u at hidle ⊢
  cases hp : (u.cab c).pendingSettings with
  | none => exact hidle.heldPass c false
  | some new => exact (hidle.takeSettings c ((hidle.cab c).2.1 new hp)).heldPass c (u.takeSettings c new).2

theorem passOn (h : s.WithinCapacities) (c : Nat) (pass : Pass) : (s.passOn c pass).WithinCapacities := by
  have hmoves {above p : Nat} (hp : s.nextEnabled c above = some p) {x : Pass} (hx : (1 ≤ p ∧ p ≤ 64) → x.Within) :
      (s.setCab c { s.cab c with pass := some x }).WithinCapacities := by
    obtain ⟨h1, h2, -⟩ := State.nextEnabled_some hp
    exact h.setPass c fun y hy => (Option.some.inj hy) ▸ hx ⟨h1, h2⟩
  unfold State.passOn
  split
  · split
    next hp => exact hmoves hp id
    next => exact h.endPass c
  · split
    next hp => exact hmoves hp id
    next => exact (h.report _).endPass c
  · exact h

theorem startSingle (h : s.WithinCapacities) (c handle : Nat) : (s.startSingle c handle).WithinCapacities := by
  unfold State.startSingle
  split
  next hp =>
    obtain ⟨h1, h2, -⟩ := State.nextEnabled_some hp
    exact h.setPass c fun y hy => by
      cases hy
      exact ⟨h1, h2⟩
  next => exact h.report _

theorem takeCount (h : s.WithinCapacities) (c cycles : Nat) : (s.takeCount c cycles).WithinCapacities := by
  unfold State.takeCount
  split
  · split
    · exact (h.countPocket c _ (countOf_le cycles)).passOn c _
    · exact h.passOn c _
  · split
    · exact (h.countPocket c _ (countOf_le cycles)).passOn c _
    · exact h.passOn c _
  · exact h

theorem takeLearn (h : s.WithinCapacities) (c cycles : Nat) : (s.takeLearn c cycles).WithinCapacities := by
  unfold State.takeLearn
  split
  next handle p rest learned refused failed hpass =>
    obtain ⟨⟨h1, h2⟩, hrest⟩ : Pass.Within (.learn handle p rest learned refused failed) := (h.cab c).2.2.1 _ hpass
    have hlearned (h0 : ¬ (countOf cycles = 0 ∨ countOf cycles = 16383)) :
        (s.setPocket c p ((s.pocket c p).learned (s.cab c).settings (countOf cycles))).WithinCapacities := by
      refine h.setPocket c p ?_
      rw [keyCabinet_pocketKey h1 h2]
      exact Pocket.learned_within _ _ (fun he => h0 (.inl he)) (countOf_le cycles)
    have hwalked : (if (s.pocket c p).learnable = false then s.learnOn c handle rest learned (refused ++ [p]) failed
        else if countOf cycles = 0 ∨ countOf cycles = 16383 then
          (s.setPocket c p { s.pocket c p with lastCount := some (countOf cycles) }).learnOn c handle rest learned refused
            (failed ++ [p])
        else ((s.setPocket c p ((s.pocket c p).learned (s.cab c).settings (countOf cycles))).noticeIfFree c p).learnOn c handle
          rest (learned ++ [p]) refused failed).WithinCapacities := by
      split_ifs with _ h0
      · exact h.learnOn c handle hrest _ _ _
      · exact (h.setLastCount c p (countOf_le cycles)).learnOn c handle hrest _ _ _
      · exact ((hlearned h0).noticeIfFree c p).learnOn c handle hrest _ _ _
    have hend (v : State) (hv : v.WithinCapacities) : (if (v.cab c).pass.isNone then v.endPass c else v).WithinCapacities := by
      split
      · exact hv.endPass c
      · exact hv
    exact hend _ hwalked
  next => exact h

theorem fireBoundary (h : s.WithinCapacities) (c : Nat) : (s.fireBoundary c).WithinCapacities := by
  unfold State.fireBoundary
  dsimp only
  split
  · split
    · exact (h.setBoundary c _).startAuto c
    · exact h
  · exact h

theorem departPocket (h : s.WithinCapacities) (l : Location) (n : Nat) (cause : MarkCause) :
    (s.departPocket l n cause).WithinCapacities := by
  unfold State.departPocket
  split
  · split
    · exact (h.rewritePocket _ _ (Pocket.depart_sameCounts _ n cause)).noticeIfFree _ _
    · exact h
  · exact h

theorem dropPocket (h : s.WithinCapacities) (l : Location) (n : Nat) : (s.dropPocket l n).WithinCapacities := by
  unfold State.dropPocket
  split
  · split
    · exact (h.rewritePocket _ _ (Pocket.drop_sameCounts _)).noticeIfFree _ _
    · exact h
  · exact h

theorem beginBoundaries (h : s.WithinCapacities) (c : Nat) : (s.beginBoundaries c).WithinCapacities := by
  unfold State.beginBoundaries
  split
  · exact h.restartBoundary c
  · exact h

/-! ### The messages of the stations -/

theorem verify (h : s.WithinCapacities) (n : Nat) : (s.verify n).WithinCapacities := by
  unfold State.verify
  split
  · exact h
  · split
    next st place _ _ =>
      obtain ⟨-, -, -, -, hmagazine, -⟩ := h.station st
      dsimp only
      split
      · split
        · exact (((h.setMagazine st (tableSorted_tset _ _ hmagazine)).move n _ _).deliverRequest _).verifiedLife n
        · exact h
      · exact h
    · exact h

theorem call (h : s.WithinCapacities) (n type place : Nat) (prio : Priority) (offset minLife : Option Nat) :
    (s.call n type place prio offset minLife).1.WithinCapacities := by
  unfold State.call
  split
  · exact h
  · split
    · exact h
    · dsimp only
      split
      · exact h.merge _ _
      · exact h.enter _

theorem callCancel (h : s.WithinCapacities) (n place type : Nat) : (s.callCancel n place type).1.WithinCapacities := by
  unfold State.callCancel
  split
  · exact h
  · split
    · exact h
    · split
      · exact h
      · exact h.cancelRequest _ _

/-- R166: an ISSUED instance at its place is supplied with its data, where nothing stands against it. -/
theorem suppliedAtPlace (h : s.WithinCapacities) (n place tool : Nat) : (match s.tool tool with
      | some r' =>
        let queued := (s.station n).queue.any (fun t => t.kind.isDataOf tool)
        if r'.custody = Custody.issued ∧ queued = false ∧ r'.owed = false ∧ s.typeHeld r'.type = false then
          (s.supplyData n place tool, StationCode.ok)
        else (s, .ok)
      | none => (s, .ok)).1.WithinCapacities := by
  split
  · dsimp only
    split
    · exact h.supplyData n place tool
    · exact h
  · exact h

theorem loaded (h : s.WithinCapacities) (n tool place : Nat) : (s.loaded n tool place).1.WithinCapacities := by
  unfold State.loaded
  split
  · exact h
  · split
    · exact h
    next r _ =>
      split
      · exact h
      · split
        · split <;> exact h
        · split <;> exact h
        · split
          · refine suppliedAtPlace (State.WithinCapacities.verify ?_ tool) n place tool
            have hmoved := h.move tool r { cause := .stationLoaded, custody := .issued, loc := .station n place }
            obtain ⟨-, -, -, -, hmagazine, -⟩ := hmoved.station n
            split
            · exact hmoved
            · exact hmoved.setMagazine n (tableSorted_tset _ _ hmagazine)
          · exact h
        · exact h

/-- R167: an ISSUED instance that leaves its station loses its request. -/
theorem returned (h : s.WithinCapacities) (tool : Nat) (r : InstRec) :
    (if r.custody = .issued then (s.leftIssued tool).loseRequest r.link else s).WithinCapacities := by
  split
  · exact (h.leftIssued tool).loseRequest _
  · exact h

/-- R167: where an unloaded instance goes. -/
theorem homeward (h : s.WithinCapacities) (tool : Nat) (r : InstRec) (damaged : Bool) :
    (if r.life = 0 ∧ s.atLimit r then s.spentAtLimit tool
    else
      let s := if damaged then s.setIsc { s.isc with damaged := s.isc.damaged ++ [tool] } else s
      s.tryPutaway tool).WithinCapacities := by
  split
  · exact h.spentAtLimit tool
  · cases damaged
    · exact h.tryPutaway tool
    · exact (h.setIsc _).tryPutaway tool

theorem unload (h : s.WithinCapacities) (n tool : Nat) (r : InstRec) (damaged : Bool) : (s.unload n tool r damaged).WithinCapacities :=
  (((((h.setOwed tool false).dropMagazine n tool).cancelAt n (fun k => k.names tool)).transition tool { r with owed := false } _ _).returned
    tool { r with owed := false }).homeward tool { r with owed := false } damaged

theorem unloaded (h : s.WithinCapacities) (n tool place : Nat) (damaged : Bool) :
    (s.unloaded n tool place damaged).1.WithinCapacities := by
  unfold State.unloaded
  split
  · exact h
  · split
    · exact h
    · split
      · split
        · exact h.unload _ _ _ _
        · exact h
      · split
        · exact h.unload _ _ _ _
        · exact h
      · split <;> exact h
      · exact h

theorem confirmEntry (h : s.WithinCapacities) (n tool place generation : Nat) (blocked : Bool) :
    (s.confirmEntry n tool place generation blocked).WithinCapacities := by
  obtain ⟨-, -, -, -, hmagazine, -⟩ := h.station n
  exact h.setMagazine n (tableSorted_tset _ _ hmagazine)

theorem stored (h : s.WithinCapacities) (n tool place generation : Nat) : (s.stored n tool place generation).1.WithinCapacities := by
  unfold State.stored
  split
  · exact h
  next t _ =>
    split
    · dsimp only
      split_ifs
      · exact h.endTxn n t _ _
      · exact h.endTxn n t _ _
      · exact h.endTxn n t _ _
      · exact ((h.confirmEntry n tool place generation _).endTxn n t _ _).verify tool
    · exact h

theorem refusedData (h : s.WithinCapacities) (n tool place : Nat) (code : RefusedCode) :
    (s.refusedData n tool place code).1.WithinCapacities := by
  unfold State.refusedData
  split
  · exact h
  next t ht =>
    obtain ⟨hmem, -⟩ := State.inFlight_some ht
    split
    · split
      · cases code with
        | placeRange => exact h.endTxn n t _ _
        | placeOccupied => exact h.endTxn n t _ _
        | programActive =>
          dsimp only
          split
          · exact h.endTxn n t _ _
          · have hput := h.putTxn (t := { t with busyRetries := t.busyRetries + 1, holdOff := some (s.tick + 2000) }) hmem rfl rfl rfl
            refine (hput.returnTxn ?_ _).startTxn n
            rw [State.putTxn, State.setTxns_station, if_pos rfl]
            exact List.mem_map.2 ⟨t, hmem, if_pos rfl⟩
      · exact h
    · exact h

theorem holdAck (h : s.WithinCapacities) (n type : Nat) : (s.holdAck n type).1.WithinCapacities := by
  unfold State.holdAck
  split
  · exact h
  · split
    · split
      · exact h.endTxn n _ _ _
      · exact h
    · exact h

theorem stationEffect (h : s.WithinCapacities) (n : Nat) (m : StationMsg) : (s.stationEffect n m).1.WithinCapacities := by
  unfold State.stationEffect
  dsimp only
  split
  · exact h
  · cases m with
    | call type place prio offset minLife => exact h.call n type place prio offset minLife
    | callCancel place type => exact h.callCancel n place type
    | usage tool place units => exact h.usage n tool place units
    | loaded tool place => exact h.loaded n tool place
    | unloaded tool place damaged => exact h.unloaded n tool place damaged
    | stored tool place generation => exact h.stored n tool place generation
    | refused tool place code => exact h.refusedData n tool place code
    | holdAck type => exact h.holdAck n type

theorem stationMessage (h : s.WithinCapacities) (n message : Nat) (body : List Byte) : (s.stationMessage n message body).WithinCapacities := by
  unfold State.stationMessage
  split
  · exact h
  · exact (h.stationEffect n _).stationReply n _

end State.WithinCapacities

end Sys2Proof.Machine

/-! O57: the capacities of the part through the operations of the clock (R177 to R183) and of the station links (R135 to R151). -/

namespace Sys2Proof.Machine

theorem Hck.Within.withHall {k : Hck} (h : k.Within) {t : HallTime} (ht : t.sec < 4294967296 ∧ t.ms < 1000) :
    Hck.Within { k with hall := t } := ⟨ht.1, ht.2, h.2.2⟩

theorem Hck.Within.withTol {k : Hck} (h : k.Within) {tol : Nat} (h1 : 1 ≤ tol) (h2 : tol ≤ 20) : Hck.Within { k with tol := tol } := by
  obtain ⟨hsec, hms, hpending, -, -, hpaths⟩ := h
  exact ⟨hsec, hms, hpending, h1, h2, hpaths⟩

theorem Hck.Within.withPending {k : Hck} (h : k.Within) {v : Option Nat} (hv : ∀ x ∈ v, x < 4294967296) :
    Hck.Within { k with setPending := v } := by
  obtain ⟨hsec, hms, -, hrest⟩ := h
  exact ⟨hsec, hms, hv, hrest⟩

theorem Link.Within.withApplied {l : Link} (h : l.Within) {a : List Nat} (ha : a.length ≤ 8) : Link.Within { l with applied := a } := by
  obtain ⟨hreturns, houtstanding, hdensity, -, hrest⟩ := h
  exact ⟨hreturns, houtstanding, hdensity, ha, hrest⟩

theorem Link.Within.withReturns {l : Link} (h : l.Within) {r : List ReturnVerdict} (hr : r.length ≤ 4) :
    Link.Within { l with returns := r } := ⟨hr, h.2⟩

theorem Link.Within.withCount {l : Link} (h : l.Within) {c : Nat} (hc : c ≤ 200) : Link.Within { l with acqCount := c } := by
  obtain ⟨hreturns, houtstanding, hdensity, happlied, -, hrest⟩ := h
  exact ⟨hreturns, houtstanding, hdensity, happlied, hc, hrest⟩

theorem Link.Within.withNumber {l : Link} (h : l.Within) {k : Nat} (h1 : 1 ≤ k) (h2 : k ≤ 255) : Link.Within { l with outNumber := k } := by
  obtain ⟨hreturns, houtstanding, hdensity, happlied, hcount, -, -, hexpected⟩ := h
  exact ⟨hreturns, houtstanding, hdensity, happlied, hcount, h1, h2, hexpected⟩

theorem State.offer_slc {s t : State} {n : Nat} {b : List Byte} {o : BlockOrigin} (h : s.offer n = some (b, o, t)) : t.slc = s.slc := by
  unfold State.offer at h
  dsimp only at h
  split at h
  · cases h
    rfl
  · split at h
    · split at h
      · cases h
      · cases h
        rfl
    · cases h

namespace State.WithinCapacities

variable {s : State}

/-! ### The clock -/

theorem path (h : s.WithinCapacities) (l : PulseLine) : (s.path l).Within := by
  obtain ⟨-, -, -, -, -, hprimary, hsecondary⟩ := h.hck
  cases l with
  | primary => exact hprimary
  | secondary => exact hsecondary

theorem setPath (h : s.WithinCapacities) (l : PulseLine) {p : Path} (hp : p.Within) : (s.setPath l p).WithinCapacities := by
  obtain ⟨hsec, hms, hpending, h1, h2, hprimary, hsecondary⟩ := h.hck
  cases l with
  | primary => exact h.setHck ⟨hsec, hms, hpending, h1, h2, hp, hsecondary⟩
  | secondary => exact h.setHck ⟨hsec, hms, hpending, h1, h2, hprimary, hp⟩

theorem reportTime (h : s.WithinCapacities) (before : TimeState) (diff : Option Int) (cause : TimeCause) :
    (s.reportTime before diff cause).WithinCapacities := h.report _

theorem timeTakes (h : s.WithinCapacities) {second : Nat} (hsecond : second < 4294967296) (last : Option Int) :
    (s.timeTakes second last).WithinCapacities := by
  have hset : Hck.Within { s.hck with hall := ⟨second, 0⟩, setPending := none, lastDiscipline := last } :=
    (h.hck.withHall (t := ⟨second, 0⟩) ⟨hsecond, Nat.zero_lt_succ _⟩).withPending (v := none) (by simp)
  exact ((h.setHck hset).reportTime _ _ _).expiryTest

theorem settlePending (h : s.WithinCapacities) : s.settlePending.WithinCapacities := by
  unfold State.settlePending
  split
  next v _ hv => exact h.timeTakes (h.hck.2.2.1 v hv) none
  next => exact h

theorem selection (h : s.WithinCapacities) (cause : TimeCause) (always : Bool) : (s.selection cause always).WithinCapacities := by
  have hselected : (if s.hck.state = .unset then s else s.setHck s.hck.selected).WithinCapacities := by
    split
    · exact h
    · exact h.setHck h.hck.selected
  unfold State.selection
  dsimp only
  generalize (if s.hck.state = .unset then s else s.setHck s.hck.selected) = u at hselected ⊢
  have hreported : (if (always || u.hck.state != s.hck.state) = true then u.reportTime s.hck.state none cause else u).WithinCapacities := by
    split
    · exact hselected.reportTime _ _ _
    · exact hselected
  generalize (if (always || u.hck.state != s.hck.state) = true then u.reportTime s.hck.state none cause else u) = v at hreported ⊢
  split
  · exact hreported.settlePending
  · exact hreported

theorem stepPath (h : s.WithinCapacities) (l : PulseLine) {p : Path} (hp : p.Within) : (s.stepPath l p).WithinCapacities := by
  unfold State.stepPath
  dsimp only
  split
  · exact h.setPath l hp
  · exact (h.setPath l hp).selection _ _

theorem reportShift (h : s.WithinCapacities) (shift : Int) : (s.reportShift shift).WithinCapacities := by
  unfold State.reportShift
  split
  · exact (h.setHck (k := { s.hck with shiftOwed := false }) h.hck).reportTime _ _ _
  · exact h

theorem setHall (h : s.WithinCapacities) {t : HallTime} (ht : t.sec < 4294967296 ∧ t.ms < 1000) :
    (s.setHck { s.hck with hall := t }).WithinCapacities := h.setHck (h.hck.withHall ht)

theorem discipline (h : s.WithinCapacities) : s.discipline.WithinCapacities := by
  obtain ⟨hsec, hms, hpending, -⟩ := h.hck
  unfold State.discipline
  dsimp only
  split
  next v hv =>
    have hset := (h.setHall (t := ⟨v, 0⟩) ⟨hpending v hv, Nat.zero_lt_succ _⟩).reportShift ((⟨v, 0⟩ : HallTime).millis - s.hck.hall.millis)
    exact (hset.setHall (t := s.hck.hall) ⟨hsec, hms⟩).timeTakes (hpending v hv) _
  next =>
    have hrounded : Hck.Within { s.hck with hall := s.hck.hall.rounded, lastDiscipline := some (s.tick : Int) } :=
      h.hck.withHall (HallTime.rounded_lt hsec)
    have hset := (h.setHck hrounded).reportShift s.hck.hall.shift
    split
    · exact hset
    · exact hset.expiryTest

theorem pulse (h : s.WithinCapacities) (l : PulseLine) : (s.pulse l).WithinCapacities := by
  have hstepped := h.stepPath l ((h.path l).pulse s.hck.tol s.tick)
  unfold State.pulse
  dsimp only
  split
  · exact hstepped.discipline
  · exact hstepped

theorem fireDeadline (h : s.WithinCapacities) (l : PulseLine) : (s.fireDeadline l).WithinCapacities := by
  unfold State.fireDeadline
  split
  · exact h.stepPath l ((h.path l).missed _ _)
  · exact h

theorem setTime (h : s.WithinCapacities) {second : Nat} (hsecond : second < 4294967296) : (s.setTime second).1.WithinCapacities := by
  have htaken := h.timeTakes hsecond none
  unfold State.setTime
  split
  · exact h.setHck (h.hck.withPending (by simpa using hsecond))
  · dsimp only
    split
    · exact (htaken.setHck htaken.hck.selected).reportTime _ _ _
    · exact htaken

theorem retime (h : s.WithinCapacities) (l : PulseLine) : (s.retime l).WithinCapacities :=
  (h.setPath l (p := { s.path l with deadline := deadlineAfter s.hck.tol (s.path l).base }) (h.path l)).fireDeadline l

theorem setTolerance (h : s.WithinCapacities) {tol : Nat} (h1 : 1 ≤ tol) (h2 : tol ≤ 20) : (s.setTolerance tol).WithinCapacities :=
  ((h.setHck (h.hck.withTol h1 h2)).retime .primary).retime .secondary

theorem setRevertive (h : s.WithinCapacities) (revertive : Bool) : (s.setRevertive revertive).WithinCapacities := by
  unfold State.setRevertive
  split
  · exact h
  · exact (h.setHck (k := { s.hck with revertive := revertive }) h.hck).selection _ _

theorem setClock (h : s.WithinCapacities) (tol revertive : Option Nat) : (s.setClock tol revertive).1.WithinCapacities := by
  have htimed (ht : ∀ t ∈ tol, within 1 20 t = true) : (match tol with
      | some t => s.setTolerance t
      | none => s).WithinCapacities := by
    cases tol with
    | none => exact h
    | some t =>
      have := ht t rfl
      simp only [within, Bool.and_eq_true, decide_eq_true_eq] at this
      exact h.setTolerance this.1 this.2
  unfold State.setClock
  dsimp only
  split
  next hfits =>
    rw [Bool.and_eq_true] at hfits
    have hset := htimed fun t ht => by
      subst ht
      exact hfits.1
    cases revertive with
    | none => exact hset
    | some v => exact hset.setRevertive _
  next => exact h

/-! ### Changes of link state -/

theorem modLink (h : s.WithinCapacities) (n : Nat) {f : Link → Link} (hf : ∀ l : Link, l.Within → (f l).Within) :
    (s.modLink n f).WithinCapacities := h.setLink n (hf _ (h.link n))

theorem changeLink (h : s.WithinCapacities) (n : Nat) (after : LinkState) (cause : LinkCause) {f : Link → Link}
    (hf : ∀ l : Link, l.Within → (f l).Within) : (s.changeLink n after cause f).WithinCapacities := by
  have hset := (h.setLink n (hf { (s.link n).stopped with state := after } (h.link n).stopped)).report
    (.linkState n (s.link n).state after cause (s.link n).bad)
  unfold State.changeLink
  dsimp only
  split
  · exact hset.linkStopped n
  · split
    · exact hset.linkStarted n
    · exact hset

theorem toSearching (h : s.WithinCapacities) (n : Nat) (cause : LinkCause) : (s.toSearching n cause).WithinCapacities :=
  h.changeLink n _ _ fun _ hl => hl.unframed

theorem toEcho (h : s.WithinCapacities) (n : Nat) (cause : LinkCause) : (s.toEcho n cause).WithinCapacities :=
  h.changeLink n _ _ fun _ hl => (hl.withReturns (r := []) (Nat.zero_le _)).withDensity (d := []) (Nat.zero_le _)

theorem fireLinkSilence (h : s.WithinCapacities) (n : Nat) : (s.fireLinkSilence n).WithinCapacities := by
  unfold State.fireLinkSilence
  split
  · exact h.changeLink n _ _ fun _ hl => ((hl.unframed.withReturns (r := []) (Nat.zero_le _)).withDensity (d := []) (Nat.zero_le _)).withApplied
      (a := []) (Nat.zero_le _)
  · exact h

theorem fireAcquire (h : s.WithinCapacities) (n : Nat) : (s.fireAcquire n).WithinCapacities := by
  unfold State.fireAcquire
  split
  · split
    · exact h.changeLink n _ _ fun _ hl => hl.withCount (c := 0) (Nat.zero_le _)
    · exact h.toEcho n _
  · exact h

/-! ### Verdicts and failures -/

theorem densityTest (h : s.WithinCapacities) (n : Nat) : (s.densityTest n).WithinCapacities := by
  unfold State.densityTest
  split
  · exact h.toSearching n _
  · exact h

/-- An outstanding entry leaves the list. -/
theorem dropEntry (h : s.WithinCapacities) (n : Nat) (e : Outstanding) :
    (s.modLink n (fun l => { l with outstanding := l.outstanding.filter (fun x => x ≠ e) })).WithinCapacities :=
  h.modLink n fun _ hl => hl.withOutstanding ((List.length_filter_le _ _).trans hl.2.1)

theorem failEntry (h : s.WithinCapacities) (n : Nat) (e : Outstanding) : (s.failEntry n e).WithinCapacities := by
  unfold State.failEntry
  split
  · exact h.modLink n fun _ hl => hl.withOutstanding ((List.length_map _).trans_le hl.2.1)
  · dsimp only
    split
    · exact (h.dropEntry n e).sendFailed n _
    · exact h.dropEntry n e

theorem confirmOutstanding (h : s.WithinCapacities) (n : Nat) (e : Outstanding) : (s.confirmEntry' n e).WithinCapacities := by
  unfold State.confirmEntry'
  dsimp only
  split
  · exact (h.dropEntry n e).delivered n _
  · exact h.dropEntry n e

theorem settleVerdict (h : s.WithinCapacities) (n position : Nat) (good : Bool) : (s.settleVerdict n position good).WithinCapacities := by
  unfold State.settleVerdict
  split
  · split
    · exact h.confirmOutstanding n _
    · exact h.failEntry n _
  · exact h

theorem takeData (h : s.WithinCapacities) (n : Nat) (b : List Byte) : (s.takeData n b).WithinCapacities := by
  have hlast (a : List Nat) : (a.drop (a.length - 8)).length ≤ 8 := by
    rw [List.length_drop]
    omega
  unfold State.takeData
  dsimp only
  split
  · exact h
  · exact (h.setLink n ((h.link n).withApplied (hlast _))).stationMessage n _ _

/-- R142: what a block judged GOOD does by its kind. -/
theorem checkedKind (h : s.WithinCapacities) (n : Nat) (b : List Byte) : (match blockKindOf b with
    | .data => s.takeData n b
    | _ => s).WithinCapacities := by
  split
  · exact h.takeData n b
  · exact h

theorem takeChecked (h : s.WithinCapacities) (n : Nat) (b : List Byte) : (s.takeChecked n b).WithinCapacities := by
  unfold State.takeChecked
  dsimp only
  refine State.WithinCapacities.checkedKind ?_ n b
  split
  · exact h.settleVerdict n _ _
  · exact h

theorem judgeEcho (h : s.WithinCapacities) (n : Nat) (b : List Byte) : (s.judgeEcho n b).1.WithinCapacities := by
  unfold State.judgeEcho
  split
  · split_ifs
    · exact h.confirmOutstanding n _
    · exact h.failEntry n _
    · exact h
  · exact h

/-- R147: what a well-formed block in ECHO does by its kind. -/
theorem echoKind (h : s.WithinCapacities) (n : Nat) (b : List Byte) : ((match blockKindOf b with
    | .fill => s.modLink n (fun l => l.addDensity true)
    | .data => s.modLink n (fun l => ({ l with held := some { bytes := b, echoed := none } } : Link).addDensity true)
    | .echo =>
      let out := s.judgeEcho n b
      out.1.modLink n (fun l =>
        (l.addVerdict { position := blockPosition b, good := out.2, kind := .echo }).addDensity out.2)).densityTest n).WithinCapacities := by
  refine State.WithinCapacities.densityTest ?_ n
  split
  · exact h.modLink n fun l hl => hl.addDensity true
  · exact h.modLink n fun l hl => Link.Within.addDensity (l := { l with held := some { bytes := b, echoed := none } }) hl true
  · exact (h.judgeEcho n b).modLink n fun l hl => (hl.addVerdict _).addDensity _

theorem takeEcho (h : s.WithinCapacities) (n : Nat) (b : List Byte) : (s.takeEcho n b).WithinCapacities := by
  have hreleased := h.modLink n (f := fun l => { l with held := none }) fun _ hl => hl
  unfold State.takeEcho
  dsimp only
  refine State.WithinCapacities.echoKind ?_ n b
  split
  · split
    · split
      · exact hreleased.takeData n _
      · exact hreleased
    · exact h
  · exact h

/-! ### Incoming block positions -/

/-- R137: the judgement of a block position that is not well-formed, once the held block has been judged. -/
theorem brokenPosition (h : s.WithinCapacities) (n position : Nat) (b : List Byte) :
    (if (s.link n).state = .searching then s
    else
      let s := s.modLink n (fun l => ({ l with misses := l.misses + 1 } : Link).judgeBroken b position)
      if 3 ≤ (s.link n).misses then s.toSearching n .framingLost else s.densityTest n).WithinCapacities := by
  have hjudged := h.modLink n (f := fun l => ({ l with misses := l.misses + 1 } : Link).judgeBroken b position)
    fun l hl => Link.Within.judgeBroken (l := { l with misses := l.misses + 1 }) hl b position
  split
  · exact h
  · dsimp only
    split
    · exact hjudged.toSearching n _
    · exact hjudged.densityTest n

theorem brokenBlock (h : s.WithinCapacities) (n position : Nat) (b : List Byte) : (s.brokenBlock n position b).WithinCapacities := by
  unfold State.brokenBlock
  refine State.WithinCapacities.brokenPosition ?_ n position b
  split
  · exact h
  next k _ _ =>
    exact (h.modLink n (f := fun l => { l.judgeHeld k false with held := none }) fun l hl => hl.judgeHeld k false).densityTest n
  · exact h

theorem goodBlock (h : s.WithinCapacities) (n : Nat) (b : List Byte) : (s.goodBlock n b).WithinCapacities := by
  have hl : Link.Within { s.link n with misses := 0 } := h.link n
  unfold State.goodBlock
  dsimp only
  split
  · exact h.setLink n (h.link n)
  next k _ =>
    have hset (ok : Bool) := h.setLink n
      (r := { Link.judgeHeld { s.link n with misses := 0 } k ok with held := some { bytes := b, echoed := none } }) (hl.judgeHeld k ok)
    split
    · split
      · exact (hset _).changeLink n _ _ fun _ hx => hx.withDensity (d := []) (Nat.zero_le _)
      · exact hset _
    · split
      · exact ((hset _).densityTest n).takeChecked n _
      · exact (hset _).densityTest n

theorem takeBlock (h : s.WithinCapacities) (n : Nat) (b : List Byte) : (s.takeBlock n b).WithinCapacities := by
  have hfired := h.fireAcquire n
  unfold State.takeBlock
  dsimp only
  generalize s.fireAcquire n = u at hfired ⊢
  have hnext : ((u.setLink n { u.link n with expected := (u.link n).expected.map (fun e => (e + 1) % 8) }).modLink n
      (fun l => l.seeing b)).WithinCapacities := by
    refine State.WithinCapacities.modLink (hfired.setLink n ((hfired.link n).expecting _ ?_)) n fun l hl => hl.seeing b
    intro x hx
    obtain ⟨e, -, rfl⟩ := Option.map_eq_some_iff.1 hx
    exact Nat.mod_lt _ (by decide)
  generalize ((u.setLink n { u.link n with expected := (u.link n).expected.map (fun e => (e + 1) % 8) }).modLink n
      (fun l => l.seeing b)) = v at hnext ⊢
  split
  · split
    · exact (hnext.modLink n (f := fun l => { l with misses := 0 }) fun _ hl => hl).takeEcho n b
    · exact hnext.goodBlock n b
  · exact hnext.brokenBlock n _ b

/-! ### The search -/

theorem align (h : s.WithinCapacities) (n : Nat) : (s.align n).WithinCapacities := by
  have hcut := h.setLink n (r := { s.link n with rx := (s.link n).rx.drop 96 }) (h.link n)
  have hframed (b : List Byte) (held : Option HeldBlock) (l : Link) (hl : l.Within) :
      Link.Within { l with expected := some ((blockPosition b + 1) % 8), misses := 0, acqRun := 0, acqCount := 0, density := [],
                           held := held } :=
    ((hl.expecting (some ((blockPosition b + 1) % 8)) fun x hx => (Option.some.inj hx) ▸ Nat.mod_lt _ (by decide)).withDensity
      (d := []) (Nat.zero_le _)).withCount (c := 0) (Nat.zero_le _)
  unfold State.align
  dsimp only
  split
  · exact (hcut.changeLink n _ _ (hframed _ none)).takeEcho n _
  · exact hcut.changeLink n _ _ (hframed _ _)

theorem pump (h : s.WithinCapacities) (n turns : Nat) : (s.pump n turns).WithinCapacities := by
  induction turns generalizing s with
  | zero => exact h
  | succ k ih =>
    unfold State.pump
    dsimp only
    split
    · exact h
    · split
      · exact h
      · have hseen := h.modLink n (f := fun l => l.seeing l.rx) fun l hl => hl.seeing l.rx
        split
        · exact hseen
        · exact ih (hseen.modLink n (f := fun l => { l with rx := l.rx.drop 1 }) fun _ hl => hl)
        · exact ih (hseen.align n)
    · split
      · exact h
      · exact ih ((h.setLink n (r := { s.link n with rx := (s.link n).rx.drop 32 }) (h.link n)).takeBlock n _)

theorem linkBytes (h : s.WithinCapacities) (n : Nat) (bytes : List Byte) : (s.linkBytes n bytes).WithinCapacities := by
  unfold State.linkBytes
  split
  · exact h
  · have hreceived := h.modLink n (f := fun l => { l with rx := l.rx ++ bytes, lastByte := some s.tick }) fun _ hl => hl
    dsimp only
    split
    · exact (hreceived.changeLink n _ _ (f := id) fun _ hl => hl).pump n _
    · exact hreceived.pump n _

/-! ### Sending -/

theorem fireOutstanding (h : s.WithinCapacities) (n : Nat) : (s.fireOutstanding n).WithinCapacities :=
  h.foldl fun _ e hu => hu.failEntry n e

theorem fireEchoHeld (h : s.WithinCapacities) (n : Nat) : (s.fireEchoHeld n).WithinCapacities := by
  unfold State.fireEchoHeld
  split
  · exact h.modLink n fun _ hl => hl
  · exact h

theorem resendOldest (h : s.WithinCapacities) {n : Nat} {out : State × Outgoing} (hout : s.resendOldest n = some out) :
    out.1.WithinCapacities := by
  unfold State.resendOldest at hout
  dsimp only at hout
  split at hout
  · cases hout
    exact h.setLink n ((h.link n).withOutstanding ((List.length_map _).trans_le (h.link n).2.1))
  · cases hout

theorem sendNew (h : s.WithinCapacities) {n room : Nat} (hroom : room ≤ 4) {out : State × Outgoing} (hout : s.sendNew n room = some out) :
    out.1.WithinCapacities := by
  unfold State.sendNew at hout
  split at hout
  next hlength =>
    split at hout
    next body origin u hoffer =>
      cases hout
      have hu := h.offer hoffer
      have hlink : u.link n = s.link n := congrArg (fun l : Slc => dget Link.reset l.links n) (State.offer_slc hoffer)
      have hlength (e : Outstanding) : ((u.link n).outstanding ++ [e]).length ≤ 4 := by
        rw [hlink, List.length_append, List.length_singleton]
        omega
      obtain ⟨h1, h2⟩ := cyclicNext_bounds (top := 255) (by decide) (u.link n).outNumber
      exact hu.setLink n (((hu.link n).withOutstanding (hlength _)).withNumber h1 h2)
    next => cases hout
  next => cases hout

theorem sendEcho (h : s.WithinCapacities) {n : Nat} {out : State × Outgoing} (hout : s.sendEcho n = some out) :
    out.1.WithinCapacities := by
  unfold State.sendEcho at hout
  dsimp only at hout
  split at hout
  · split at hout
    · cases hout
      exact h.setLink n (h.link n)
    · cases hout
  · cases hout

theorem chooseBlock (h : s.WithinCapacities) (n : Nat) : (s.chooseBlock n).1.WithinCapacities := by
  unfold State.chooseBlock
  split
  · cases hr : s.resendOldest n with
    | some out => exact h.resendOldest hr
    | none =>
      cases hn : s.sendNew n 4 with
      | some out => exact h.sendNew le_rfl hn
      | none => exact h
  · cases he : s.sendEcho n with
    | some out => exact h.sendEcho he
    | none =>
      cases hr : s.resendOldest n with
      | some out => exact h.resendOldest hr
      | none =>
        cases hn : s.sendNew n 1 with
        | some out => exact h.sendNew (by decide) hn
        | none => exact h
  · exact h

theorem sendBlock (h : s.WithinCapacities) (n : Nat) : (s.sendBlock n).WithinCapacities := by
  have hchosen := h.chooseBlock n
  have hreturns : (((s.chooseBlock n).1.link n).returns.drop 1).length ≤ 4 :=
    (List.length_drop ▸ Nat.sub_le _ _).trans (hchosen.link n).1
  exact hchosen.setLink n ((hchosen.link n).withReturns hreturns)

theorem firePeriod (h : s.WithinCapacities) (n : Nat) : (s.firePeriod n).WithinCapacities := by
  unfold State.firePeriod
  split
  · exact ((h.fireOutstanding n).fireEchoHeld n).sendBlock n
  · exact h

theorem setPolicy (h : s.WithinCapacities) (n : Nat) (p : Policy) : (s.setPolicy n p).WithinCapacities := by
  have hset := h.modLink n (f := fun l => { l with policy := p }) fun _ hl => hl
  unfold State.setPolicy
  dsimp only
  split
  · exact hset.toEcho n _
  · exact hset

theorem linkRestart (h : s.WithinCapacities) (n : Nat) : (s.linkRestart n).1.WithinCapacities := by
  unfold State.linkRestart
  split
  · exact h
  · exact h.modLink n fun _ hl => hl
  · exact (h.toSearching n _).modLink n fun _ hl => hl

end State.WithinCapacities

end Sys2Proof.Machine

/-! O57: the capacities of the part through the operations of the heads (R77 to R105) and of the port (R187 to R203). -/

namespace Sys2Proof.Machine

theorem Head.reset_within : Head.reset.Within := ⟨by decide, by decide, by simp [Head.reset], by simp [Head.reset], by simp [Head.reset]⟩

theorem Head.Within.withSession {r : Head} (h : r.Within) {x : Option Session} (hx : ∀ q ∈ x, q.captures.length ≤ 32) :
    Head.Within { r with session := x } := by
  obtain ⟨hrange, hoffsets, -, hcurves⟩ := h
  exact ⟨hrange, hoffsets, hx, hcurves⟩

theorem Head.Within.withSettings {r : Head} (h : r.Within) {new : HeadSettings} (hrange : new.inRange = true)
    (hoffsets : new.offsets.length = 16) : Head.Within { r with settings := new } := ⟨hrange, hoffsets, h.2.2⟩

theorem Hoe.reset_within : State.reset.hoe.Within :=
  ⟨fun _ h => (List.not_mem_nil h).elim, rfl, by decide, by decide, by decide, by decide⟩

theorem queueKept_nil (entries : Nat) : QueueKept [] entries :=
  ⟨Nat.zero_le _, List.nodup_nil, by simp, List.Pairwise.nil, by simp, by simp⟩

theorem State.reset_withinCapacities : State.reset.WithinCapacities :=
  ⟨Svp.powerOn_within _, by simp [Hck.Within, Path.Within, State.reset, Hck.powerOn, Path.powerOn],
    (Psc.within_iff _).2 ⟨rfl, rfl, fun _ => Cabinet.reset_within, fun _ => Pocket.reset_within _⟩,
    fun k => by cases k <;> exact Head.reset_within, fun _ => Link.reset_within, Hoe.reset_within, fun _ => queueKept_nil _⟩

namespace State.WithinCapacities

variable {s : State}

theorem sendHead (h : s.WithinCapacities) (k : HeadId) (frame : List Byte) : (s.sendHead k frame).WithinCapacities := by
  cases k <;> exact h

theorem sendSession (h : s.WithinCapacities) (k : HeadId) : (s.sendSession k).WithinCapacities := h.sendHead k _

theorem sendResult (h : s.WithinCapacities) (k : HeadId) (r : Result) : (s.sendResult k r).WithinCapacities := h.sendHead k _

/-! ### Zeros and sessions -/

theorem testZero (h : s.WithinCapacities) (k : HeadId) (cause : ZeroReason) : (s.testZero k cause).WithinCapacities := by
  unfold State.testZero
  dsimp only
  split
  · exact h
  · exact (h.setHead k (r := { s.head k with zeroOk := (s.head k).zeroValid s.tick }) (h.head k)).report _

theorem setScaleTemp (h : s.WithinCapacities) (k : HeadId) (t : Int) : (s.setScaleTemp k t).WithinCapacities :=
  (h.setHead k (r := { s.head k with scaleTemp := some t }) (h.head k)).testZero k _

theorem setSession (h : s.WithinCapacities) (k : HeadId) {x : Session} (hx : x.captures.length ≤ 32) :
    (s.setSession k x).WithinCapacities := h.setHead k ((h.head k).withSession fun _ hq => (Option.some.inj hq) ▸ hx)

theorem idleSession (h : s.WithinCapacities) (k : HeadId) : (s.idleSession k).WithinCapacities :=
  (h.setHead k ((h.head k).withSession (x := none) (by simp))).sendSession k

theorem closeMeasure (h : s.WithinCapacities) (k : HeadId) (x : Session) (n : Nat) (cause : CloseCause) (acted : Option Verdict)
    (m : Move) (also : InstRec → InstRec) : (s.closeMeasure k x n cause acted m also).WithinCapacities := by
  unfold State.closeMeasure
  split
  · exact h.idleSession k
  · exact (((((h.transition n _ m also).report _).idleSession k).settleMarks n).announce n)

theorem abandonSession (h : s.WithinCapacities) (k : HeadId) (cause : CloseCause) : (s.abandonSession k cause).WithinCapacities := by
  unfold State.abandonSession
  split
  · exact h
  · split
    · exact h.closeMeasure k _ _ _ _ _ _
    · exact (h.idleSession k).report _

theorem testAvailable (h : s.WithinCapacities) (k : HeadId) (before : Bool) : (s.testAvailable k before).WithinCapacities := by
  unfold State.testAvailable
  dsimp only
  split
  · exact h
  · split
    · exact h.report _
    · exact (h.report _).abandonSession k _

theorem takeStatus (h : s.WithinCapacities) (k : HeadId) (ready : Bool) (temp : Int) : (s.takeStatus k ready temp).WithinCapacities := by
  have hline (l : HeadLine) := (h.setHead k (r := { s.head k with line := l, lastFrame := some s.tick }) (h.head k)).testAvailable k
    (s.head k).available
  unfold State.takeStatus
  dsimp only
  split
  · split
    · exact (hline _).setScaleTemp k temp
    · exact ((hline _).setScaleTemp k temp).sendSession k
  · exact hline _

theorem fireSilence (h : s.WithinCapacities) (k : HeadId) : (s.fireSilence k).WithinCapacities := by
  unfold State.fireSilence
  split
  · exact (h.setHead k (r := { s.head k with line := .silent }) (h.head k)).testAvailable k _
  · exact h

theorem fireLapse (h : s.WithinCapacities) (k : HeadId) : (s.fireLapse k).WithinCapacities := by
  unfold State.fireLapse
  split
  · exact h.testZero k _
  · exact h

/-! ### Captures -/

theorem setZero (h : s.WithinCapacities) (k : HeadId) (x : Session) (cs : List (Nat × Capture)) (temp : Int) :
    (s.setZero k x cs temp).WithinCapacities :=
  ((((h.setHead k (r := { s.head k with zero := some _ }) (h.head k)).sendHead k _).idleSession k).report _).testZero k _

theorem judge (h : s.WithinCapacities) (k : HeadId) {x : Session} (hx : x.captures.length ≤ 32) (tool : Nat)
    (cs : List (Nat × Capture)) : (s.judge k x tool cs).WithinCapacities := by
  unfold State.judge
  split
  · exact h
  · split
    · exact h
    · exact (((h.setSession k (x := { x with result := some _, state := _, windowStart := _ }) hx).sendResult k _).sendSession k).report _

theorem captureLimit (h : s.WithinCapacities) (k : HeadId) {x : Session} (hx : x.captures.length ≤ 32) :
    (s.captureLimit k x).WithinCapacities := by
  unfold State.captureLimit
  dsimp only
  split
  · exact (((h.setSession k (x := { x with result := some _, state := .evaluated }) hx).sendResult k _).sendSession k).report _
  · exact ((h.sendResult k _).idleSession k).report _

theorem storeCapture (h : s.WithinCapacities) (k : HeadId) {x : Session} (hx : x.captures.length < 32) (c : Capture) :
    (s.storeCapture k x c).WithinCapacities := by
  have hroom : ({ x with captures := x.captures ++ [c] } : Session).captures.length ≤ 32 := by
    rw [List.length_append]
    exact hx
  have hstored := (h.setSession k hroom).sendSession k
  unfold State.storeCapture
  dsimp only
  split
  · exact hstored
  · split
    · exact hstored.judge k hroom _ _
    · exact hstored.setZero k _ _ _

theorem takeCapture (h : s.WithinCapacities) (k : HeadId) (z x : BitVec 24) (spindle scaleTemp toolTemp : BitVec 16) (flags : Byte) :
    (s.takeCapture k z x spindle scaleTemp toolTemp flags).WithinCapacities := by
  have hframed := h.setHead k (r := { s.head k with lastFrame := some s.tick }) (h.head k)
  obtain ⟨-, -, hsession, -⟩ := h.head k
  unfold State.takeCapture
  dsimp only
  split
  · exact hframed
  · exact hframed
  · have hset := hframed.setScaleTemp k scaleTemp.toInt
    split
    · exact hset.sendSession k
    next q hq =>
      split
      · exact hset.sendSession k
      · split
        next hroom => exact hset.storeCapture k hroom _
        next => exact hset.captureLimit k (hsession q hq)

/-! ### Bytes of the head lines -/

theorem setRx (h : s.WithinCapacities) (k : HeadId) (rx : List Byte) : (s.setHead k { s.head k with rx := rx }).WithinCapacities :=
  h.setHead k (h.head k)

theorem headPayload (h : s.WithinCapacities) (k : HeadId) {p : List Byte} {t : State} (ht : s.headPayload k p = some t) :
    t.WithinCapacities := by
  unfold State.headPayload at ht
  split at ht
  · split at ht
    · cases ht
      exact h.takeCapture k _ _ _ _ _ _
    · cases ht
  · split at ht
    · cases ht
      exact h.takeStatus k _ _
    · cases ht
      exact h.takeStatus k _ _
    · cases ht
  · cases ht

theorem headPump (h : s.WithinCapacities) (k : HeadId) (turns : Nat) : (s.headPump k turns).WithinCapacities := by
  induction turns generalizing s with
  | zero => exact h
  | succ m ih =>
    unfold State.headPump
    dsimp only
    split
    · exact h
    · exact ih (h.setRx k _)
    · exact ih (h.setRx k _)
    · split
      next ht => exact ih ((h.setRx k _).headPayload k ht)
      next => exact ih (h.setRx k _)

theorem fireHeadBytes (h : s.WithinCapacities) (k : HeadId) : (s.fireHeadBytes k).WithinCapacities := by
  unfold State.fireHeadBytes
  split
  · exact h.setRx k _
  · exact h

theorem headBytes (h : s.WithinCapacities) (k : HeadId) (bs : List Byte) : (s.headBytes k bs).WithinCapacities := by
  have hfired := h.fireHeadBytes k
  unfold State.headBytes
  split
  · exact h
  · exact (hfired.setHead k (r := { (s.fireHeadBytes k).head k with rx := ((s.fireHeadBytes k).head k).rx ++ bs, rxTick := _ })
      (hfired.head k)).headPump k _

theorem headFailed (h : s.WithinCapacities) (k : HeadId) (frame : List Byte) : (s.headFailed k frame).WithinCapacities :=
  (h.setHead k (r := { s.head k with rx := frame.drop 1, rxTick := s.tick }) (h.head k)).headPump k _

/-! ### The commands of presetting -/

theorem removeZero (h : s.WithinCapacities) (k : HeadId) : (s.removeZero k).WithinCapacities := by
  have hset := h.setHead k (r := { s.head k with zero := none, zeroOk := false }) (h.head k)
  unfold State.removeZero
  dsimp only
  split
  · exact hset.report _
  · exact hset

/-- R99: the curve of an axis has the entries of its axis. -/
theorem loadCurve (h : s.WithinCapacities) (k : HeadId) {axis : Nat} {values : List Int}
    (hvalues : values.length = if axis = 0 then 17 else 9) : (s.loadCurve k axis values).WithinCapacities := by
  obtain ⟨hrange, hoffsets, hsession, hz, hx⟩ := h.head k
  have hset : (s.setHead k (if axis = 0 then { s.head k with zCurve := some values } else { s.head k with xCurve := some values })
      ).WithinCapacities := by
    split_ifs at hvalues ⊢
    · exact h.setHead k ⟨hrange, hoffsets, hsession, fun c hc => (Option.some.inj hc) ▸ hvalues, hx⟩
    · exact h.setHead k ⟨hrange, hoffsets, hsession, hz, fun c hc => (Option.some.inj hc) ▸ hvalues⟩
  exact (hset.removeZero k).testAvailable k _

theorem setCurve (h : s.WithinCapacities) (head axis : Nat) (values : List Int) : (s.setCurve head axis values).1.WithinCapacities := by
  unfold State.setCurve
  split
  · exact h
  · split
    · exact h
    · split
      · exact h
      · by_cases hlength : values.length = if axis = 0 then 17 else 9
        · rw [if_neg (not_not.2 hlength)]
          split
          · exact h.loadCurve _ hlength
          · exact h
        · rw [if_pos hlength]
          exact h

theorem putHeadSettings (h : s.WithinCapacities) (k : HeadId) {new : HeadSettings} (hrange : new.inRange = true)
    (hoffsets : new.offsets.length = 16) : (s.putHeadSettings k new).WithinCapacities :=
  (h.setHead k ((h.head k).withSettings hrange hoffsets)).testZero k _

theorem openSession (h : s.WithinCapacities) (k : HeadId) (kind : SessionKind) (handle : Nat) :
    (s.openSession k kind handle).WithinCapacities := (h.setSession k (x := ⟨kind, handle, _, [], _, _⟩) (Nat.zero_le _)).sendSession k

theorem zeroHead (h : s.WithinCapacities) (head : Nat) : (s.zeroHead head).1.WithinCapacities := by
  unfold State.zeroHead
  split
  · exact h
  · split_ifs
    · exact h
    · exact h
    · exact h.takeHandle.openSession _ _ _

theorem beginMeasure (h : s.WithinCapacities) (k : HeadId) (n : Nat) (r : InstRec) : (s.beginMeasure k n r).WithinCapacities :=
  ((((h.takeHandle.move n r _).departPocket r.loc n .presetting).leavePutaway n).clearLatePicksOf n).openSession k _ _

theorem measureEnd (h : s.WithinCapacities) (head : Nat) : (s.measureEnd head).1.WithinCapacities := by
  unfold State.measureEnd
  split
  · exact h
  · split
    · exact h
    · split
      · exact h
      · exact h.closeMeasure _ _ _ _ _ _ _

theorem measureAbort (h : s.WithinCapacities) (head : Nat) : (s.measureAbort head).1.WithinCapacities := by
  unfold State.measureAbort
  split
  · exact h
  · split
    · exact h
    · exact h.abandonSession _ _

/-! ### The port -/

theorem resetNow (h : s.WithinCapacities) : s.resetNow.WithinCapacities :=
  ⟨Svp.powerOn_within _, h.hck.afterReset, State.reset_withinCapacities.2.2⟩

theorem poweredOn (s : State) (baud1 baud0 : Bool) : (s.poweredOn baud1 baud0).WithinCapacities :=
  ⟨Svp.powerOn_within _, State.reset_withinCapacities.2⟩

theorem setTx (h : s.WithinCapacities) (tx : Option TxState) : (s.setSvp { s.svp with tx := tx }).WithinCapacities := h.setSvp h.svp

theorem frameSent (h : s.WithinCapacities) : s.frameSent.WithinCapacities := by
  obtain ⟨hbuffer, hreports, hrest⟩ := h.svp
  unfold State.frameSent
  dsimp only
  split
  · exact h
  · split
    · split
      · exact h.setTx _
      · split
        · exact State.WithinCapacities.setTx (s := { s with lines := _ }) h _
        · split
          · exact State.WithinCapacities.resetNow (s := { s with lines := _ }) h
          · exact ⟨⟨(List.length_filter_le _ _).trans hbuffer, hreports, hrest⟩, h.2⟩
    · split
      · exact h.setTx _
      · exact ⟨h.svp, h.2⟩
    · split
      · exact h.setTx _
      next hr =>
        split
        · refine ⟨⟨hbuffer, ?_, hrest⟩, h.2⟩
          rw [hr, List.length_cons] at hreports
          exact (Nat.le_succ _).trans hreports
        · exact h.setTx _

theorem blockedAtStart (h : s.WithinCapacities) (n : Nat) : (s.blockedAtStart n).WithinCapacities := by
  unfold State.blockedAtStart
  split
  · split
    · split
      · exact h.askBlocked _ _ _
      · exact h
    · exact h
  · exact h

theorem begin (h : s.WithinCapacities) : s.begin.WithinCapacities :=
  (((((h.setSvp (v := { s.svp with mode := .running }) h.svp).foldl fun _ c hu => hu.beginBoundaries c).foldl fun _ n hu =>
    hu.tryPutaway n).foldl fun _ n hu => hu.fillSpace n).foldl fun _ n hu => hu.blockedAtStart n).foldl fun _ n hu => hu.startTxn n

theorem bringIn (h : s.WithinCapacities) (f : HostFrame) : (s.bringIn f).WithinCapacities := by
  unfold State.bringIn
  split
  · exact h
  · exact h.setSvp (h.svp.receive f)

end State.WithinCapacities

end Sys2Proof.Machine

/-! O57, command by command and at the step. -/

namespace Sys2Proof.Machine

/-! ### Lists as sets -/

theorem insertBy_perm {α : Type} (key : α → Nat) (x : α) (xs : List α) : (insertBy key x xs).Perm (x :: xs) := by
  induction xs with
  | nil => exact List.Perm.refl _
  | cons y rest ih =>
    unfold insertBy
    split
    · exact List.Perm.refl _
    · exact (ih.cons y).trans (List.Perm.swap x y rest)

theorem sortBy_perm {α : Type} (key : α → Nat) (xs : List α) : (sortBy key xs).Perm xs := by
  have hfold (acc : List α) : (xs.foldl (fun acc x => insertBy key x acc) acc).Perm (xs ++ acc) := by
    induction xs generalizing acc with
    | nil => exact List.Perm.refl _
    | cons x rest ih => exact (ih _).trans (((insertBy_perm key x acc).append_left rest).trans List.perm_middle)
  have hall := hfold []
  rwa [List.append_nil] at hall

theorem mem_asSet {x : Nat} {xs : List Nat} : x ∈ asSet xs ↔ x ∈ xs := by
  rw [asSet, List.mem_eraseDups, (sortBy_perm id xs).mem_iff]

/-! ### Fields in range -/

theorem cabinetFields_within {b : List Byte} {new : CabSettings} (h : cabinetFields b = some new) : new.Within := by
  unfold cabinetFields at h
  dsimp only at h
  split at h
  next hok =>
    cases h
    simp only [Bool.and_eq_true, decide_eq_true_eq, within_iff, List.contains_iff_mem, List.mem_cons, List.not_mem_nil, or_false] at hok
    obtain ⟨⟨⟨⟨⟨⟨⟨⟨-, hwindow⟩, hpresent⟩, habsent⟩, hless⟩, hinterval⟩, hdebounce⟩, -⟩, -⟩ := hok
    exact ⟨hwindow.1, hwindow.2, habsent.1, hless, hpresent.2, hinterval, hdebounce.1, hdebounce.2⟩
  next => cases h

theorem headFields_offsets (b : List Byte) (old : HeadSettings) : (headFields b old).offsets.length = 16 := by
  simp [headFields]

namespace State.WithinCapacities

variable {s : State}

/-! ### What a command or an event does with the state -/

theorem event {f : State → State} {t : State} (h : s.WithinCapacities) (ht : Sys2Proof.Machine.event f s = .next t)
    (hf : ∀ u : State, u.WithinCapacities → (f u).WithinCapacities) : t.WithinCapacities := by
  cases ht
  have hq := hf s.quiet h
  exact hq.setSvp hq.svp.startTx

theorem hostCommand {kind tag : Byte} {body : List Byte} {run : State → State × Reply} {t : State} (h : s.WithinCapacities)
    (ht : Sys2Proof.Machine.hostCommand kind tag body run s = .next t)
    (hf : ∀ u : State, u.WithinCapacities → (run u).1.WithinCapacities) : t.WithinCapacities := by
  refine h.event ht fun u hu => ?_
  have hb := hu.bringIn ⟨kind, tag, body⟩
  dsimp only
  split
  · split
    · exact (hf _ hb).setSvp ((hf _ hb).svp.makeReply _)
    · exact hb.setSvp (hb.svp.makeReply _)
  · exact hb

theorem readCommand {kind tag : Byte} {body : List Byte} {answer : State → Reply} {t : State} (h : s.WithinCapacities)
    (ht : Sys2Proof.Machine.readCommand kind tag body answer s = .next t) : t.WithinCapacities :=
  h.hostCommand ht fun _ hu => hu

theorem cabinetEvent {c : Nat} {f : State → State} {t : State} (h : s.WithinCapacities)
    (ht : Sys2Proof.Machine.cabinetEvent c f s = .next t) (hf : ∀ u : State, u.WithinCapacities → (f u).WithinCapacities) :
    t.WithinCapacities := by
  unfold Machine.cabinetEvent at ht
  split at ht
  · exact h.event ht hf
  · cases ht

theorem pocketEvent {c p : Nat} {f : State → State} {t : State} (h : s.WithinCapacities)
    (ht : Sys2Proof.Machine.pocketEvent c p f s = .next t) (hf : ∀ u : State, u.WithinCapacities → (f u).WithinCapacities) :
    t.WithinCapacities := by
  unfold Machine.pocketEvent at ht
  split at ht
  · exact h.event ht hf
  · cases ht

theorem stationEvent {n : Nat} {f : State → State} {t : State} (h : s.WithinCapacities)
    (ht : Sys2Proof.Machine.stationEvent n f s = .next t) (hf : ∀ u : State, u.WithinCapacities → (f u).WithinCapacities) :
    t.WithinCapacities := by
  unfold Machine.stationEvent at ht
  split at ht
  · exact h.event ht hf
  · cases ht

theorem whenRunning {f : State → State × Reply} (h : s.WithinCapacities) (hf : (f s).1.WithinCapacities) :
    (Machine.whenRunning f s).1.WithinCapacities := by
  unfold Machine.whenRunning
  split
  · exact hf
  · exact h

theorem withTool {n : Nat} {f : State → InstRec → State × Reply} (h : s.WithinCapacities) (hf : ∀ r, (f s r).1.WithinCapacities) :
    (Machine.withTool n f s).1.WithinCapacities := by
  unfold Machine.withTool
  split
  · exact h
  · split
    · exact h
    · exact hf _

theorem withRequest {n : Nat} {f : State → Request → State × Reply} (h : s.WithinCapacities) (hf : ∀ r, (f s r).1.WithinCapacities) :
    (Machine.withRequest n f s).1.WithinCapacities := by
  unfold Machine.withRequest
  split
  · exact h
  · split
    · exact h
    · exact hf _

theorem withType {type group : Nat} {f : State → TypeRec → State × Reply} (h : s.WithinCapacities)
    (hf : ∀ t, (f s t).1.WithinCapacities) : (Machine.withType type group f s).1.WithinCapacities := by
  unfold Machine.withType
  split
  · exact h
  · split
    · exact h
    · exact hf _

/-! ### The register -/

theorem clampLife (h : s.WithinCapacities) (n type budget : Nat) : (s.clampLife n type budget).WithinCapacities := by
  unfold State.clampLife
  split
  · exact h
  · split
    · dsimp only
      split
      · exact ((h.setTool n _).askUnblocked _ _ n).startTxn _
      · exact h
    · exact h

theorem loadType (h : s.WithinCapacities) (n : Nat) (r : TypeRec) : (s.loadType n r).1.WithinCapacities := by
  unfold State.loadType
  split
  · exact h
  · split_ifs
    · exact h
    · exact h
    · exact (h.setType n _).foldl fun _ k hu => hu.clampLife k n r.budget

theorem register (h : s.WithinCapacities) (n type : Nat) (marks life : Option Nat) : (s.register n type marks life).1.WithinCapacities := by
  unfold State.register
  lift_lets
  intro lifeOk
  split
  · exact h
  · split
    · exact h
    · split_ifs
      · exact h
      · exact h
      · exact h
      · exact ((h.setTool n _).report _).announce n

theorem vacate (h : s.WithinCapacities) (n : Nat) : (s.vacate n).WithinCapacities := by
  unfold State.vacate
  split
  · exact h
  · dsimp only
    split
    · exact (h.settleMarks n).dropPocket _ n
    · exact (h.settleMarks n).dropMagazine _ n
    · exact h.settleMarks n

theorem takeUp (h : s.WithinCapacities) (n : Nat) (r : InstRec) : (s.takeUp n r).WithinCapacities := by
  unfold State.takeUp
  split
  · exact (h.setTool n r).rewritePocket _ _ (Pocket.loadedWith_sameCounts _ n)
  next st _ _ _ =>
    obtain ⟨-, -, -, -, hmagazine, -⟩ := h.station st
    exact (h.setTool n r).setMagazine st (tableSorted_tset _ _ hmagazine)
  · exact h
  · exact h

theorem quarantineTool (h : s.WithinCapacities) (n : Nat) (r : InstRec) : (s.quarantineTool n r).1.WithinCapacities := by
  have hbar {u : State} (hu : u.WithinCapacities) (m : Move) : (match u.tool n with
      | some r => u.move n r m
      | none => u).WithinCapacities := by
    split
    · exact hu.move n _ m
    · exact hu
  unfold State.quarantineTool
  dsimp only
  split
  · exact (hbar (h.releaseToQueue n false) _).afterRelease n
  · exact (hbar h _).announce n
  · exact (hbar h _).announce n
  · exact (hbar h _).announce n
  · exact (hbar h _).announce n
  · exact h

theorem clearQuarantine (h : s.WithinCapacities) (n : Nat) (r : InstRec) : (s.clearQuarantine n r).1.WithinCapacities := by
  unfold State.clearQuarantine
  split_ifs
  · exact h
  · exact h
  · exact (h.move n r _).announce n

/-- R24: RETIRE of the record that stands once a reservation is released and the magazine entry is gone. -/
theorem retireFrom (h : s.WithinCapacities) (n : Nat) (before : InstRec) : (match s.tool n with
    | none => s
    | some r =>
      let atStation := before.custody = Custody.loaded ∨ before.custody = Custody.issued
      let s := s.transition n r { cause := .retire, custody := .retired, loc := .nowhere }
        (fun i => if atStation then { i with owed := false } else i)
      let s := s.dropPocket before.loc n
      let s := if before.custody = Custody.issued then s.loseRequest before.link else s
      let s := (s.clearLatePicksOf n).afterRetired n
      if before.custody == Custody.reserved then s.allocationPass else s).WithinCapacities := by
  have hend {u : State} (hu : u.WithinCapacities) :
      (let s := (u.clearLatePicksOf n).afterRetired n
      if before.custody == Custody.reserved then s.allocationPass else s).WithinCapacities := by
    have hretired := (hu.clearLatePicksOf n).afterRetired n
    dsimp only
    split
    · exact hretired.allocationPass
    · exact hretired
  split
  · exact h
  next r _ =>
    refine hend ?_
    have hleft := (h.transition n r { cause := .retire, custody := .retired, loc := .nowhere }
      (fun i => if before.custody = Custody.loaded ∨ before.custody = Custody.issued then { i with owed := false } else i)).dropPocket before.loc n
    split
    · exact hleft.loseRequest _
    · exact hleft

theorem retire (h : s.WithinCapacities) (n : Nat) (before : InstRec) : (s.retire n before).WithinCapacities := by
  have hreleased : (if before.custody == Custody.reserved then s.releaseToQueue n false else s).WithinCapacities := by
    split
    · exact h.releaseToQueue n false
    · exact h
  refine State.WithinCapacities.retireFrom ?_ n before
  split
  · exact hreleased.dropMagazine _ n
  · exact hreleased.dropMagazine _ n
  · exact hreleased

theorem deleteTool (h : s.WithinCapacities) (n : Nat) (r : InstRec) : (s.deleteTool n r).WithinCapacities :=
  (((h.delTool n).report _).clearLatePicksOf n).afterRetired n

theorem regrindOut (h : s.WithinCapacities) (n : Nat) (r : InstRec) : (s.regrindOut n r).1.WithinCapacities := by
  unfold State.regrindOut
  split_ifs
  · exact h
  · exact h
  · exact ((h.move n r _).departPocket r.loc n .regrind).leavePutaway n

theorem regrindBack (h : s.WithinCapacities) (n : Nat) (r : InstRec) : (s.regrindBack n r).1.WithinCapacities := by
  unfold State.regrindBack
  split_ifs
  · exact h
  · exact h
  · exact ((h.move n _ _).announce n).settleMarks n

/-! ### The crib -/

theorem setCabinet (h : s.WithinCapacities) (c : Nat) {new : CabSettings} (hnew : new.Within) : (s.setCabinet c new).WithinCapacities := by
  obtain ⟨hsettings, -, hpass, hheld⟩ := h.cab c
  unfold State.setCabinet
  split
  · exact h.setCab c ⟨hsettings, fun _ hx => (Option.some.inj hx) ▸ hnew, hpass, hheld⟩ rfl
  · dsimp only
    split
    · exact (h.takeSettings c hnew).restartBoundary c
    · exact h.takeSettings c hnew

theorem configurePocket (h : s.WithinCapacities) (c p : Nat) (enabled : Option Bool) (zone : Option Zone) :
    (s.configurePocket c p enabled zone).WithinCapacities := by
  have henabled : (s.pocket c p).SameCounts (match enabled with
      | some on => (s.pocket c p).enable on
      | none => s.pocket c p) := by
    cases enabled with
    | none => exact Pocket.SameCounts.refl _
    | some on => exact Pocket.enable_sameCounts _ on
  have hzoned {r : Pocket} (hr : (s.pocket c p).SameCounts r) : (s.pocket c p).SameCounts (match zone with
      | some z => { r with zone := z }
      | none => r) := by
    cases zone with
    | none => exact hr
    | some z => exact hr
  have hset {r : Pocket} (hr : (s.pocket c p).SameCounts r) :
      (if r.enabled != (s.pocket c p).enabled || r.zone != (s.pocket c p).zone then (s.setPocket c p r).noticeIfFree c p
      else s.setPocket c p r).WithinCapacities := by
    split
    · exact (h.rewritePocket c p hr).noticeIfFree c p
    · exact h.rewritePocket c p hr
  exact hset (hzoned henabled)

theorem setPockets (h : s.WithinCapacities) (c enabled zone : Nat) (pockets : List Nat) :
    (s.setPockets c enabled zone pockets).1.WithinCapacities := by
  unfold State.setPockets
  split
  · exact h
  · split
    · exact h
    · exact h.foldl fun _ p hu => hu.configurePocket c p _ _

theorem learnEmpty (h : s.WithinCapacities) (c : Nat) (pockets : List Nat) : (s.learnEmpty c pockets).1.WithinCapacities := by
  unfold State.learnEmpty
  split
  · exact h
  next hrange =>
    split
    · exact h
    · split
      · exact h
      · have hnamed : ∀ p ∈ asSet pockets, 1 ≤ p ∧ p ≤ 64 := by
          intro p hp
          simp only [Bool.not_eq_false, Bool.and_eq_true, List.all_eq_true] at hrange
          exact within_iff.1 (hrange.2 p (mem_asSet.1 hp))
        dsimp only
        split
        · exact h.takeHandle.learnOn c _ hnamed _ _ _
        · exact h.takeHandle.setHeldLearn c fun l hl => (Option.some.inj hl) ▸ hnamed

theorem scanOnce (h : s.WithinCapacities) (c : Nat) : (s.scanOnce c).1.WithinCapacities := by
  unfold State.scanOnce
  split_ifs
  · exact h
  · exact h
  · exact h
  · exact h
  · exact h.takeHandle.startSingle c _

/-- R72, R44: an ISSUED instance that comes back leaves its stations' queues and loses its request. -/
theorem broughtBack (h : s.WithinCapacities) (n : Nat) (r : InstRec) :
    (if r.custody = .issued then (s.leftIssued n).loseRequest r.link else s).WithinCapacities := by
  split
  · exact (h.leftIssued n).loseRequest _
  · exact h

theorem identify (h : s.WithinCapacities) (n : Nat) (r : InstRec) (c p : Nat) : (s.identify n r c p).WithinCapacities :=
  ((((h.leavePutaway n).move n r _).rewritePocket c p).broughtBack n r).announce n

/-! ### Issue -/

theorem issue (h : s.WithinCapacities) (q : NewRequest) : (s.issue q).1.WithinCapacities := by
  have hentered := h.enter q
  unfold State.issue
  split
  · exact h
  · split
    · exact h.merge _ q
    · split
      next he =>
        rw [he] at hentered
        exact hentered
      next he =>
        rw [he] at hentered
        exact hentered

theorem handOut (h : s.WithinCapacities) (r : Request) : (s.handOut r).1.WithinCapacities := by
  unfold State.handOut
  split
  · split
    · exact h
    · split
      · exact ((h.move _ _ _).changeRequest _ _).afterPick _ _
      · exact h
  · exact h

theorem benchReturn (h : s.WithinCapacities) (n : Nat) (r : InstRec) : (s.benchReturn n r).1.WithinCapacities := by
  unfold State.benchReturn
  split
  · exact (((h.move n r _).leftIssued n).loseRequest _).announce n
  · exact h

theorem fireTimings (h : s.WithinCapacities) : s.fireTimings.WithinCapacities :=
  (h.foldl fun _ number hu => hu.firePick number).foldl fun _ n hu => hu.firePutaway n

theorem setIssue (h : s.WithinCapacities) (pick grace putaway : Option Nat) : (s.setIssue pick grace putaway).1.WithinCapacities := by
  unfold State.setIssue
  lift_lets
  intro fits
  split
  · exact (h.setIsc _).fireTimings
  · exact h

/-! ### Handoff -/

theorem setPlaces (h : s.WithinCapacities) (n count : Nat) : (s.setPlaces n count).1.WithinCapacities := by
  unfold State.setPlaces
  split
  · exact h
  next hrange =>
    split
    · exact h
    · obtain ⟨hqueue, hreplies, -, -, htables⟩ := h.station n
      simp only [Bool.not_eq_false, Bool.and_eq_true, within_iff] at hrange
      exact h.setStation n ⟨hqueue, hreplies, hrange.2.1, hrange.2.2, htables⟩ (h.queue n)

theorem holdTool (h : s.WithinCapacities) (n : Nat) : (s.holdTool n).WithinCapacities := by
  unfold State.holdTool
  split
  · exact (h.move n _ _).tryPutaway n
  · exact h

theorem holdReserved (h : s.WithinCapacities) (n : Nat) : (s.holdReserved n).WithinCapacities := by
  refine State.WithinCapacities.holdTool ?_ n
  split
  · exact (h.releaseTool n false).enterWaiting _ _
  · exact h.releaseTool n false

theorem hold (h : s.WithinCapacities) (n : Nat) (t : TypeRec) (group : Nat) : (s.hold n t group).1.WithinCapacities := by
  unfold State.hold
  lift_lets
  intro marked reserved freed barred tools cancelled out
  have hfreed : freed.WithinCapacities := (h.setType n _).foldl fun _ k hu => hu.holdReserved k
  have hbarred : barred.WithinCapacities := hfreed.foldl fun _ k hu => hu.holdTool k
  have hout : out.1.WithinCapacities := (hbarred.cancelAll _).createBroadcast .hold n _
  show (if reserved.isEmpty then out.1 else out.1.allocationPass).WithinCapacities
  split
  · exact hout
  · exact hout.allocationPass

theorem releaseHeld (h : s.WithinCapacities) (n : Nat) : (s.releaseHeld n).WithinCapacities := by
  unfold State.releaseHeld
  split
  · exact h.move n _ _
  · exact h

theorem supplyIssued (h : s.WithinCapacities) (n : Nat) : (s.supplyIssued n).WithinCapacities := by
  have hverified := h.verify n
  unfold State.supplyIssued
  dsimp only
  split
  · exact hverified
  · split
    · split
      · exact hverified
      · exact hverified.supplyData _ _ n
    · exact hverified

theorem supplyLoaded (h : s.WithinCapacities) (n : Nat) : (s.supplyLoaded n).WithinCapacities := by
  unfold State.supplyLoaded
  split
  · exact h
  · split
    · split
      · exact h.supplyData _ _ n
      · exact h
    · exact h

theorem release (h : s.WithinCapacities) (n : Nat) (t : TypeRec) (group : Nat) : (s.release n t group).1.WithinCapacities := by
  unfold State.release
  lift_lets
  intro marked held lifted verified supplied out
  have hlifted : lifted.WithinCapacities := (h.setType n _).foldl fun _ k hu => hu.releaseHeld k
  have hverified : verified.WithinCapacities := hlifted.foldl fun _ k hu => hu.supplyIssued k
  have hsupplied : supplied.WithinCapacities := hverified.foldl fun _ k hu => hu.supplyLoaded k
  have hout : out.1.WithinCapacities := hsupplied.createBroadcast .release n _
  exact hout.allocationPass.foldl fun _ k hu => hu.tryPutaway k

theorem sendData (h : s.WithinCapacities) (n : Nat) (r : InstRec) : (s.sendData n r).1.WithinCapacities := by
  unfold State.sendData
  split
  · exact h
  · split_ifs
    · exact h
    · exact h
    · exact h.supplyData _ _ n

end State.WithinCapacities

end Sys2Proof.Machine

/-! O57 at the step. -/

namespace Sys2Proof.Machine

namespace State.WithinCapacities

variable {s t : State}

theorem execLoadType (h : s.WithinCapacities) (tag : Byte) (body : List Byte)
    (ht : Machine.execLoadType tag body s = .next t) : t.WithinCapacities := by
  refine h.hostCommand ht fun u hu => ?_
  dsimp only
  split
  · exact hu
  · split
    · exact hu.loadType _ _
    · exact hu

theorem execDeleteType (h : s.WithinCapacities) (tag : Byte) (body : List Byte)
    (ht : Machine.execDeleteType tag body s = .next t) : t.WithinCapacities := by
  refine h.hostCommand ht fun u hu => ?_
  dsimp only
  split
  · exact hu
  · split
    · exact hu
    · split_ifs
      · exact hu
      · exact hu
      · exact hu

theorem execLoadInstance (h : s.WithinCapacities) (tag : Byte) (body : List Byte)
    (ht : Machine.execLoadInstance tag body s = .next t) : t.WithinCapacities := by
  refine h.hostCommand ht fun u hu => ?_
  dsimp only
  split
  · exact hu
  · split
    · exact hu
    · split
      · exact hu
      · split
        · exact hu
        · exact (hu.vacate _).takeUp _ _

theorem execRetire (h : s.WithinCapacities) (tag : Byte) (body : List Byte)
    (ht : Machine.execRetire tag body s = .next t) : t.WithinCapacities := by
  refine h.hostCommand ht fun u hu => hu.withTool fun r => ?_
  split
  · exact hu
  · exact hu.retire _ r

theorem execDelete (h : s.WithinCapacities) (tag : Byte) (body : List Byte)
    (ht : Machine.execDelete tag body s = .next t) : t.WithinCapacities := by
  refine h.hostCommand ht fun u hu => hu.withTool fun r => ?_
  split
  · dsimp only
    exact hu.deleteTool _ r
  · exact hu

theorem execSetCabinet (h : s.WithinCapacities) (tag : Byte) (body : List Byte)
    (ht : Machine.execSetCabinet tag body s = .next t) : t.WithinCapacities := by
  refine h.hostCommand ht fun u hu => ?_
  split
  next hnew => exact hu.setCabinet _ (cabinetFields_within hnew)
  next => exact hu

theorem execIdentify (h : s.WithinCapacities) (tag : Byte) (body : List Byte)
    (ht : Machine.execIdentify tag body s = .next t) : t.WithinCapacities := by
  refine h.hostCommand ht fun u hu => hu.whenRunning ?_
  dsimp only
  split
  · exact hu
  · split
    · exact hu
    · split
      · exact hu.identify _ _ _ _
      · exact hu

theorem execIssue (h : s.WithinCapacities) (tag : Byte) (body : List Byte)
    (ht : Machine.execIssue tag body s = .next t) : t.WithinCapacities := by
  refine h.hostCommand ht fun u hu => hu.whenRunning ?_
  split
  · exact hu
  · exact hu.issue _

theorem execCancel (h : s.WithinCapacities) (tag : Byte) (body : List Byte)
    (ht : Machine.execCancel tag body s = .next t) : t.WithinCapacities := by
  refine h.hostCommand ht fun u hu => hu.whenRunning (hu.withRequest fun r => ?_)
  split
  · exact hu
  · exact hu.cancelRequest r _

theorem execSetHead (h : s.WithinCapacities) (tag : Byte) (body : List Byte)
    (ht : Machine.execSetHead tag body s = .next t) : t.WithinCapacities := by
  refine h.hostCommand ht fun u hu => ?_
  dsimp only
  split
  · exact hu
  · split
    · exact hu
    · split
      next hrange => exact hu.putHeadSettings _ hrange (headFields_offsets _ _)
      next => exact hu

theorem measureBegin (h : s.WithinCapacities) (head n : Nat) : (s.measureBegin head n).1.WithinCapacities := by
  unfold State.measureBegin
  split
  · exact h
  · refine h.withTool fun r => ?_
    split_ifs
    · exact h
    · exact h
    · exact h
    · exact h.beginMeasure _ n r
    · exact h

theorem execSetLink (h : s.WithinCapacities) (tag : Byte) (body : List Byte)
    (ht : Machine.execSetLink tag body s = .next t) : t.WithinCapacities := by
  refine h.hostCommand ht fun u hu => ?_
  split
  · exact hu
  · split
    · exact hu.setPolicy _ _
    · exact hu

theorem execLinkRestart (h : s.WithinCapacities) (tag : Byte) (body : List Byte)
    (ht : Machine.execLinkRestart tag body s = .next t) : t.WithinCapacities := by
  refine h.hostCommand ht fun u hu => ?_
  split
  · exact hu.linkRestart _
  · exact hu

theorem execSetGroup (h : s.WithinCapacities) (tag : Byte) (body : List Byte)
    (ht : Machine.execSetGroup tag body s = .next t) : t.WithinCapacities := by
  refine h.hostCommand ht fun u hu => ?_
  split
  · exact hu
  · exact hu

theorem execTypeHold (h : s.WithinCapacities) (tag : Byte) (body : List Byte)
    (ht : Machine.execTypeHold tag body s = .next t) : t.WithinCapacities := by
  refine h.hostCommand ht fun u hu => hu.whenRunning (hu.withType fun r => ?_)
  split
  · exact hu
  · exact hu.hold _ r _

theorem execTypeRelease (h : s.WithinCapacities) (tag : Byte) (body : List Byte)
    (ht : Machine.execTypeRelease tag body s = .next t) : t.WithinCapacities := by
  refine h.hostCommand ht fun u hu => hu.whenRunning (hu.withType fun r => ?_)
  split
  · exact hu.release _ r _
  · exact hu

theorem execStart (h : s.WithinCapacities) (tag : Byte) (body : List Byte)
    (ht : Machine.execStart tag body s = .next t) : t.WithinCapacities := by
  refine h.hostCommand ht fun u hu => ?_
  split
  · exact hu
  · split
    · exact hu
    · dsimp only
      exact hu.begin

theorem execReportEnable (h : s.WithinCapacities) (tag : Byte) (body : List Byte)
    (ht : Machine.execReportEnable tag body s = .next t) : t.WithinCapacities := by
  refine h.hostCommand ht fun u hu => ?_
  obtain ⟨hbuffer, hreports, hlost, h1, h2, hdiscards, hrefusals, hdrops, -⟩ := hu.svp
  dsimp only
  split
  next hset => exact hu.setSvp ⟨hbuffer, hreports, hlost, h1, h2, hdiscards, hrefusals, hdrops, hset⟩
  next => exact hu

theorem execReadPort (h : s.WithinCapacities) (tag : Byte) (body : List Byte)
    (ht : Machine.execReadPort tag body s = .next t) : t.WithinCapacities := by
  refine h.hostCommand ht fun u hu => ?_
  obtain ⟨hbuffer, hreports, hlost, h1, h2, -, -, -, henable⟩ := hu.svp
  dsimp only
  split
  · exact hu.setSvp ⟨hbuffer, hreports, hlost, h1, h2, Nat.zero_le _, Nat.zero_le _, Nat.zero_le _, henable⟩
  · exact hu

theorem execUnknownKindFrame (h : s.WithinCapacities) (kind tag : Byte) (body : List Byte)
    (ht : Machine.execUnknownKindFrame kind tag body s = .next t) : t.WithinCapacities := by
  refine h.event ht fun u hu => ?_
  have hb := hu.bringIn ⟨kind, tag, body⟩
  dsimp only
  split
  · exact hb.setSvp (hb.svp.makeReply _)
  · exact hb

theorem execResetEffect (h : s.WithinCapacities) (ht : Machine.execResetEffect s = .next t) : t.WithinCapacities := by
  refine h.event ht fun u hu => ?_
  split
  · exact hu.frameSent
  · exact hu

theorem execLatePickEnd (h : s.WithinCapacities) (c p : Nat) (ht : Machine.execLatePickEnd c p s = .next t) : t.WithinCapacities := by
  refine h.pocketEvent ht fun u hu => ?_
  split
  · exact (hu.clearLatePick _).allocationPass
  · exact hu

theorem headFramed (h : s.WithinCapacities) (k : HeadId) : (s.headFramed k).WithinCapacities := h.setRx k []

theorem execHeadStatus (h : s.WithinCapacities) (head : HeadId) (status : Byte) (scaleTemp : BitVec 16)
    (ht : Machine.execHeadStatus head status scaleTemp s = .next t) : t.WithinCapacities := by
  refine h.event ht fun u hu => ?_
  split_ifs
  · exact (hu.headFramed head).takeStatus head _ _
  · exact (hu.headFramed head).takeStatus head _ _
  · exact hu.headFailed head _

theorem execCapture (h : s.WithinCapacities) (head : HeadId) (z x : BitVec 24) (spindle scaleTemp toolTemp : BitVec 16) (flags : Byte)
    (ht : Machine.execCapture head z x spindle scaleTemp toolTemp flags s = .next t) : t.WithinCapacities := by
  refine h.event ht fun u hu => ?_
  split
  · exact (hu.headFramed head).takeCapture head _ _ _ _ _ _
  · exact hu.headFailed head _

/-- The capacities through every command and event. -/
theorem exec (h : s.WithinCapacities) {i : Instr} (ht : Machine.exec i s = .next t) : t.WithinCapacities := by
  cases i with
  | powerOn baud1 baud0 =>
    cases ht
    exact State.WithinCapacities.poweredOn s baud1 baud0
  | resetN =>
    unfold Machine.exec execResetN at ht
    exact h.event ht fun _ hu => hu.resetNow
  | supervisoryFrame bytes =>
    unfold Machine.exec execSupervisoryFrame at ht
    exact h.event ht fun u hu => hu.setSvp (hu.svp.bytes u.tick bytes)
  | frameByteTimeout =>
    unfold Machine.exec execFrameByteTimeout at ht
    exact h.event ht fun u hu => hu.setSvp (hu.svp.dropLate u.tick)
  | unknownKindFrame kind tag body => exact h.execUnknownKindFrame _ _ _ ht
  | frameSent =>
    unfold Machine.exec execFrameSent at ht
    exact h.event ht fun _ hu => hu.frameSent
  | resetEffect => exact h.execResetEffect ht
  | loadType tag body => exact h.execLoadType _ _ ht
  | deleteType tag body => exact h.execDeleteType _ _ ht
  | readType tag body =>
    unfold Machine.exec execReadType at ht
    exact h.readCommand ht
  | register tag body =>
    unfold Machine.exec execRegister at ht
    exact h.hostCommand ht fun _ hu => hu.register _ _ _ _
  | loadInstance tag body => exact h.execLoadInstance _ _ ht
  | quarantineTool tag body =>
    unfold Machine.exec execQuarantineTool at ht
    exact h.hostCommand ht fun _ hu => hu.withTool fun r => hu.quarantineTool _ r
  | clearQuarantine tag body =>
    unfold Machine.exec execClearQuarantine at ht
    exact h.hostCommand ht fun _ hu => hu.withTool fun r => hu.clearQuarantine _ r
  | retire tag body => exact h.execRetire _ _ ht
  | delete tag body => exact h.execDelete _ _ ht
  | readInstance tag body =>
    unfold Machine.exec execReadInstance at ht
    exact h.hostCommand ht fun _ hu => hu.withTool fun _ => hu
  | listInstances tag body =>
    unfold Machine.exec execListInstances at ht
    exact h.readCommand ht
  | setCabinet tag body => exact h.execSetCabinet _ _ ht
  | setPockets tag body =>
    unfold Machine.exec execSetPockets at ht
    exact h.hostCommand ht fun _ hu => hu.setPockets _ _ _ _
  | learnEmpty tag body =>
    unfold Machine.exec execLearnEmpty at ht
    exact h.hostCommand ht fun _ hu => hu.learnEmpty _ _
  | scanOnce tag body =>
    unfold Machine.exec execScanOnce at ht
    exact h.hostCommand ht fun _ hu => hu.scanOnce _
  | identify tag body => exact h.execIdentify _ _ ht
  | readPocket tag body =>
    unfold Machine.exec execReadPocket at ht
    exact h.readCommand ht
  | readCabinet tag body =>
    unfold Machine.exec execReadCabinet at ht
    exact h.readCommand ht
  | issue tag body => exact h.execIssue _ _ ht
  | cancel tag body => exact h.execCancel _ _ ht
  | handOut tag body =>
    unfold Machine.exec execHandOut at ht
    exact h.hostCommand ht fun _ hu => hu.whenRunning (hu.withRequest fun r => hu.handOut r)
  | benchReturn tag body =>
    unfold Machine.exec execBenchReturn at ht
    exact h.hostCommand ht fun _ hu => hu.whenRunning (hu.withTool fun r => hu.benchReturn _ r)
  | setIssue tag body =>
    unfold Machine.exec execSetIssue at ht
    exact h.hostCommand ht fun _ hu => hu.setIssue _ _ _
  | nextToMeasure tag body =>
    unfold Machine.exec execNextToMeasure at ht
    exact h.readCommand ht
  | readRequest tag body =>
    unfold Machine.exec execReadRequest at ht
    exact h.hostCommand ht fun _ hu => hu.withRequest fun _ => hu
  | listRequests tag body =>
    unfold Machine.exec execListRequests at ht
    exact h.readCommand ht
  | readPutaway tag body =>
    unfold Machine.exec execReadPutaway at ht
    exact h.readCommand ht
  | setCurve tag body =>
    unfold Machine.exec execSetCurve at ht
    exact h.hostCommand ht fun _ hu => hu.setCurve _ _ _
  | setHead tag body => exact h.execSetHead _ _ ht
  | zeroHead tag body =>
    unfold Machine.exec execZeroHead at ht
    exact h.hostCommand ht fun _ hu => hu.whenRunning (hu.zeroHead _)
  | measureBegin tag body =>
    unfold Machine.exec execMeasureBegin at ht
    exact h.hostCommand ht fun _ hu => hu.whenRunning (hu.measureBegin _ _)
  | measureEnd tag body =>
    unfold Machine.exec execMeasureEnd at ht
    exact h.hostCommand ht fun _ hu => hu.whenRunning (hu.measureEnd _)
  | measureAbort tag body =>
    unfold Machine.exec execMeasureAbort at ht
    exact h.hostCommand ht fun _ hu => hu.whenRunning (hu.measureAbort _)
  | readHead tag body =>
    unfold Machine.exec execReadHead at ht
    exact h.readCommand ht
  | regrindOut tag body =>
    unfold Machine.exec execRegrindOut at ht
    exact h.hostCommand ht fun _ hu => hu.whenRunning (hu.withTool fun r => hu.regrindOut _ r)
  | regrindBack tag body =>
    unfold Machine.exec execRegrindBack at ht
    exact h.hostCommand ht fun _ hu => hu.whenRunning (hu.withTool fun r => hu.regrindBack _ r)
  | setLink tag body => exact h.execSetLink _ _ ht
  | linkRestart tag body => exact h.execLinkRestart _ _ ht
  | readLink tag body =>
    unfold Machine.exec execReadLink at ht
    exact h.readCommand ht
  | setStation tag body =>
    unfold Machine.exec execSetStation at ht
    exact h.hostCommand ht fun _ hu => hu.setPlaces _ _
  | setGroup tag body => exact h.execSetGroup _ _ ht
  | typeHold tag body => exact h.execTypeHold _ _ ht
  | typeRelease tag body => exact h.execTypeRelease _ _ ht
  | sendData tag body =>
    unfold Machine.exec execSendData at ht
    exact h.hostCommand ht fun _ hu => hu.whenRunning (hu.withTool fun r => hu.sendData _ r)
  | readHandoff tag body =>
    unfold Machine.exec execReadHandoff at ht
    exact h.readCommand ht
  | readGroups tag body =>
    unfold Machine.exec execReadGroups at ht
    exact h.readCommand ht
  | readBroadcast tag body =>
    unfold Machine.exec execReadBroadcast at ht
    exact h.readCommand ht
  | setTime tag body =>
    unfold Machine.exec execSetTime at ht
    exact h.hostCommand ht fun _ hu => hu.setTime (fieldAt_lt body 0 4)
  | setClock tag body =>
    unfold Machine.exec execSetClock at ht
    exact h.hostCommand ht fun _ hu => hu.setClock _ _
  | readTime tag body =>
    unfold Machine.exec execReadTime at ht
    exact h.readCommand ht
  | start tag body => exact h.execStart _ _ ht
  | reset tag body =>
    unfold Machine.exec execReset at ht
    exact h.hostCommand ht fun _ hu => hu.setSvp hu.svp
  | reportEnable tag body => exact h.execReportEnable _ _ ht
  | readPort tag body => exact h.execReadPort _ _ ht
  | scanInterval cabinet =>
    unfold Machine.exec execScanInterval at ht
    exact h.cabinetEvent ht fun _ hu => hu.fireBoundary _
  | pocketCount cabinet cycles =>
    unfold Machine.exec execPocketCount at ht
    exact h.cabinetEvent ht fun _ hu => hu.takeCount _ _
  | learnMeasurement cabinet cycles =>
    unfold Machine.exec execLearnMeasurement at ht
    exact h.cabinetEvent ht fun _ hu => hu.takeLearn _ _
  | pickTimeout request =>
    unfold Machine.exec execPickTimeout at ht
    exact h.event ht fun _ hu => hu.firePick _
  | latePickEnd cabinet pocket => exact h.execLatePickEnd _ _ ht
  | putawayTimeout tool =>
    unfold Machine.exec execPutawayTimeout at ht
    exact h.event ht fun _ hu => hu.firePutaway _
  | headStatus head status scaleTemp => exact h.execHeadStatus _ _ _ ht
  | capture head z x spindle scaleTemp toolTemp flags => exact h.execCapture _ _ _ _ _ _ _ ht
  | headFrameByteTimeout head =>
    unfold Machine.exec execHeadFrameByteTimeout at ht
    exact h.event ht fun _ hu => hu.fireHeadBytes _
  | headSilence head =>
    unfold Machine.exec execHeadSilence at ht
    exact h.event ht fun _ hu => hu.fireSilence _
  | zeroAgeLapse head =>
    unfold Machine.exec execZeroAgeLapse at ht
    exact h.event ht fun _ hu => hu.fireLapse _
  | headFrameDiscarded head bytes =>
    unfold Machine.exec execHeadFrameDiscarded at ht
    exact h.event ht fun _ hu => hu.headBytes _ _
  | handoffTimeout station =>
    unfold Machine.exec execHandoffTimeout at ht
    exact h.stationEvent ht fun _ hu => hu.fireHandoff _
  | holdOffExpiry station =>
    unfold Machine.exec execHoldOffExpiry at ht
    exact h.stationEvent ht fun _ hu => hu.fireHoldOff _
  | broadcastExpiry number =>
    unfold Machine.exec execBroadcastExpiry at ht
    exact h.event ht fun _ hu => hu.fireBroadcast _
  | stationBlock station bytes =>
    unfold Machine.exec execStationBlock at ht
    exact h.stationEvent ht fun _ hu => hu.linkBytes _ _
  | acquireTimeout station =>
    unfold Machine.exec execAcquireTimeout at ht
    exact h.stationEvent ht fun _ hu => hu.fireAcquire _
  | linkSilence station =>
    unfold Machine.exec execLinkSilence at ht
    exact h.stationEvent ht fun _ hu => hu.fireLinkSilence _
  | blockPeriod station =>
    unfold Machine.exec execBlockPeriod at ht
    exact h.stationEvent ht fun _ hu => hu.firePeriod _
  | outstandingTimeout station =>
    unfold Machine.exec execOutstandingTimeout at ht
    exact h.stationEvent ht fun _ hu => hu.fireOutstanding _
  | echoHeldTimeout station =>
    unfold Machine.exec execEchoHeldTimeout at ht
    exact h.stationEvent ht fun _ hu => hu.fireEchoHeld _
  | ppsPulse line =>
    unfold Machine.exec execPpsPulse at ht
    exact h.event ht fun _ hu => hu.pulse _
  | stepDeadline line =>
    unfold Machine.exec execStepDeadline at ht
    exact h.event ht fun _ hu => hu.fireDeadline _
  | hallSecond =>
    unfold Machine.exec execHallSecond at ht
    exact h.event ht fun _ hu => hu.expiryTest

theorem elapse (h : s.WithinCapacities) : s.elapse.WithinCapacities := h.setHck h.hck.elapse

theorem idle (h : s.WithinCapacities) (ht : s.idle = .next t) : t.WithinCapacities := by
  unfold State.idle at ht
  split at ht
  · exact h.exec ht
  · split at ht
    · cases ht
      exact h
    · cases ht
      exact h.elapse

end State.WithinCapacities

/-- Settles O57: every operation of the model keeps the capacities, so every command and event does, and the time base with them. -/
theorem stepKeepsCapacities : Obligations.StepKeepsCapacities := by
  intro s t h ht
  unfold step at ht
  split at ht
  next i rest _ => exact State.WithinCapacities.exec (s := { s with pending := rest }) h ht
  next => exact h.idle ht

end Sys2Proof.Machine

/-! O34: the regrind cycle. -/

namespace Sys2Proof.Machine

/-! ### What a notice of a free pocket leaves -/

theorem State.assignIfFree_svp (s : State) (n : Nat) : (s.assignIfFree n).svp = s.svp := by
  unfold State.assignIfFree
  split
  · split
    · rfl
    · dsimp only
      split <;> rfl
  · rfl

theorem State.noticeIfFree_svp (s : State) (c p : Nat) : (s.noticeIfFree c p).svp = s.svp :=
  State.noticeIfFree_keeps (π := State.svp) State.assignIfFree_svp s c p

theorem State.departPocket_svp (s : State) (l : Location) (n : Nat) (cause : MarkCause) : (s.departPocket l n cause).svp = s.svp := by
  unfold State.departPocket
  split
  · split
    · exact State.noticeIfFree_svp _ _ _
    · rfl
  · rfl

theorem State.PutsAway.departPocket {s t : State} (h : s.PutsAway t) (l : Location) (n : Nat) (cause : MarkCause) :
    s.PutsAway (t.departPocket l n cause) := by
  unfold State.departPocket
  split
  · split
    · exact (h.setPocket _ _ _).noticeIfFree _ _
    · exact h
  · exact h

theorem State.departPocket_sorted {s : State} (hs : tableSorted s.psc.pockets = true) (l : Location) (n : Nat) (cause : MarkCause) :
    tableSorted (s.departPocket l n cause).psc.pockets = true := by
  unfold State.departPocket
  split
  · split
    · exact (State.noticeIfFree_passes (tableSorted_dset _ _ hs) _ _).2
    · exact hs
  · exact hs

/-- R42: an instance that departs from a pocket that senses it leaves its mark. -/
theorem State.departPocket_pocket {s : State} {c p n : Nat} (cause : MarkCause) (ht : (s.pocket c p).tool = some n)
    (hsensed : (s.pocket c p).sensed = .present) (hf : (s.pocket c p).state ≠ .fault) :
    (s.departPocket (.pocket c p) n cause).pocket c p =
      { s.pocket c p with tool := none, mark := some ⟨n, cause⟩, state := .occupied } := by
  have hdepart : (s.pocket c p).depart n cause = { s.pocket c p with tool := none, mark := some ⟨n, cause⟩, state := .occupied } := by
    rw [Pocket.depart, if_pos hsensed, if_neg hf]
  have hset := State.pocket_setPocket_self s c p ((s.pocket c p).depart n cause)
  have hbusy : ¬ ((s.setPocket c p ((s.pocket c p).depart n cause)).pocket c p).free = true := by
    rw [hset, hdepart]
    simp [Pocket.free]
  rw [State.departPocket, if_pos ht, State.noticeIfFree, if_neg hbusy, hset, hdepart]

/-! ### REGRIND_OUT -/

/-- The transition of REGRIND_OUT (R128). -/
def regrindOutMove : Move := { cause := .regrindOut, custody := .atRegrind, loc := .offsite }

theorem InstRec.moved_regrindOut {r : InstRec} (h : r.custody = .regrindDue) :
    r.moved regrindOutMove = { r with custody := .atRegrind, loc := .offsite, link := none, qcause := none } := by
  by_cases hl : r.life = 0 <;> simp [InstRec.moved, regrindOutMove, redirect, hl, h]

/-- R128: the state after an accepted REGRIND_OUT. -/
def State.regroundOut (s : State) (n : Nat) (r : InstRec) : State :=
  ((s.move n r regrindOutMove).departPocket r.loc n .regrind).leavePutaway n

theorem State.regroundOut_tool {s : State} {n : Nat} {r : InstRec} (h : r.custody = .regrindDue) (m : Nat) :
    (s.regroundOut n r).tool m =
      if m = n then some { r with custody := .atRegrind, loc := .offsite, link := none, qcause := none } else s.tool m := by
  rw [State.regroundOut, State.tool_of_trg (State.leavePutaway_trg _ n), State.tool_of_trg (State.departPocket_trg _ _ _ _),
    State.tool_move, InstRec.moved_regrindOut h]

/-- R128: what an accepted REGRIND_OUT leaves as it was. -/
theorem State.regroundOut_putsAway (s : State) (n : Nat) (r : InstRec) : (s.move n r regrindOutMove).PutsAway (s.regroundOut n r) :=
  ((State.PutsAway.refl _).departPocket _ _ _).leavePutaway n

theorem State.regroundOut_svp {s : State} {n : Nat} {r : InstRec} (h : r.custody = .regrindDue) :
    (s.regroundOut n r).svp =
      s.svp.handed s.now [.custodyChange n r.type (some .regrindDue) r.loc (some .atRegrind) .offsite .regrindOut none] := by
  rw [State.regroundOut, State.leavePutaway_svp, State.departPocket_svp, State.move_svp, InstRec.moved_regrindOut h, changeReport, h]
  rfl

theorem State.regroundOut_pocket {s : State} {n c p : Nat} {r : InstRec} (hs : tableSorted s.psc.pockets = true)
    (hl : r.loc = .pocket c p) (ht : (s.pocket c p).tool = some n) (hsensed : (s.pocket c p).sensed = .present)
    (hf : (s.pocket c p).state ≠ .fault) :
    (s.regroundOut n r).pocket c p = { s.pocket c p with tool := none, mark := some ⟨n, .regrind⟩, state := .occupied } := by
  have hdeparted := State.departPocket_pocket (s := s.move n r regrindOutMove) .regrind ht hsensed hf
  have hsorted := State.departPocket_sorted (s := s.move n r regrindOutMove) hs r.loc n .regrind
  obtain ⟨-, hheld⟩ := State.HoldsPockets.leavePutaway _ n hsorted
  rw [← hl] at hdeparted
  rw [State.regroundOut, hheld c p (by rw [hdeparted]; simp) (by rw [hdeparted]; simp), hdeparted]
  rfl

/-! ### REGRIND_BACK -/

/-- The transition of REGRIND_BACK (R129). -/
def regrindBackMove : Move := { cause := .regrindBack, custody := .unmeasured, loc := .bench }

theorem InstRec.moved_regrindBack {r : InstRec} {budget : Nat} (h : r.custody = .atRegrind) (hb : 1 ≤ budget) :
    (r.reground budget).moved regrindBackMove = { r with
      custody := .unmeasured, loc := .bench, link := none, qcause := none, marks := r.marks + 1, life := budget
      warned := false, spent := false, meas := none } := by
  have hlife : budget ≠ 0 := by omega
  simp [InstRec.moved, InstRec.reground, regrindBackMove, redirect, hlife, h]

/-- R129: what an accepted REGRIND_BACK does. -/
theorem State.regrindBack_does {s : State} {n : Nat} {r : InstRec} {t : TypeRec} (ht : s.type r.type = some t) (h : r.custody = .atRegrind)
    (hlimit : r.marks < t.regrindLimit) (hb : 1 ≤ t.budget) :
    ∃ u rs, s.regrindBack n r = (u, .plain .ok) ∧
      (∀ m, u.tool m = if m = n then some { r with
        custody := .unmeasured, loc := .bench, link := none, qcause := none, marks := r.marks + 1, life := t.budget
        warned := false, spent := false, meas := none } else s.tool m) ∧
      s.Issues u ∧ u.isc.queue = s.isc.queue ∧
      u.svp = s.svp.handed s.now
        (.custodyChange n r.type (some .atRegrind) r.loc (some .unmeasured) .bench .regrindBack none :: rs) := by
  let v := s.move n (r.reground t.budget) regrindBackMove
  have hmoved := InstRec.moved_regrindBack h hb
  have hvn : v.tool n = some ((r.reground t.budget).moved regrindBackMove) := (State.tool_move _ _ _ _ _).trans (if_pos rfl)
  have hann : v.announce n = v.tryPutaway n := State.announce_unmeasured hvn (by rw [hmoved])
  have hissues : s.Issues ((v.tryPutaway n).settleMarks n) := (((State.Issues.refl s).move n _ _).tryPutaway n).settleMarks n
  obtain ⟨rs, hrs⟩ := ((State.Runs.refl v).tryPutaway n |>.settleMarks n).1
  refine ⟨(v.tryPutaway n).settleMarks n, rs, ?_, fun m => ?_, hissues, ?_, ?_⟩
  · rw [← hann, State.regrindBack, if_neg (not_not.2 h), if_neg (by simp [State.atLimit, ht, hlimit])]
    simp only [ht]
    rfl
  · rw [State.tool_of_trg (State.settleMarks_trg _ n), State.tool_of_trg (State.tryPutaway_trg v n), ← hmoved]
    exact State.tool_move _ _ _ _ _
  · rw [State.settleMarks_isc]
    exact ((State.PutsAway.refl v).tryPutaway n).queue_eq
  · rw [hrs, show v.svp = _ from State.move_svp s n _ _, show v.now = s.now from rfl, ← Svp.handed_append, hmoved, changeReport]
    simp only [InstRec.reground, h]
    rfl

/-! ### The commands -/

/-- Settles O34, by the refusals in order and the record before and after. -/
theorem regrindCycle : Obligations.RegrindCycle := by
  refine ⟨fun s tag body => ⟨fun h => ⟨fun hm => ?_, fun hm hrange => ?_, fun hm h1 h2 hn => ?_⟩,
      fun h => ⟨fun hm => ?_, fun hm hrange => ?_, fun hm h1 h2 hn => ?_⟩⟩,
    fun s tag body r t hno hn ht hpockets => ⟨fun h => ⟨fun hm hc => ?_, fun hm hc hlimit => ?_, fun hm hc hlimit => ?_⟩,
      fun h => ⟨fun hm hc => ?_, fun hm hc hlimit => ?_, fun hm hc hlimit hb => ?_⟩⟩⟩
  · change execRegrindOut tag body s = _
    unfold execRegrindOut
    exact hostCommand_answers h (whenRunning_loading hm)
  · change execRegrindOut tag body s = _
    unfold execRegrindOut
    exact hostCommand_answers h ((whenRunning_running hm).trans (withTool_range hrange))
  · change execRegrindOut tag body s = _
    unfold execRegrindOut
    exact hostCommand_answers h ((whenRunning_running hm).trans (withTool_absent (toolNo_iff.2 ⟨h1, h2⟩) hn))
  · change execRegrindBack tag body s = _
    unfold execRegrindBack
    exact hostCommand_answers h (whenRunning_loading hm)
  · change execRegrindBack tag body s = _
    unfold execRegrindBack
    exact hostCommand_answers h ((whenRunning_running hm).trans (withTool_range hrange))
  · change execRegrindBack tag body s = _
    unfold execRegrindBack
    exact hostCommand_answers h ((whenRunning_running hm).trans (withTool_absent (toolNo_iff.2 ⟨h1, h2⟩) hn))
  · change execRegrindOut tag body s = _
    unfold execRegrindOut
    exact hostCommand_answers h ((whenRunning_running hm).trans ((withTool_present (s := s.taken _ tag body) hno hn).trans (if_pos hc)))
  · change execRegrindOut tag body s = _
    unfold execRegrindOut
    have hat : (s.taken 0x30 tag body).atLimit r = true := by
      unfold State.atLimit
      rw [show (s.taken 0x30 tag body).type r.type = some t from ht]
      exact decide_eq_true hlimit
    exact hostCommand_answers h ((whenRunning_running hm).trans ((withTool_present (s := s.taken _ tag body) hno hn).trans
      ((if_neg (not_not.2 hc)).trans (if_pos hat))))
  · have hbelow : ¬ (s.taken 0x30 tag body).atLimit r = true := by
      unfold State.atLimit
      rw [show (s.taken 0x30 tag body).type r.type = some t from ht]
      simpa using hlimit
    have htool := State.regroundOut_tool (s := s.taken 0x30 tag body) (n := fieldAt body 0 2) hc
    have hputs := State.regroundOut_putsAway (s.taken 0x30 tag body) (fieldAt body 0 2) r
    have hsvp := State.regroundOut_svp (s := s.taken 0x30 tag body) (n := fieldAt body 0 2) hc
    let told : Report := .custodyChange (fieldAt body 0 2) r.type (some .regrindDue) r.loc (some .atRegrind) .offsite .regrindOut none
    refine ⟨{ (s.taken 0x30 tag body).regroundOut (fieldAt body 0 2) r with svp := s.svpAnswered 0x30 tag body [told] (.plain .ok) },
      ?_, (htool _).trans (if_pos rfl),
      fun m hm => (htool m).trans (if_neg hm), ?_, hputs.hoe_eq, hputs.queue_eq, State.leavePutaway_unassigned _ _,
      fun c p hl htl hsensed hf => State.regroundOut_pocket (s := s.taken 0x30 tag body) hpockets hl htl hsensed hf, rfl⟩
    · change execRegrindOut tag body s = _
      unfold execRegrindOut
      exact hostCommand_runs h ((whenRunning_running hm).trans ((withTool_present (s := s.taken _ tag body) hno hn).trans
        ((if_neg (not_not.2 hc)).trans (if_neg hbelow)))) hsvp
    · exact State.Runs.toolsOnly ((((State.Runs.refl _).move _ r regrindOutMove).departPocket r.loc _ .regrind).leavePutaway _) _
  · change execRegrindBack tag body s = _
    unfold execRegrindBack
    exact hostCommand_answers h ((whenRunning_running hm).trans ((withTool_present (s := s.taken _ tag body) hno hn).trans (if_pos hc)))
  · change execRegrindBack tag body s = _
    unfold execRegrindBack
    have hat : (s.taken 0x31 tag body).atLimit r = true := by
      unfold State.atLimit
      rw [show (s.taken 0x31 tag body).type r.type = some t from ht]
      exact decide_eq_true hlimit
    exact hostCommand_answers h ((whenRunning_running hm).trans ((withTool_present (s := s.taken _ tag body) hno hn).trans
      ((if_neg (not_not.2 hc)).trans (if_pos hat))))
  · obtain ⟨u, rs, hrun, htool, hissue, hqueue, hsvp⟩ :=
      State.regrindBack_does (s := s.taken 0x31 tag body) (n := fieldAt body 0 2) ht hc hlimit hb
    let told : Report := .custodyChange (fieldAt body 0 2) r.type (some .atRegrind) r.loc (some .unmeasured) .bench .regrindBack none
    refine ⟨{ u with svp := s.svpAnswered 0x31 tag body (told :: rs) (.plain .ok) }, rs, ?_, (htool _).trans (if_pos rfl),
      fun m hm => (htool m).trans (if_neg hm),
      hissue.runs.toolsOnly _, hissue.hoe_eq, hqueue, rfl⟩
    change execRegrindBack tag body s = _
    unfold execRegrindBack
    exact hostCommand_runs h ((whenRunning_running hm).trans ((withTool_present (s := s.taken _ tag body) hno hn).trans hrun)) hsvp

end Sys2Proof.Machine

/-! O10: SCAN_ONCE and LEARN_EMPTY. -/

namespace Sys2Proof.Machine

/-! ### The handle counter beside the port's other records -/

theorem Svp.report_handle (v : Svp) (handle : Nat) (time : HallTime) (r : Report) :
    ({ v with handle := handle } : Svp).report time r = { v.report time r with handle := handle } := by
  have henabled : ({ v with handle := handle } : Svp).enabled r.kind = v.enabled r.kind := rfl
  unfold Svp.report
  rw [henabled]
  split_ifs
  · rfl
  · rfl
  · rfl

theorem Svp.handed_handle (v : Svp) (handle : Nat) (time : HallTime) (rs : List Report) :
    ({ v with handle := handle } : Svp).handed time rs = { v.handed time rs with handle := handle } := by
  induction rs generalizing v with
  | nil => rfl
  | cons r rs ih => rw [Svp.handed_cons, Svp.report_handle, ih, Svp.handed_cons]

theorem Svp.startTx_handle (v : Svp) (handle : Nat) : ({ v with handle := handle } : Svp).startTx = { v.startTx with handle := handle } := by
  unfold Svp.startTx
  cases hv : v.tx with
  | none => rfl
  | some t => simp only [hv]

/-- The step of a command taken at once whose run takes a handle (R193). -/
theorem hostCommand_handles {kind tag : Byte} {body : List Byte} {s u : State} {r : Reply} {rs : List Report}
    {run : State → State × Reply} (h : s.takesNow kind tag body = true) (hr : run (s.taken kind tag body) = (u, r))
    (hs : u.svp = (s.taken kind tag body).takeHandle.svp.handed s.now rs) :
    hostCommand kind tag body run s = .next { u with
      svp := { s.svpAnswered kind tag body rs r with handle := if s.svp.handle ≥ 65535 then 1 else s.svp.handle + 1 } } := by
  have hhandle : (s.taken kind tag body).svp.handle = s.svp.handle := s.bringIn_handle _
  have hsvp : (u.svp.makeReply r).startTx =
      { s.svpAnswered kind tag body rs r with handle := if s.svp.handle ≥ 65535 then 1 else s.svp.handle + 1 } := by
    rw [hs, State.takeHandle_svp, Svp.handed_handle, hhandle]
    exact Svp.startTx_handle (((s.taken kind tag body).svp.handed s.now rs).makeReply r) _
  rw [hostCommand_taken h, hr, hsvp]

/-! ### The search for an enabled pocket -/

theorem State.nextEnabled_eq_some {s : State} {c above p : Nat} (h : above < p) (h64 : p ≤ 64) (he : (s.pocket c p).enabled = true)
    (hgap : ∀ k, above < k → k < p → (s.pocket c k).enabled = false) : s.nextEnabled c above = some p := by
  unfold State.nextEnabled allPockets
  rw [List.find?_map, Option.map_eq_some_iff]
  refine ⟨p - 1, List.find?_range_eq_some.2 ⟨?_, List.mem_range.2 (by omega), fun j hj => ?_⟩, by omega⟩
  · rw [Function.comp_apply, show p - 1 + 1 = p by omega]
    simp [h, he]
  · rw [Function.comp_apply]
    by_cases hj' : above < j + 1
    · simp [hgap (j + 1) hj' (by omega)]
    · simp [hj']

theorem State.nextEnabled_eq_none {s : State} {c above : Nat} (h : ∀ p, above < p → p ≤ 64 → (s.pocket c p).enabled = false) :
    s.nextEnabled c above = none := by
  refine List.find?_eq_none.2 fun p hp => ?_
  obtain ⟨-, h64⟩ := mem_allPockets.1 hp
  by_cases ha : above < p
  · simp [h p ha h64]
  · simp [ha]

/-! ### Lists as sets, in order -/

theorem insertBy_sorted {α : Type} {key : α → Nat} (x : α) {xs : List α} (h : xs.Pairwise (fun a b => key a ≤ key b)) :
    (insertBy key x xs).Pairwise (fun a b => key a ≤ key b) := by
  induction xs with
  | nil => exact List.pairwise_singleton _ x
  | cons y rest ih =>
    obtain ⟨hy, hrest⟩ := List.pairwise_cons.1 h
    unfold insertBy
    split
    next hlt =>
      refine List.pairwise_cons.2 ⟨fun z hz => ?_, h⟩
      rcases List.mem_cons.1 hz with rfl | hz
      · exact hlt.le
      · exact hlt.le.trans (hy z hz)
    next hge =>
      refine List.pairwise_cons.2 ⟨fun z hz => ?_, ih hrest⟩
      rcases List.mem_cons.1 ((insertBy_perm key x rest).mem_iff.1 hz) with rfl | hz
      · exact not_lt.1 hge
      · exact hy z hz

theorem sortBy_sorted {α : Type} (key : α → Nat) (xs : List α) : (sortBy key xs).Pairwise (fun a b => key a ≤ key b) := by
  have hfold (acc : List α) (h : acc.Pairwise (fun a b => key a ≤ key b)) :
      (xs.foldl (fun acc x => insertBy key x acc) acc).Pairwise (fun a b => key a ≤ key b) := by
    induction xs generalizing acc with
    | nil => exact h
    | cons x rest ih => exact ih _ (insertBy_sorted x h)
  exact hfold [] List.Pairwise.nil

/-- The first of a list taken as a set is its least. -/
theorem asSet_head_le {p q : Nat} {rest xs : List Nat} (h : asSet xs = p :: rest) (hq : q ∈ xs) : p ≤ q := by
  have hmem := (sortBy_perm id xs).mem_iff.2 hq
  have hsorted := sortBy_sorted id xs
  unfold asSet at h
  cases hl : sortBy id xs with
  | nil =>
    rw [hl] at hmem
    cases hmem
  | cons a l =>
    rw [hl, List.eraseDups_cons] at h
    rw [hl] at hmem hsorted
    obtain ⟨rfl, -⟩ := List.cons.inj h
    rcases List.mem_cons.1 hmem with rfl | hmem
    · exact le_rfl
    · exact (List.pairwise_cons.1 hsorted).1 q hmem

/-! ### SCAN_ONCE -/

theorem cabinetNo_iff {c : Nat} : cabinetNo c = true ↔ 1 ≤ c ∧ c ≤ 12 := within_iff

theorem pocketNo_iff {p : Nat} : pocketNo p = true ↔ 1 ≤ p ∧ p ≤ 64 := within_iff

/-- R34: a SCAN_ONCE that no row refuses starts its pass. -/
theorem State.scanOnce_starts {s : State} {c : Nat} (hc : cabinetNo c = true) (hm : s.running = true)
    (he : (s.cab c).settings.enabled = true) (hp : (s.cab c).pass = none) (hl : (s.cab c).heldLearn = none) :
    s.scanOnce c = (s.takeHandle.startSingle c s.svp.handle, .with .accepted (.handle s.svp.handle)) := by
  unfold State.scanOnce
  simp [hc, hm, he, hp, hl]

theorem State.startSingle_some {s : State} {c handle p : Nat} (h : s.nextEnabled c 0 = some p) :
    s.startSingle c handle = s.setCab c { s.cab c with pass := some (.single handle p 0) } := by
  simp only [State.startSingle, h]

theorem State.startSingle_none {s : State} {c handle : Nat} (h : s.nextEnabled c 0 = none) :
    s.startSingle c handle = s.report (.scanDone c handle 0 (s.pocketsIn c .fault)) := by
  simp only [State.startSingle, h]

/-! ### LEARN_EMPTY -/

theorem Pocket.not_learnable_iff {r : Pocket} : (!r.learnable) = true ↔
    r.tool ≠ none ∨ r.mark ≠ none ∨ r.state = .expectTake ∨ r.state = .expectPlace ∨ r.sensed = .present := by
  unfold Pocket.learnable
  cases r.tool <;> cases r.mark <;> simp
  tauto

theorem Cabinet.learning_iff {k : Cabinet} : k.learning = true ↔
    k.heldLearn ≠ none ∨ ∃ h p rest learned refused failed, k.pass = some (.learn h p rest learned refused failed) := by
  unfold Cabinet.learning
  rw [Bool.or_eq_true, Option.isSome_iff_ne_none]
  apply or_congr Iff.rfl
  split
  next h => exact iff_of_true rfl ⟨_, _, _, _, _, _, h⟩
  next h => exact iff_of_false Bool.false_ne_true fun ⟨_, _, _, _, _, _, he⟩ => h _ _ _ _ _ _ he

theorem learnEmpty_inRange {c : Nat} {pockets : List Nat} : (cabinetNo c && !pockets.isEmpty && pockets.all pocketNo) = true ↔
    1 ≤ c ∧ c ≤ 12 ∧ pockets ≠ [] ∧ ∀ p ∈ pockets, 1 ≤ p ∧ p ≤ 64 := by
  simp only [Bool.and_eq_true, cabinetNo_iff, List.all_eq_true, pocketNo_iff, Bool.not_eq_true', List.isEmpty_eq_false_iff]
  tauto

/-- R35: a LEARN_EMPTY that no row refuses takes a handle, and starts its pass or is held. -/
theorem State.learnEmpty_accepted {s : State} {c : Nat} {pockets : List Nat}
    (hrange : (cabinetNo c && !pockets.isEmpty && pockets.all pocketNo) = true) (hl : (s.cab c).learning = false)
    (hall : ∀ p ∈ pockets, (s.pocket c p).learnable = true) :
    s.learnEmpty c pockets = (match (s.cab c).pass with
      | none => s.takeHandle.learnOn c s.svp.handle (asSet pockets) [] [] []
      | some _ => s.takeHandle.setCab c { s.cab c with heldLearn := some { handle := s.svp.handle, pockets := asSet pockets } },
      .with .accepted (.handle s.svp.handle)) := by
  have hany : pockets.any (fun p => !(s.pocket c p).learnable) = false := by simpa using hall
  unfold State.learnEmpty
  rw [if_neg (by simp [hrange]), if_neg (by simp [hl]), if_neg (by simp [hany])]
  simp only [show s.takeHandle.cab c = s.cab c from rfl]
  cases (s.cab c).pass
  · rfl
  · rfl

/-- R35: a learning pass starts at the first pocket of its list that meets the conditions. -/
theorem State.learnOn_first {s : State} {c handle p : Nat} {rest : List Nat} (h : (s.pocket c p).learnable = true)
    (learned refused failed : List Nat) :
    s.learnOn c handle (p :: rest) learned refused failed =
      s.setCab c { s.cab c with pass := some (.learn handle p rest learned refused failed) } := by
  simp only [State.learnOn, State.learnNext, h, if_true]

/-! ### The commands -/

theorem execScanOnce_handles {s u : State} {tag : Byte} {body : List Byte} {r : Reply} {rs : List Report}
    (h : s.takesNow 0x13 tag body = true) (hr : (s.taken 0x13 tag body).scanOnce (fieldAt body 0 1) = (u, r))
    (hs : u.svp = (s.taken 0x13 tag body).takeHandle.svp.handed s.now rs) :
    exec (.scanOnce tag body) s = .next { u with
      svp := { s.svpAnswered 0x13 tag body rs r with handle := if s.svp.handle ≥ 65535 then 1 else s.svp.handle + 1 } } :=
  hostCommand_handles (run := fun s => s.scanOnce (fieldAt body 0 1)) h hr hs

theorem execLearnEmpty_handles {s u : State} {tag : Byte} {body : List Byte} {r : Reply}
    (h : s.takesNow 0x12 tag body = true) (hr : (s.taken 0x12 tag body).learnEmpty (fieldAt body 0 1) (listAt body 1) = (u, r))
    (hs : u.svp = (s.taken 0x12 tag body).takeHandle.svp) :
    exec (.learnEmpty tag body) s = .next { u with
      svp := { s.svpAnswered 0x12 tag body [] r with handle := if s.svp.handle ≥ 65535 then 1 else s.svp.handle + 1 } } :=
  hostCommand_handles (run := fun s => s.learnEmpty (fieldAt body 0 1) (listAt body 1)) (rs := []) h hr hs

/-- Settles O10, by the rows in order and the search for the first pocket. -/
theorem passCommandsStartPasses : Obligations.PassCommandsStartPasses := by
  intro s tag body c
  refine ⟨fun h => ⟨fun hc => ?_, fun hc hm => ?_, fun hc hm he => ?_, fun hc hm he hbusy => ?_, ?_⟩,
    fun h hc hm he hp hl hnone => ?_, fun h => ?_, fun h hc hne hall hl => ?_⟩
  · change execScanOnce tag body s = _
    unfold execScanOnce
    exact hostCommand_answers h (if_pos (Bool.eq_false_iff.2 (mt cabinetNo_iff.1 hc)))
  · change execScanOnce tag body s = _
    unfold execScanOnce
    have hoff : (s.taken 0x13 tag body).running = false := by
      rw [← Bool.not_eq_true, State.taken_running, hm]
      decide
    exact hostCommand_answers h ((if_neg (ne_false_of_eq_true (cabinetNo_iff.2 hc))).trans (if_pos hoff))
  · change execScanOnce tag body s = _
    unfold execScanOnce
    exact hostCommand_answers h ((if_neg (ne_false_of_eq_true (cabinetNo_iff.2 hc))).trans
      ((if_neg (ne_false_of_eq_true (State.taken_running.2 hm))).trans (if_pos he)))
  · change execScanOnce tag body s = _
    unfold execScanOnce
    have hb : (((s.taken 0x13 tag body).cab c).pass.isSome || ((s.taken 0x13 tag body).cab c).heldLearn.isSome) = true := by
      rw [Bool.or_eq_true, Option.isSome_iff_ne_none, Option.isSome_iff_ne_none]
      exact hbusy
    exact hostCommand_answers h ((if_neg (ne_false_of_eq_true (cabinetNo_iff.2 hc))).trans
      ((if_neg (ne_false_of_eq_true (State.taken_running.2 hm))).trans ((if_neg (ne_false_of_eq_true he)).trans (if_pos hb))))
  · intro p hc hm he hp hl h1 h64 hep hgap
    have hstarts := State.scanOnce_starts (s := s.taken 0x13 tag body) (cabinetNo_iff.2 hc) (State.taken_running.2 hm) he hp hl
    rw [State.startSingle_some (s := (s.taken 0x13 tag body).takeHandle) (State.nextEnabled_eq_some h1 h64 hep fun k hk => hgap k hk),
      show (s.taken 0x13 tag body).svp.handle = s.svp.handle from s.bringIn_handle _] at hstarts
    refine ⟨_, execScanOnce_handles (rs := []) h hstarts rfl, ?_, fun d hd => ?_, rfl, rfl⟩
    · exact (State.cab_setCab (s.taken 0x13 tag body).takeHandle c c _).trans (if_pos rfl)
    · exact (State.cab_setCab (s.taken 0x13 tag body).takeHandle c d _).trans (if_neg hd)
  · intro faults
    have hstarts := State.scanOnce_starts (s := s.taken 0x13 tag body) (cabinetNo_iff.2 hc) (State.taken_running.2 hm) he hp hl
    rw [State.startSingle_none (s := (s.taken 0x13 tag body).takeHandle) (State.nextEnabled_eq_none fun p h1 h64 => hnone p h1 h64),
      show (s.taken 0x13 tag body).svp.handle = s.svp.handle from s.bringIn_handle _] at hstarts
    exact execScanOnce_handles (rs := [.scanDone c s.svp.handle 0 faults]) h hstarts rfl
  · intro inRange learning
    refine ⟨fun hr => ?_, fun hr hl => ?_, fun hr hl hp => ?_⟩
    · change execLearnEmpty tag body s = _
      unfold execLearnEmpty
      exact hostCommand_answers h (if_pos (Bool.eq_false_iff.2 (mt learnEmpty_inRange.1 hr)))
    · change execLearnEmpty tag body s = _
      unfold execLearnEmpty
      exact hostCommand_answers h ((if_neg (ne_false_of_eq_true (learnEmpty_inRange.2 hr))).trans (if_pos (Cabinet.learning_iff.2 hl)))
    · change execLearnEmpty tag body s = _
      unfold execLearnEmpty
      obtain ⟨p, hmem, hp⟩ := hp
      exact hostCommand_answers h ((if_neg (ne_false_of_eq_true (learnEmpty_inRange.2 hr))).trans
        ((if_neg (mt Cabinet.learning_iff.1 hl)).trans (if_pos (List.any_eq_true.2 ⟨p, hmem, Pocket.not_learnable_iff.2 hp⟩))))
  · have haccepted := State.learnEmpty_accepted (s := s.taken 0x12 tag body)
      (learnEmpty_inRange.2 ⟨hc.1, hc.2, hne, fun p hp => ⟨(hall p hp).1, (hall p hp).2.1⟩⟩) hl fun p hp => (hall p hp).2.2
    rw [show (s.taken 0x12 tag body).svp.handle = s.svp.handle from s.bringIn_handle _] at haccepted
    cases hpass : (s.cab c).pass with
    | none =>
      obtain ⟨q, hq⟩ := List.exists_mem_of_ne_nil _ hne
      cases hset : asSet (listAt body 1) with
      | nil => exact absurd (mem_asSet.2 hq) (by simp [hset])
      | cons p rest =>
        have hp := hall p (mem_asSet.1 (by simp [hset]))
        simp only [show ((s.taken 0x12 tag body).cab c).pass = none from hpass, hset] at haccepted
        rw [State.learnOn_first (s := (s.taken 0x12 tag body).takeHandle) hp.2.2] at haccepted
        refine ⟨_, execLearnEmpty_handles h haccepted rfl, fun d hd => ?_, rfl, rfl,
          fun _ => ⟨p, rest, rfl, fun q hq => asSet_head_le hset hq, ?_⟩, fun x hx => nomatch hx⟩
        · exact (State.cab_setCab (s.taken 0x12 tag body).takeHandle c d _).trans (if_neg hd)
        · exact (State.cab_setCab (s.taken 0x12 tag body).takeHandle c c _).trans (if_pos rfl)
    | some x =>
      simp only [show ((s.taken 0x12 tag body).cab c).pass = some x from hpass] at haccepted
      refine ⟨_, execLearnEmpty_handles h haccepted rfl, fun d hd => ?_, rfl, rfl, fun hn => (Option.some_ne_none x hn).elim, fun y _ => ?_⟩
      · exact (State.cab_setCab (s.taken 0x12 tag body).takeHandle c d _).trans (if_neg hd)
      · refine (State.cab_setCab (s.taken 0x12 tag body).takeHandle c c _).trans ((if_pos rfl).trans ?_)
        rw [← hpass]
        rfl

end Sys2Proof.Machine

/-! What follows a count leaves the channels, and of each pocket its enabling and its count. -/

namespace Sys2Proof.Machine

open State

/-- The pocket is enabled as it was and has the count it had. -/
def Pocket.SameScan (p q : Pocket) : Prop := q.enabled = p.enabled ∧ q.lastCount = p.lastCount

/-- The channels stand, and every pocket is enabled as it was and has the count it had: what follows a count changes neither. -/
structure State.KeepsScan (s t : State) : Prop where
  cabinets : t.psc.cabinets = s.psc.cabinets
  pockets : ∀ c p, (s.pocket c p).SameScan (t.pocket c p)

theorem Pocket.recovered_sameScan (p : Pocket) : p.SameScan p.recovered := by
  unfold Pocket.recovered
  split
  · exact ⟨rfl, rfl⟩
  · split
    · exact ⟨rfl, rfl⟩
    · exact ⟨rfl, rfl⟩
  · exact ⟨rfl, rfl⟩

namespace State.KeepsScan

variable {s t u : State}

theorem of_psc (h : t.psc = s.psc) : s.KeepsScan t := by
  refine ⟨congrArg Psc.cabinets h, fun c p => ?_⟩
  rw [State.pocket, State.pocket, h]
  exact ⟨rfl, rfl⟩

theorem refl (s : State) : s.KeepsScan s := of_psc rfl

theorem trans (h : s.KeepsScan t) (k : t.KeepsScan u) : s.KeepsScan u :=
  ⟨k.cabinets.trans h.cabinets, fun c p =>
    ⟨(k.pockets c p).1.trans (h.pockets c p).1, (k.pockets c p).2.trans (h.pockets c p).2⟩⟩

theorem psc_eq (h : s.KeepsScan t) (k : u.psc = t.psc) : s.KeepsScan u := h.trans (of_psc k)

theorem setPocket {c p : Nat} {r : Pocket} (h : s.KeepsScan t) (hr : (t.pocket c p).SameScan r) : s.KeepsScan (t.setPocket c p r) := by
  refine h.trans ⟨rfl, fun d q => ?_⟩
  rw [State.pocket_setPocket]
  split
  next hk =>
    rw [State.pocket, hk]
    exact hr
  next => exact ⟨rfl, rfl⟩

theorem report (h : s.KeepsScan t) (r : Report) : s.KeepsScan (t.report r) := h.psc_eq rfl

theorem setTool (h : s.KeepsScan t) (n : Nat) (r : InstRec) : s.KeepsScan (t.setTool n r) := h.psc_eq rfl

theorem move (h : s.KeepsScan t) (n : Nat) (r : InstRec) (m : Move) : s.KeepsScan (t.move n r m) := h.psc_eq rfl

theorem setIsc (h : s.KeepsScan t) (r : Isc) : s.KeepsScan (t.setIsc r) := h.psc_eq rfl

theorem forgetAssignment (h : s.KeepsScan t) (n : Nat) : s.KeepsScan (t.forgetAssignment n) := h.psc_eq rfl

theorem changeRequest (h : s.KeepsScan t) (r : Request) (cause : ReqCause) : s.KeepsScan (t.changeRequest r cause) := h.psc_eq rfl

theorem endRequest (h : s.KeepsScan t) (r : Request) (state : ReqState) (cause : ReqCause) :
    s.KeepsScan (t.endRequest r state cause) := h.psc_eq rfl

theorem foldl {α : Type} {f : State → α → State} (h : s.KeepsScan t) (hf : ∀ u x, s.KeepsScan u → s.KeepsScan (f u x)) (xs : List α) :
    s.KeepsScan (xs.foldl f t) := by
  induction xs generalizing t with
  | nil => exact h
  | cons x xs ih => exact ih (hf _ _ h)

/-! ### Put-away -/

theorem assign (h : s.KeepsScan t) (n key : Nat) (z : Zone) : s.KeepsScan (t.assign n key z) :=
  (h.setPocket (c := keyCabinet key) (p := keyPocket key)
    (r := { t.pocket (keyCabinet key) (keyPocket key) with state := .expectPlace }) ⟨rfl, rfl⟩).psc_eq rfl

theorem tryPutaway (h : s.KeepsScan t) (n : Nat) : s.KeepsScan (t.tryPutaway n) := by
  unfold State.tryPutaway
  split
  · split
    · exact h
    · dsimp only
      split
      · exact h.assign _ _ _
      · split
        · exact h
        · exact (h.setIsc _).report _
  · exact h

theorem assignIfFree (h : s.KeepsScan t) (n : Nat) : s.KeepsScan (t.assignIfFree n) := by
  unfold State.assignIfFree
  split
  · split
    · exact h
    · dsimp only
      split
      · exact h.assign _ _ _
      · exact h
  · exact h

theorem noticeIfFree (h : s.KeepsScan t) (c p : Nat) : s.KeepsScan (t.noticeIfFree c p) := by
  unfold State.noticeIfFree State.freeNotice
  split
  · exact h.foldl (fun u n hu => hu.assignIfFree n) _
  · exact h

theorem vacateAssigned (h : s.KeepsScan t) (a : Assignment) : s.KeepsScan (t.vacateAssigned a) := by
  unfold State.vacateAssigned
  dsimp only
  split
  · exact (h.setPocket (r := { t.pocket a.cabinet a.pocket with state := .empty }) ⟨rfl, rfl⟩).noticeIfFree _ _
  · exact h

theorem leavePutaway (h : s.KeepsScan t) (n : Nat) : s.KeepsScan (t.leavePutaway n) := by
  unfold State.leavePutaway State.dropAssignment
  split
  · exact ((h.setIsc _).forgetAssignment n).vacateAssigned _
  · exact h.setIsc _

/-! ### Allocation and release -/

theorem allocateFor (h : s.KeepsScan t) (number : Nat) : s.KeepsScan (t.allocateFor number) := by
  rcases t.allocateFor_cases number with hu | ⟨r, -, hu⟩ | ⟨r, ty, n, i, -, -, -, -, hu⟩ <;> rw [hu]
  · exact h
  · exact h.psc_eq (t.enterWaiting_psc r .noStock)
  · rcases i.loc.pocket_or with ⟨c, p, hl⟩ | hl
    · obtain ⟨q, hq⟩ := t.reserve_pocket r n c p hl
      rw [hq]
      exact (KeepsScan.setPocket (t := t.reserving r n i) (r := { t.pocket c p with state := .expectTake }) (h.psc_eq rfl)
        ⟨rfl, rfl⟩).psc_eq rfl
    · obtain ⟨q, hq⟩ := t.reserve_bench r n hl
      rw [hq]
      exact (KeepsScan.leavePutaway (t := t.reserving r n i) (h.psc_eq rfl) n).psc_eq rfl

theorem allocationPass (h : s.KeepsScan t) : s.KeepsScan t.allocationPass :=
  State.allocationPass_keeps (P := fun u => s.KeepsScan u) (fun _ number hu => hu.allocateFor number) h

theorem announce (h : s.KeepsScan t) (n : Nat) : s.KeepsScan (t.announce n) := by
  unfold State.announce
  split
  · exact h
  · split
    · exact h.allocationPass
    · exact h.allocationPass.tryPutaway n
    · exact h.tryPutaway n

theorem releaseTool (h : s.KeepsScan t) (n : Nat) (redirected : Bool) : s.KeepsScan (t.releaseTool n redirected) := by
  have hset {v : State} {c p : Nat} (hv : s.KeepsScan v) :
      s.KeepsScan (if (v.pocket c p).state = .expectTake then v.setPocket c p { v.pocket c p with state := .occupied } else v) := by
    split
    · exact hv.setPocket ⟨rfl, rfl⟩
    · exact hv
  unfold State.releaseTool
  split
  · exact h
  · dsimp only
    cases redirected <;> split
    · exact hset ((h.setTool _ _).report _)
    · exact (h.setTool _ _).report _
    · exact hset (h.move _ _ _)
    · exact h.move _ _ _

theorem releaseToQueue (h : s.KeepsScan t) (n : Nat) (redirected : Bool) : s.KeepsScan (t.releaseToQueue n redirected) := by
  unfold State.releaseToQueue
  split
  · exact h.releaseTool n redirected
  · exact (h.releaseTool n redirected).changeRequest _ _

/-! ### Events -/

theorem afterPick (h : s.KeepsScan t) (r : Request) (n : Nat) : s.KeepsScan (t.afterPick r n) := by
  unfold State.afterPick
  split
  · exact h.psc_eq ((State.HandsOff.refl t).supplyData _ _ n).psc_eq
  · exact h.endRequest _ _ _

theorem pick (h : s.KeepsScan t) (c p n : Nat) : s.KeepsScan (t.pick c p n) := by
  unfold State.pick
  split
  · exact h
  · split
    · exact h
    · dsimp only
      refine ((((h.move _ _ _).setPocket ?_).changeRequest _ _).afterPick _ _).noticeIfFree _ _
      exact ⟨rfl, rfl⟩

theorem latePick (h : s.KeepsScan t) (c p n : Nat) (r : Request) : s.KeepsScan (t.latePick c p n r) := by
  unfold State.latePick
  split
  · exact h
  · dsimp only
    refine ((((h.move _ _ _).setPocket ?_).changeRequest _ _).afterPick _ _).noticeIfFree _ _
    exact ⟨rfl, rfl⟩

theorem unsanctioned (h : s.KeepsScan t) (c p n : Nat) : s.KeepsScan (t.unsanctioned c p n) := by
  unfold State.unsanctioned
  cases t.tool n with
  | none =>
    refine ((h.report _).setPocket ?_).noticeIfFree _ _
    exact ⟨rfl, rfl⟩
  | some i =>
    refine (((h.report _).move _ _ _).setPocket ?_).noticeIfFree _ _
    exact ⟨rfl, rfl⟩

theorem removed (h : s.KeepsScan t) (c p : Nat) : s.KeepsScan (t.removed c p) := by
  have hclear : s.KeepsScan (t.clearLatePick (pocketKey c p)) := h.psc_eq rfl
  unfold State.removed
  dsimp only
  split
  · exact hclear.pick c p _
  · split
    · exact hclear.latePick c p _ _
    · exact hclear.unsanctioned c p _
  · exact (hclear.setPocket (c := c) (p := p) (r := { t.pocket c p with mark := none, state := .empty }) ⟨rfl, rfl⟩).noticeIfFree c p
  · exact (hclear.setPocket (c := c) (p := p) (r := { t.pocket c p with state := .empty }) ⟨rfl, rfl⟩).noticeIfFree c p
  · exact hclear

theorem unknownPlacement (h : s.KeepsScan t) (c p : Nat) (tool : Option Nat) (custody : Option Custody) :
    s.KeepsScan (t.unknownPlacement c p tool custody) := by
  refine (h.setPocket ?_).report _
  exact ⟨rfl, rfl⟩

theorem place (h : s.KeepsScan t) (c p n : Nat) : s.KeepsScan (t.place c p n) := by
  unfold State.place
  split
  · exact (h.forgetAssignment n).unknownPlacement c p none none
  · split
    · dsimp only
      refine ((((h.move _ _ _).setPocket ?_).forgetAssignment n).leavePutaway n).announce n
      exact ⟨rfl, rfl⟩
    · exact ((h.forgetAssignment n).unknownPlacement c p _ _).tryPutaway n

theorem placed (h : s.KeepsScan t) (c p : Nat) : s.KeepsScan (t.placed c p) := by
  unfold State.placed
  split
  · split
    · exact h.place c p _
    · exact h.unknownPlacement c p _ _
  · exact h.unknownPlacement c p _ _
  · exact h

theorem presenceEvent (h : s.KeepsScan t) (c p : Nat) (e : Presence) : s.KeepsScan (t.presenceEvent c p e) := by
  have hset := h.setPocket (c := c) (p := p) (r := { t.pocket c p with sensed := e, run := 0 }) ⟨rfl, rfl⟩
  unfold State.presenceEvent
  dsimp only
  split
  · exact (hset.report _).placed c p
  · exact (hset.report _).removed c p

theorem debounce (h : s.KeepsScan t) (c p : Nat) (seen : Option Presence) : s.KeepsScan (t.debounce c p seen) := by
  have hrun (run : Nat) := h.setPocket (c := c) (p := p) (r := { t.pocket c p with run := run }) ⟨rfl, rfl⟩
  unfold State.debounce
  dsimp only
  split
  · split
    · exact hrun 0
    · split
      · exact hrun 0
      · split
        · exact h.presenceEvent c p _
        · exact hrun _
  · exact h

/-! ### Faults -/

theorem faultNow (h : s.KeepsScan t) (c p count : Nat) (before : PocketState) : s.KeepsScan (t.faultNow c p count before) := by
  refine (h.setPocket ?_).report _
  exact ⟨rfl, rfl⟩

theorem enterFault (h : s.KeepsScan t) (c p count : Nat) : s.KeepsScan (t.enterFault c p count) := by
  unfold State.enterFault
  dsimp only
  split
  · exact h
  · split
    · exact (((h.releaseToQueue _ true).faultNow c p count .expectTake).allocationPass).tryPutaway _
    · exact h.faultNow c p count .expectTake
  · split
    · exact ((h.forgetAssignment _).tryPutaway _).faultNow c p count .expectPlace
    · exact h.faultNow c p count .expectPlace
  · exact h.faultNow c p count _

theorem recover (h : s.KeepsScan t) (c p : Nat) : s.KeepsScan (t.recover c p) := by
  have hset := h.setPocket (t.pocket c p).recovered_sameScan
  unfold State.recover
  dsimp only
  split
  · exact (hset.report _).allocationPass
  · exact (hset.report _).noticeIfFree c p

theorem inRangeCount (h : s.KeepsScan t) (c p : Nat) : s.KeepsScan (t.inRangeCount c p) := by
  unfold State.inRangeCount
  dsimp only
  split
  · exact h.recover c p
  · exact h.setPocket (r := { t.pocket c p with run := (t.pocket c p).run + 1 }) ⟨rfl, rfl⟩

/-- A count of a pass records itself; what follows it keeps the channels, the enabling and the counts (R32, R33, R36, R40). -/
theorem countPocket (s : State) (c p count : Nat) :
    (s.setPocket c p { s.pocket c p with lastCount := some count }).KeepsScan (s.countPocket c p count) := by
  have hset := KeepsScan.refl (s.setPocket c p { s.pocket c p with lastCount := some count })
  unfold State.countPocket
  dsimp only
  split
  · exact hset
  · split
    · exact hset.setPocket ⟨rfl, rfl⟩
    · exact hset.enterFault c p count
  · split
    · exact hset.inRangeCount c p
    · exact hset.debounce c p _
  · split
    · exact hset.inRangeCount c p
    · exact hset.debounce c p _
  · split
    · exact hset.inRangeCount c p
    · exact hset.debounce c p _

end State.KeepsScan

end Sys2Proof.Machine

/-! O13: the count of a pass and the debounce. -/

namespace Sys2Proof.Machine

open State

/-! ### The step of a count -/

/-- What follows a count leaves the channels and the enabling of every pocket, and the count is recorded (R32). -/
theorem State.countPocket_scans (s : State) (c p count : Nat) :
    (s.countPocket c p count).psc.cabinets = s.psc.cabinets ∧ s.KeepsEnabled (s.countPocket c p count) ∧
      ((s.countPocket c p count).pocket c p).lastCount = some count := by
  have hkeeps := State.KeepsScan.countPocket s c p count
  have henabled : s.KeepsEnabled (s.setPocket c p { s.pocket c p with lastCount := some count }) := .setPocket rfl
  refine ⟨hkeeps.cabinets, henabled.trans fun d q => (hkeeps.pockets d q).1, ?_⟩
  rw [(hkeeps.pockets c p).2, State.pocket_setPocket_self]

/-- R34: a pass goes on to the first enabled pocket above the one it measured. -/
theorem State.nextEnabled_after {s t : State} {c p q : Nat} (h : s.KeepsEnabled t) (hpq : p < q) (hq : q ≤ 64)
    (hnext : (s.pocket c q).enabled = true) (hgap : ∀ k, p < k → k < q → (s.pocket c k).enabled = false) :
    t.nextEnabled c p = some q :=
  State.nextEnabled_eq_some hpq hq ((h c q).trans hnext) fun k h1 h2 => (h c k).trans (hgap k h1 h2)

/-- The step of a count of an automatic pass: the pocket takes it, and the channel goes on to the next enabled pocket (R32, R34). -/
theorem execPocketCount_measures {s t : State} {c p q cycles : Nat} {rs : List Report} (h : s.measures c p q)
    (ht : s.quiet.countPocket c p (countOf cycles) = t) (hsvp : t.svp = s.svp.handed s.now rs) :
    exec (.pocketCount c cycles) s =
      .next { t.setCab c { s.cab c with pass := some (.auto q) } with svp := s.svpReported rs } := by
  obtain ⟨hc1, hc2, -, hpq, hq, hpass, hp, hnext, hgap⟩ := h
  obtain ⟨hcabs, henabled, -⟩ := State.countPocket_scans s.quiet c p (countOf cycles)
  rw [ht] at hcabs henabled
  have hcab : t.cab c = s.cab c := by
    unfold State.cab
    rw [hcabs]
    rfl
  have htake : s.quiet.takeCount c cycles = t.setCab c { s.cab c with pass := some (.auto q) } := by
    unfold State.takeCount
    rw [show (s.quiet.cab c).pass = some (.auto p) from hpass]
    dsimp only
    rw [if_pos (show (s.quiet.pocket c p).enabled = true from hp), ht]
    unfold State.passOn
    dsimp only
    rw [State.nextEnabled_after henabled hpq hq hnext hgap]
    dsimp only
    rw [hcab]
  have hexec : exec (.pocketCount c cycles) s = event (fun s => s.takeCount c cycles) s := if_pos (cabinetNo_iff.2 ⟨hc1, hc2⟩)
  rw [hexec, event_handed (by rw [htake]; exact hsvp), htake]

/-- Every count of an automatic pass goes out with what follows it (R32, R34). -/
theorem execPocketCount_passes {s : State} {c p q : Nat} (cycles : Nat) (h : s.measures c p q) :
    ∃ t rs, s.quiet.countPocket c p (countOf cycles) = t ∧
      exec (.pocketCount c cycles) s =
        .next { t.setCab c { s.cab c with pass := some (.auto q) } with svp := s.svpReported rs } := by
  obtain ⟨⟨rs, hrs⟩, -⟩ := (State.Runs.refl s.quiet).countPocket c p (countOf cycles)
  exact ⟨_, rs, rfl, execPocketCount_measures h rfl hrs⟩

/-! ### The debounce -/

/-- The pocket with a count recorded (R32). -/
def State.counted (s : State) (c p count : Nat) : State := s.setPocket c p { s.pocket c p with lastCount := some count }

theorem State.counted_pocket (s : State) (c p count : Nat) :
    (s.counted c p count).pocket c p = { s.pocket c p with lastCount := some count } := State.pocket_setPocket_self s c p _

/-- The presence that an in-range count shows (R33). -/
def Pocket.seen (k : Pocket) (count : Nat) : Option Presence :=
  if count ≤ k.presentBound.getD 0 then some .present else if k.absentBound.getD 0 ≤ count then some .absent else none

/-- R33: a count that shows neither the fault level nor a missing baseline. -/
def Pocket.InRange (b count : Nat) : Prop := ¬ (count = 0 ∨ count = 16383 ∨ count < b / 8)

theorem Pocket.classify_unlearned {k : Pocket} (h : k.baseline = none) (count : Nat) : k.classify count = .unclassified := by
  simp only [Pocket.classify, h]

theorem Pocket.classify_inRange {k : Pocket} {b count : Nat} (hb : k.baseline = some b) (h : Pocket.InRange b count) :
    k.classify count = match k.seen count with
      | some .present => .isPresent
      | some .absent => .isAbsent
      | _ => .noChange := by
  unfold Pocket.classify Pocket.seen
  simp only [hb]
  rw [if_neg h]
  split
  · rfl
  · split
    · rfl
    · rfl

theorem Pocket.seen_decided {k : Pocket} {count : Nat} : k.seen count ≠ some .undecided := by
  unfold Pocket.seen
  split
  · exact fun h => by cases h
  · split
    · exact fun h => by cases h
    · exact fun h => by cases h

theorem State.countPocket_unlearned {s : State} {c p : Nat} (h : (s.pocket c p).baseline = none) (count : Nat) :
    s.countPocket c p count = s.counted c p count := by
  unfold State.countPocket
  simp only [Pocket.classify_unlearned h]
  rfl

/-- R36: an in-range count of a pocket not in FAULT feeds the debounce. -/
theorem State.countPocket_debounces {s : State} {c p b count : Nat} (hb : (s.pocket c p).baseline = some b)
    (h : Pocket.InRange b count) (hf : (s.pocket c p).state ≠ .fault) :
    s.countPocket c p count = (s.counted c p count).debounce c p ((s.pocket c p).seen count) := by
  unfold State.countPocket
  simp only [Pocket.classify_inRange hb h, hf, if_false]
  cases hs : (s.pocket c p).seen count with
  | none => rfl
  | some e =>
    cases e with
    | present => rfl
    | absent => rfl
    | undecided => exact absurd hs Pocket.seen_decided

/-- R36: what sets the run to 0. -/
theorem State.debounce_zero {s : State} {c p : Nat} {seen : Option Presence} (hs : (s.pocket c p).sensing = true)
    (hd : (s.pocket c p).sensed ≠ .undecided) (h : seen = none ∨ seen = some (s.pocket c p).sensed) :
    s.debounce c p seen = s.setPocket c p { s.pocket c p with run := 0 } := by
  unfold State.debounce
  rw [if_pos (by simp [hs, hd])]
  rcases h with rfl | rfl
  · rfl
  · exact if_pos rfl

/-- R36: a classification that differs, short of M, adds 1 to the run. -/
theorem State.debounce_counts {s : State} {c p : Nat} {e : Presence} (hs : (s.pocket c p).sensing = true)
    (hd : (s.pocket c p).sensed ≠ .undecided) (he : e ≠ (s.pocket c p).sensed)
    (hm : (s.pocket c p).run + 1 < (s.cab c).settings.debounce) :
    s.debounce c p (some e) = s.setPocket c p { s.pocket c p with run := (s.pocket c p).run + 1 } := by
  unfold State.debounce
  rw [if_pos (by simp [hs, hd])]
  exact (if_neg he).trans (if_neg (by omega))

/-- Settles O13, by the classification of the count and its place in the debounce run. -/
theorem countFeedsDebounce : Obligations.CountFeedsDebounce := by
  intro s c p q cycles h
  have hpocket (t : State) (rs : List Report) (r : Pocket) (ht : t.pocket c p = r) :
      ({ t.setCab c { s.cab c with pass := some (.auto q) } with svp := s.svpReported rs } : State).pocket c p = r := ht
  refine ⟨?_, fun hb => ?_, fun b hb hf hd h0 hmax hlow => ?_⟩
  · obtain ⟨t, rs, ht, hexec⟩ := execPocketCount_passes cycles h
    obtain ⟨hcabs, -, hcount⟩ := State.countPocket_scans s.quiet c p (countOf cycles)
    have hruns := (State.Runs.refl s.quiet).countPocket c p (countOf cycles)
    rw [ht] at hcabs hcount hruns
    refine ⟨_, hexec, hcount, ?_, fun d hd => ?_, (hruns.setCab c _).toolsOnly_of_quiet _⟩
    · exact (State.cab_setCab t c c _).trans (if_pos rfl)
    · refine (State.cab_setCab t c d _).trans ((if_neg hd).trans ?_)
      unfold State.cab
      rw [hcabs]
      rfl
  · exact ⟨_, execPocketCount_measures (rs := []) h (State.countPocket_unlearned (s := s.quiet) hb _) rfl,
      hpocket _ _ _ (State.counted_pocket s.quiet c p _), rfl⟩
  · have hin : Pocket.InRange b (countOf cycles) := by
      unfold Pocket.InRange countOf
      omega
    have hfeeds := State.countPocket_debounces (s := s.quiet) hb hin hf
    have hk := State.counted_pocket s.quiet c p (countOf cycles)
    have hsensing : ((s.quiet.counted c p (countOf cycles)).pocket c p).sensing = true := by
      obtain ⟨-, -, -, -, -, -, hp, -⟩ := h
      rw [hk]
      have he : (s.quiet.pocket c p).enabled = true := hp
      have hbase : (s.quiet.pocket c p).baseline = some b := hb
      have hstate : (s.quiet.pocket c p).state ≠ .fault := hf
      simp [Pocket.sensing, he, hbase, hstate]
    have hdecided : ((s.quiet.counted c p (countOf cycles)).pocket c p).sensed ≠ .undecided := by
      rw [hk]
      exact hd
    intro seen
    refine ⟨fun hseen => ?_, fun hne hother hrun => ?_⟩
    · rw [State.debounce_zero hsensing hdecided (by rw [hk]; exact hseen), hk] at hfeeds
      exact ⟨_, execPocketCount_measures (rs := []) h hfeeds rfl, hpocket _ _ _ (State.pocket_setPocket_self _ c p _), rfl⟩
    · obtain ⟨e, he⟩ := Option.ne_none_iff_exists'.1 hne
      have hother' : e ≠ ((s.quiet.counted c p (countOf cycles)).pocket c p).sensed := by
        rw [hk]
        rintro rfl
        exact hother he
      rw [show (s.quiet.pocket c p).seen (countOf cycles) = some e from he,
        State.debounce_counts hsensing hdecided hother' (by rw [hk]; exact hrun), hk] at hfeeds
      exact ⟨_, execPocketCount_measures (rs := []) h hfeeds rfl, hpocket _ _ _ (State.pocket_setPocket_self _ c p _), rfl⟩

end Sys2Proof.Machine

/-! O16: faults. -/

namespace Sys2Proof.Machine

open State

/-! ### What a pass leaves of a pocket -/

/-- R56: a candidate that lies in a pocket lies in one that senses. -/
theorem State.isCandidate_sensing {s : State} {r : Request} {t : TypeRec} {i : InstRec} {c p : Nat} (h : s.isCandidate r t i = true)
    (hl : i.loc = .pocket c p) : (s.pocket c p).sensing = true := by
  unfold State.isCandidate at h
  rw [hl] at h
  cases hc : i.custody <;> simp_all

/-- A pocket that a pass may leave EXPECT_TAKE where it senses, and leaves as it stands otherwise (R57). -/
def Pocket.ReservedAs (k q : Pocket) : Prop := q = k ∨ (k.sensing = true ∧ q = { k with state := .expectTake })

/-- R57: an allocation for one request leaves a pocket that put-away neither assigns nor gives back. -/
theorem State.allocateFor_pocket {s : State} (hs : tableSorted s.psc.pockets = true) {c p : Nat}
    (he : (s.pocket c p).state ≠ .empty) (hx : (s.pocket c p).state ≠ .expectPlace) (number : Nat) :
    (s.pocket c p).ReservedAs ((s.allocateFor number).pocket c p) ∧ tableSorted (s.allocateFor number).psc.pockets = true := by
  rcases s.allocateFor_cases number with h | ⟨r, -, h⟩ | ⟨r, t, n, i, -, -, -, hcandidate, h⟩ <;> rw [h]
  · exact ⟨.inl rfl, hs⟩
  · have hpsc := s.enterWaiting_psc r .noStock
    refine ⟨.inl ?_, by rw [hpsc]; exact hs⟩
    rw [State.pocket, State.pocket, hpsc]
  · rcases i.loc.pocket_or with ⟨d, q, hl⟩ | hl
    · obtain ⟨report, hq⟩ := s.reserve_pocket r n d q hl
      rw [hq]
      refine ⟨?_, tableSorted_dset _ _ hs⟩
      have hset := State.pocket_setPocket (s.reserving r n i) d q c p { s.pocket d q with state := .expectTake }
      by_cases hkey : pocketKey c p = pocketKey d q
      · have hsame : s.pocket d q = s.pocket c p := by rw [State.pocket, State.pocket, hkey]
        rw [if_pos hkey] at hset
        refine .inr ⟨hsame ▸ State.isCandidate_sensing hcandidate hl, hset.trans ?_⟩
        rw [hsame]
      · rw [if_neg hkey] at hset
        exact .inl hset
    · obtain ⟨report, hq⟩ := s.reserve_bench r n hl
      rw [hq]
      obtain ⟨hsorted, hheld⟩ := State.HoldsPockets.leavePutaway (s.reserving r n i) n hs
      exact ⟨.inl (hheld c p he hx), hsorted⟩

/-- R55, R57: a pass leaves a pocket that put-away neither assigns nor gives back, but that it may reserve what lies in it. -/
theorem State.allocationPass_pocket {s : State} (hs : tableSorted s.psc.pockets = true) {c p : Nat}
    (he : (s.pocket c p).state ≠ .empty) (hx : (s.pocket c p).state ≠ .expectPlace) :
    (s.pocket c p).ReservedAs (s.allocationPass.pocket c p) ∧ tableSorted s.allocationPass.psc.pockets = true := by
  refine State.allocationPass_keeps
    (P := fun u => (s.pocket c p).ReservedAs (u.pocket c p) ∧ tableSorted u.psc.pockets = true) (fun u number hu => ?_) ⟨.inl rfl, hs⟩
  obtain ⟨hu, husorted⟩ := hu
  have hstate : (u.pocket c p).state ≠ .empty ∧ (u.pocket c p).state ≠ .expectPlace := by
    rcases hu with hu | ⟨-, hu⟩
    · rw [hu]
      exact ⟨he, hx⟩
    · simp [hu]
  obtain ⟨hstep, hsorted⟩ := State.allocateFor_pocket husorted hstate.1 hstate.2 number
  refine ⟨?_, hsorted⟩
  rcases hu with hu | ⟨hsensing, hu⟩ <;> rcases hstep with hk | ⟨hk, hq⟩
  · exact .inl (hk.trans hu)
  · rw [hu] at hk hq
    exact .inr ⟨hk, hq⟩
  · exact .inr ⟨hsensing, hk.trans hu⟩
  · rw [hu] at hq
    exact .inr ⟨hsensing, hq⟩

/-- R56, R57: nothing that lies in a pocket in FAULT is reserved. -/
theorem Pocket.ReservedAs.fault {k q : Pocket} (h : k.ReservedAs q) (hf : k.state = .fault) : q = k := by
  rcases h with h | ⟨h, -⟩
  · exact h
  · simp [Pocket.sensing, hf] at h

/-! ### What a release leaves of a pocket -/

/-- Every pocket stands but for its state. -/
def State.ChangesStates (s t : State) : Prop :=
  (tableSorted s.psc.pockets = true → tableSorted t.psc.pockets = true) ∧
  ∀ c p, t.pocket c p = { s.pocket c p with state := (t.pocket c p).state }

theorem State.ChangesStates.setState {s v : State} (h : v.psc = s.psc) (c p : Nat) (x : PocketState) :
    s.ChangesStates (v.setPocket c p { v.pocket c p with state := x }) := by
  refine ⟨fun hs => tableSorted_dset _ _ (by rw [h]; exact hs), fun d q => ?_⟩
  rw [State.pocket_setPocket]
  split
  next hk => rw [State.pocket, State.pocket, h, hk]
  next => rw [State.pocket, State.pocket, h]

theorem State.ChangesStates.of_psc {s t : State} (h : t.psc = s.psc) : s.ChangesStates t :=
  ⟨fun hs => by rw [h]; exact hs, fun c p => by rw [State.pocket, State.pocket, h]⟩

theorem State.releaseTool_states (s : State) (n : Nat) (redirected : Bool) : s.ChangesStates (s.releaseTool n redirected) := by
  have hset {v : State} (c p : Nat) (hv : v.psc = s.psc) :
      s.ChangesStates (if (v.pocket c p).state = .expectTake then v.setPocket c p { v.pocket c p with state := .occupied } else v) := by
    split
    · exact .setState hv c p .occupied
    · exact .of_psc hv
  unfold State.releaseTool
  split
  · exact .of_psc rfl
  · dsimp only
    cases redirected <;> split
    · exact hset _ _ rfl
    · exact .of_psc rfl
    · exact hset _ _ rfl
    · exact .of_psc rfl

/-- R61: a release changes of the pockets at most a state. -/
theorem State.releaseToQueue_states (s : State) (n : Nat) (redirected : Bool) : s.ChangesStates (s.releaseToQueue n redirected) := by
  unfold State.releaseToQueue
  split
  · exact s.releaseTool_states n redirected
  · exact s.releaseTool_states n redirected

/-! ### Entry into FAULT -/

/-- The pocket after a fault-level count (R40). -/
def Pocket.faulted (k : Pocket) (x : PocketState) : Pocket := { k with state := x, run := 0 }

/-- What a fault-level count makes of a pocket, with its report among those that go out (R40). -/
def State.Faults (s t : State) (c p count : Nat) : Prop :=
  t.pocket c p = (s.pocket c p).faulted .fault ∧
  ∃ rs, t.svp = s.svp.handed s.now rs ∧
    .pocketEvent .fault c p (s.pocket c p).state (s.pocket c p).tool (s.pocket c p).mark (some count) ∈ rs

theorem State.faultNow_pocket (s : State) (c p count : Nat) (before : PocketState) :
    (s.faultNow c p count before).pocket c p = (s.pocket c p).faulted .fault := State.pocket_setPocket_self s c p _

/-- R40: a pocket whose state alone differs enters FAULT as the pocket before would. -/
theorem State.Faults.faultNow {s v : State} {c p : Nat} (hruns : s.Runs v)
    (hv : ∃ x, v.pocket c p = { s.pocket c p with state := x }) (count : Nat) :
    s.Faults (v.faultNow c p count (s.pocket c p).state) c p count := by
  obtain ⟨x, hx⟩ := hv
  obtain ⟨⟨rs, hrs⟩, -⟩ := id hruns
  refine ⟨?_, rs ++ [.pocketEvent .fault c p (s.pocket c p).state (v.pocket c p).tool (v.pocket c p).mark (some count)], ?_, ?_⟩
  · rw [State.faultNow_pocket, hx]
    rfl
  · rw [Svp.handed_append, ← hrs, ← hruns.now_eq]
    rfl
  · rw [hx]
    exact List.mem_append_right _ (List.mem_singleton.2 rfl)

/-- R40: what the release of a reserved instance brings leaves the pocket in FAULT. -/
theorem State.Faults.afterRelease {s v : State} {c p count : Nat} (h : s.Faults v c p count) (hruns : s.Runs v)
    (hs : tableSorted v.psc.pockets = true) (n : Nat) : s.Faults (v.afterRelease n) c p count := by
  obtain ⟨hpocket, rs, hrs, hmem⟩ := h
  have hfault : (v.pocket c p).state = .fault := by rw [hpocket]; rfl
  obtain ⟨hpass, hsorted⟩ := State.allocationPass_pocket hs (c := c) (p := p) (by simp [hfault]) (by simp [hfault])
  have hpass := hpass.fault hfault
  obtain ⟨-, hheld⟩ := State.HoldsPockets.tryPutaway v.allocationPass n hsorted
  obtain ⟨⟨more, hmore⟩, -⟩ := (State.Runs.refl v).afterRelease n
  refine ⟨?_, rs ++ more, ?_, List.mem_append_left _ hmem⟩
  · rw [State.afterRelease, hheld c p (by simp [hpass, hfault]) (by simp [hpass, hfault]), hpass, hpocket]
  · rw [hmore, hrs, hruns.now_eq, Svp.handed_append]

/-- R40: a fault-level count takes a pocket that is not DISABLED into FAULT. -/
theorem State.enterFault_faults {s : State} {c p : Nat} (hs : tableSorted s.psc.pockets = true)
    (hd : (s.pocket c p).state ≠ .disabled) (count : Nat) : s.Faults (s.enterFault c p count) c p count := by
  have hself : s.Faults (s.faultNow c p count (s.pocket c p).state) c p count := .faultNow (.refl s) ⟨_, rfl⟩ count
  unfold State.enterFault
  dsimp only
  split
  next hk => exact absurd hk hd
  next hk =>
    split
    next n hn =>
      obtain ⟨hsorted, hstates⟩ := s.releaseToQueue_states n true
      have hruns := (State.Runs.refl s).releaseToQueue n true
      have hfaults := State.Faults.faultNow hruns ⟨_, hstates c p⟩ count
      rw [hk] at hfaults
      exact hfaults.afterRelease (hruns.faultNow c p count .expectTake) (tableSorted_dset _ _ (hsorted hs)) n
    next => exact hk ▸ hself
  next hk =>
    split
    next n hn =>
      have hpass := State.tryPutaway_passes (s := s.forgetAssignment n) hs n c p
      have hpocket : ((s.forgetAssignment n).tryPutaway n).pocket c p = s.pocket c p :=
        hpass.resolve_right fun h => by
          have hempty : (s.pocket c p).state = .empty := h.1
          rw [hk] at hempty
          cases hempty
      have hfaults := State.Faults.faultNow (((State.Runs.refl s).forgetAssignment n).tryPutaway n)
        ⟨(s.pocket c p).state, hpocket⟩ count
      exact hk ▸ hfaults
    next => exact hk ▸ hself
  next => exact hself

theorem State.Faults.counted {s t : State} {c p count : Nat} (h : (s.counted c p count).Faults t c p count) :
    t.pocket c p = { s.pocket c p with lastCount := some count, state := .fault, run := 0 } ∧
      ∃ rs, t.svp = s.svp.handed s.now rs ∧
        .pocketEvent .fault c p (s.pocket c p).state (s.pocket c p).tool (s.pocket c p).mark (some count) ∈ rs := by
  unfold State.Faults at h
  rw [State.counted_pocket] at h
  exact h

/-! ### Counts at the fault level and in FAULT -/

theorem Pocket.classify_faultLevel {k : Pocket} {b count : Nat} (hb : k.baseline = some b) (h : ¬ Pocket.InRange b count) :
    k.classify count = .faultLevel := by
  unfold Pocket.classify
  simp only [hb]
  exact if_pos (not_not.1 h)

/-- R40: a fault-level count of a pocket that is not in FAULT. -/
theorem State.countPocket_enters {s : State} {c p b count : Nat} (hb : (s.pocket c p).baseline = some b)
    (h : ¬ Pocket.InRange b count) (hf : (s.pocket c p).state ≠ .fault) :
    s.countPocket c p count = (s.counted c p count).enterFault c p count := by
  unfold State.countPocket
  simp only [Pocket.classify_faultLevel hb h]
  exact if_neg hf

/-- R41: a fault-level count of a pocket in FAULT sets the run to 0. -/
theorem State.countPocket_faultLevel {s : State} {c p b count : Nat} (hb : (s.pocket c p).baseline = some b)
    (h : ¬ Pocket.InRange b count) (hf : (s.pocket c p).state = .fault) :
    s.countPocket c p count = (s.counted c p count).setPocket c p { s.pocket c p with lastCount := some count, run := 0 } := by
  unfold State.countPocket
  simp only [Pocket.classify_faultLevel hb h]
  refine (if_pos hf).trans ?_
  rw [State.pocket_setPocket_self]
  rfl

/-- R41: an in-range count of a pocket in FAULT. -/
theorem State.countPocket_inRange {s : State} {c p b count : Nat} (hb : (s.pocket c p).baseline = some b)
    (h : Pocket.InRange b count) (hf : (s.pocket c p).state = .fault) :
    s.countPocket c p count = (s.counted c p count).inRangeCount c p := by
  unfold State.countPocket
  simp only [Pocket.classify_inRange hb h]
  cases hs : (s.pocket c p).seen count with
  | none => exact if_pos hf
  | some e =>
    cases e with
    | present => exact if_pos hf
    | absent => exact if_pos hf
    | undecided => exact absurd hs Pocket.seen_decided

/-- R41: an in-range count short of the eighth adds 1 to the run. -/
theorem State.inRangeCount_counts {s : State} {c p : Nat} (h : (s.pocket c p).run < 7) :
    s.inRangeCount c p = s.setPocket c p { s.pocket c p with run := (s.pocket c p).run + 1 } := if_neg (by omega)

/-- R41: the eighth in-range count in a row clears the fault. -/
theorem State.inRangeCount_recovers {s : State} {c p : Nat} (h : 7 ≤ (s.pocket c p).run) : s.inRangeCount c p = s.recover c p :=
  if_pos (by omega)

/-! ### Recovery -/

/-- R41: the pocket record after recovery, field by field. -/
theorem Pocket.recovered_fields (k : Pocket) :
    k.recovered.run = 0 ∧ k.recovered.tool = k.tool ∧ k.recovered.sensed = k.sensed ∧
      (k.tool.isSome = true → k.recovered.state = .occupied) ∧
      (k.tool = none → k.sensed = .present → k.recovered.state = if k.mark = none then .unknown else .occupied) ∧
      (k.tool = none → k.sensed ≠ .present → k.recovered.mark = none ∧ k.recovered.state = .empty) := by
  unfold Pocket.recovered
  cases ht : k.tool with
  | some n => simp
  | none =>
    by_cases hs : k.sensed = .present
    · cases hm : k.mark with
      | none => simp [hs]
      | some m => simp [hs]
    · cases hm : k.mark with
      | none => simp [hs]
      | some m => simp [hs]

/-- The pocket after recovery, before ISC is told (R41). -/
def State.recovering (s : State) (c p : Nat) : State :=
  (s.setPocket c p (s.pocket c p).recovered).report
    (.pocketEvent .faultCleared c p .fault (s.pocket c p).tool (s.pocket c p).mark none)

theorem State.recovering_pocket (s : State) (c p : Nat) : (s.recovering c p).pocket c p = (s.pocket c p).recovered :=
  State.pocket_setPocket_self s c p _

/-- R41: what ISC does with a pocket that has recovered changes of it at most the state. -/
theorem State.recover_pocket {s : State} {c p : Nat} (hs : tableSorted s.psc.pockets = true) :
    let k := (s.pocket c p).recovered
    (s.recover c p).pocket c p = { k with state := ((s.recover c p).pocket c p).state } ∧
      ((s.pocket c p).tool.isSome = true →
        ((s.recover c p).pocket c p).state = .occupied ∨ ((s.recover c p).pocket c p).state = .expectTake) ∧
      ((s.pocket c p).tool = none → ((s.recover c p).pocket c p).state = k.state ∨
        (k.state = .empty ∧ ((s.recover c p).pocket c p).state = .expectPlace)) := by
  intro k
  obtain ⟨-, -, -, hsome, -, -⟩ := (s.pocket c p).recovered_fields
  have hk : (s.recovering c p).pocket c p = k := s.recovering_pocket c p
  have hsorted : tableSorted (s.recovering c p).psc.pockets = true := tableSorted_dset _ _ hs
  cases ht : (s.pocket c p).tool with
  | some n =>
    have hstate : k.state = .occupied := hsome (by simp [ht])
    have hrecover : s.recover c p = (s.recovering c p).allocationPass := if_pos (by simp [ht])
    obtain ⟨hpass, -⟩ := State.allocationPass_pocket hsorted (c := c) (p := p) (by simp [hk, hstate]) (by simp [hk, hstate])
    rw [hrecover]
    rw [hk] at hpass
    rcases hpass with h | ⟨-, h⟩
    · rw [h]
      exact ⟨rfl, fun _ => .inl hstate, fun hn => (by cases hn)⟩
    · rw [h]
      exact ⟨rfl, fun _ => .inr rfl, fun hn => (by cases hn)⟩
  | none =>
    have hrecover : s.recover c p = (s.recovering c p).noticeIfFree c p := if_neg (by simp [ht])
    obtain ⟨hpass, -⟩ := State.noticeIfFree_passes hsorted c p
    have hpass := hpass c p
    rw [hrecover]
    rw [hk] at hpass
    rcases hpass with h | ⟨he, h⟩
    · rw [h]
      exact ⟨rfl, fun hn => (by cases hn), fun _ => .inl rfl⟩
    · rw [h]
      exact ⟨rfl, fun hn => (by cases hn), fun _ => .inr ⟨he, rfl⟩⟩

/-- R41: the reports of a recovery, FAULT_CLEARED first. -/
theorem State.recover_svp (s : State) (c p : Nat) : ∃ rs, (s.recover c p).svp = s.svp.handed s.now
    (.pocketEvent .faultCleared c p .fault (s.pocket c p).tool (s.pocket c p).mark none :: rs) := by
  have hruns : (s.recovering c p).Runs (s.recover c p) := by
    unfold State.recover
    dsimp only
    split
    · exact (State.Runs.refl _).allocationPass
    · exact (State.Runs.refl _).noticeIfFree c p
  obtain ⟨⟨rs, hrs⟩, -⟩ := hruns
  exact ⟨rs, hrs⟩

/-- Settles O16, by the level of the count, the state of the pocket and the length of its run. -/
theorem faultEntryAndRecovery : Obligations.FaultEntryAndRecovery := by
  intro s c p q cycles b h hb hpockets hinsts n k
  have hcounted := State.counted_pocket s.quiet c p n
  have hsorted : tableSorted (s.quiet.counted c p n).psc.pockets = true := tableSorted_dset _ _ hpockets
  have hruns := (State.Runs.refl s.quiet).countPocket c p n
  refine ⟨fun hlevel hd hf => ?_, fun hlevel hf => ?_, fun hlevel hf hrun => ?_, fun hlevel hf hrun => ?_⟩
  · have hcount := State.countPocket_enters (s := s.quiet) hb (not_not.2 hlevel) hf
    obtain ⟨hpocket, rs, hrs, hmem⟩ :=
      (State.enterFault_faults (count := n) hsorted (by rw [hcounted]; exact hd)).counted
    rw [hcount] at hruns
    exact ⟨_, rs, execPocketCount_measures h hcount hrs, hpocket, (hruns.setCab c _).toolsOnly_of_quiet _, rfl, hmem⟩
  · have hcount := State.countPocket_faultLevel (s := s.quiet) hb (not_not.2 hlevel) hf
    exact ⟨_, execPocketCount_measures (rs := []) h hcount rfl, State.pocket_setPocket_self _ c p _, rfl⟩
  · have hcount := State.countPocket_inRange (s := s.quiet) hb hlevel hf
    rw [State.inRangeCount_counts (by rw [hcounted]; exact hrun), hcounted] at hcount
    exact ⟨_, execPocketCount_measures (rs := []) h hcount rfl, State.pocket_setPocket_self _ c p _, rfl⟩
  · have hcount := State.countPocket_inRange (s := s.quiet) hb hlevel hf
    rw [State.inRangeCount_recovers (by rw [hcounted]; exact hrun)] at hcount
    obtain ⟨rs, hrs⟩ := (s.quiet.counted c p n).recover_svp c p
    obtain ⟨hpocket, hsome, hnone⟩ := State.recover_pocket (c := c) (p := p) hsorted
    rw [hcounted] at hpocket hsome hnone hrs
    rw [hcount] at hruns
    obtain ⟨hrun0, htool, hsensed, -, hpresent, habsent⟩ :=
      Pocket.recovered_fields { s.quiet.pocket c p with lastCount := some n }
    refine ⟨_, rs, execPocketCount_measures h hcount hrs, (hruns.setCab c _).toolsOnly_of_quiet _,
      (congrArg Pocket.run hpocket).trans hrun0, (congrArg Pocket.tool hpocket).trans htool,
      (congrArg Pocket.sensed hpocket).trans hsensed, rfl, hsome, fun ht hs => ?_, fun ht hs => ?_⟩
    · have hstate := hpresent ht hs
      rcases hnone ht with hx | ⟨he, -⟩
      · exact hx.trans hstate
      · rw [hstate] at he
        revert he
        split <;> intro he <;> cases he
    · obtain ⟨hmark, hstate⟩ := habsent ht hs
      refine ⟨(congrArg Pocket.mark hpocket).trans hmark, ?_⟩
      rcases hnone ht with hx | ⟨-, hx⟩
      · exact .inl (hx.trans hstate)
      · exact .inr hx

end Sys2Proof.Machine

/-! O14: the REMOVED event. -/

namespace Sys2Proof.Machine

open State

/-! ### The event -/

/-- The pocket after the count that completes its debounce to ABSENT (R32, R36). -/
def Pocket.emptied (k : Pocket) (count : Nat) : Pocket := { k with lastCount := some count, sensed := .absent, run := 0 }

/-- What POCKET_EVENT reports of a REMOVED event (R37). -/
def Pocket.removedReport (k : Pocket) (c p : Nat) : Report := .pocketEvent .removed c p k.state k.tool k.mark none

/-- The state in which a REMOVED event is handed on: the pocket has its count and its presence, and the event is reported. -/
def State.withdrawn (s : State) (c p count : Nat) : State :=
  ((s.counted c p count).setPocket c p ((s.pocket c p).emptied count)).report ((s.pocket c p).removedReport c p)

theorem State.withdrawn_pocket (s : State) (c p count : Nat) : (s.withdrawn c p count).pocket c p = (s.pocket c p).emptied count :=
  State.pocket_setPocket_self _ c p _

/-- R32, R33, R36: a count that completes the debounce of a pocket to ABSENT. -/
theorem State.countPocket_removed {s : State} {c p q cycles : Nat} (h : s.completes c p q cycles .absent) :
    s.countPocket c p (countOf cycles) = (s.withdrawn c p (countOf cycles)).removed c p := by
  obtain ⟨-, hsensing, hdecided, hsensed, -, hclass, hdebounce⟩ := h
  have hk := s.counted_pocket c p (countOf cycles)
  have hf : (s.pocket c p).state ≠ .fault := by
    intro hf
    simp [Pocket.sensing, hf] at hsensing
  have hevent : (s.counted c p (countOf cycles)).presenceEvent c p .absent = (s.withdrawn c p (countOf cycles)).removed c p := by
    unfold State.presenceEvent
    simp only [hk]
    rfl
  have hfeeds : (s.counted c p (countOf cycles)).debounce c p (some .absent) =
      (s.counted c p (countOf cycles)).presenceEvent c p .absent := by
    unfold State.debounce
    simp only [hk]
    have hfeed : ((s.pocket c p).sensing && (s.pocket c p).sensed != .undecided) = true := by simp [hsensing, hdecided]
    exact (if_pos hfeed).trans ((if_neg (Ne.symm hsensed)).trans (if_pos hdebounce))
  rw [← hevent, ← hfeeds]
  unfold State.countPocket
  simp only [hclass, Presence.classified, hf, if_false]
  rfl

/-- The state in which ISC acts on a REMOVED event: the pocket's memory is cleared (R63). -/
def State.forgotten (s : State) (c p count : Nat) : State := (s.withdrawn c p count).clearLatePick (pocketKey c p)

theorem State.forgotten_pocket (s : State) (c p count : Nat) : (s.forgotten c p count).pocket c p = (s.pocket c p).emptied count :=
  s.withdrawn_pocket c p count

theorem State.forgotten_latePicks (s : State) (c p count : Nat) : tget (s.forgotten c p count).isc.latePicks (pocketKey c p) = none :=
  (tget_tdel _ _ _).trans (if_pos rfl)

theorem State.forgotten_sorted {s : State} (h : tableSorted s.psc.pockets = true) (c p count : Nat) :
    tableSorted (s.forgotten c p count).psc.pockets = true := tableSorted_dset _ _ (tableSorted_dset _ _ h)

theorem State.forgotten_runs (s : State) (c p count : Nat) : s.Runs (s.forgotten c p count) :=
  ((((State.Runs.refl s).setPocket c p _).setPocket c p _).report _).clearLatePick _

/-- The step of a REMOVED event, from what follows of it (R37, R38). -/
theorem execPocketCount_removed {s t : State} {c p q cycles : Nat} {rs : List Report} (h : s.completes c p q cycles .absent)
    (ht : (s.quiet.withdrawn c p (countOf cycles)).removed c p = t)
    (hsvp : t.svp = (s.quiet.forgotten c p (countOf cycles)).svp.handed s.now rs) :
    exec (.pocketCount c cycles) s = .next { t.setCab c { s.cab c with pass := some (.auto q) } with
      svp := s.svpReported ((s.pocket c p).removedReport c p :: rs) } := by
  refine execPocketCount_measures h.1 ((State.countPocket_removed (s := s.quiet) h).trans ht) (hsvp.trans ?_)
  rw [show (s.quiet.forgotten c p (countOf cycles)).svp = s.svp.handed s.now [(s.pocket c p).removedReport c p] from rfl,
    ← Svp.handed_append]
  rfl

/-! ### A pocket that has no instance to lose -/

/-- R37, R67: a pocket that a REMOVED event leaves EMPTY is announced where it is free. -/
theorem State.emptyPocket_does {s : State} (hs : tableSorted s.psc.pockets = true) (c p : Nat) (r : Pocket) :
    let t := (s.setPocket c p r).noticeIfFree c p
    r.PassedBy (t.pocket c p) ∧ t.trg = s.trg ∧ t.isc.latePicks = s.isc.latePicks ∧ t.isc.queue = s.isc.queue ∧ t.svp = s.svp := by
  intro t
  have hput := (State.PutsAway.refl (s.setPocket c p r)).noticeIfFree c p
  obtain ⟨hpass, -⟩ := State.noticeIfFree_passes (s := s.setPocket c p r) (tableSorted_dset _ _ hs) c p
  have hpocket := hpass c p
  rw [State.pocket_setPocket_self] at hpocket
  exact ⟨hpocket, hput.trg_eq, hput.latePicks_eq, hput.queue_eq, State.noticeIfFree_svp _ c p⟩

theorem State.removed_unknown {s : State} {c p : Nat} (h : (s.pocket c p).state = .unknown) :
    s.removed c p = ((s.clearLatePick (pocketKey c p)).setPocket c p { s.pocket c p with state := .empty }).noticeIfFree c p := by
  unfold State.removed
  simp only [show (s.clearLatePick (pocketKey c p)).pocket c p = s.pocket c p from rfl, h]

theorem State.removed_departed {s : State} {c p : Nat} (h : (s.pocket c p).state = .occupied) (ht : (s.pocket c p).tool = none) :
    s.removed c p =
      ((s.clearLatePick (pocketKey c p)).setPocket c p { s.pocket c p with mark := none, state := .empty }).noticeIfFree c p := by
  unfold State.removed
  simp only [show (s.clearLatePick (pocketKey c p)).pocket c p = s.pocket c p from rfl, h, ht]

/-! ### An unsanctioned removal -/

/-- The transition of an unsanctioned removal (R38). -/
def lostMove : Move := { cause := .discrepancy, custody := .missing, loc := .nowhere }

theorem InstRec.moved_lost (i : InstRec) : i.moved lostMove = { i with
    custody := .missing, loc := .nowhere, qcause := none, link := none, owed := if i.custody = .issued then false else i.owed } := by
  by_cases hl : i.life = 0 <;> simp [InstRec.moved, lostMove, redirect, hl]

/-- R38: what an unsanctioned removal does. -/
theorem State.unsanctioned_does {s : State} {c p n : Nat} {i : InstRec} (hs : tableSorted s.psc.pockets = true)
    (hn : s.tool n = some i) :
    let t := s.unsanctioned c p n
    Pocket.PassedBy { s.pocket c p with tool := none, state := .empty } (t.pocket c p) ∧ t.isc.latePicks = s.isc.latePicks ∧
      (∀ m, t.tool m = if m = n then some (i.moved lostMove) else s.tool m) ∧
      t.svp = s.svp.handed s.now
        [.discrepancy .unsanctionedRemoval c p (some n) (some i.custody),
         .custodyChange n i.type (some i.custody) i.loc (some .missing) .nowhere .discrepancy none] := by
  intro t
  let u := (s.report (.discrepancy .unsanctionedRemoval c p (some n) (some i.custody))).move n i lostMove
  have ht : t = (u.setPocket c p { s.pocket c p with tool := none, state := .empty }).noticeIfFree c p := by
    change s.unsanctioned c p n = _
    unfold State.unsanctioned
    simp only [hn]
    rfl
  obtain ⟨hpocket, htrg, hmemory, -, hsvp⟩ :=
    State.emptyPocket_does (s := u) hs c p { s.pocket c p with tool := none, state := .empty }
  rw [← ht] at hpocket htrg hmemory hsvp
  refine ⟨hpocket, hmemory, fun m => (State.tool_of_trg htrg m).trans (State.tool_move _ _ _ _ _), hsvp.trans ?_⟩
  rw [show u.svp = _ from State.move_svp _ n i lostMove, InstRec.moved_lost]
  rfl

theorem State.removed_lost {s : State} {c p n : Nat} (h : (s.pocket c p).state = .occupied) (ht : (s.pocket c p).tool = some n)
    (hlate : s.latePickRequest (tget s.isc.latePicks (pocketKey c p)) n = none) :
    s.removed c p = (s.clearLatePick (pocketKey c p)).unsanctioned c p n := by
  have hlate' : (s.clearLatePick (pocketKey c p)).latePickRequest (tget s.isc.latePicks (pocketKey c p)) n = none := hlate
  unfold State.removed
  simp only [show (s.clearLatePick (pocketKey c p)).pocket c p = s.pocket c p from rfl, h, ht, hlate']

/-! ### A pick -/

theorem redirect_issued (life : Nat) : redirect .issued life = .issued := by
  unfold redirect
  split <;> rfl

/-- R59: what follows a pick leaves the pockets, and of the instances it touches the one picked, at its handoff owed. -/
theorem State.afterPick_does (s : State) (r : Request) (n : Nat) :
    (s.afterPick r n).psc = s.psc ∧ (s.afterPick r n).isc.latePicks = s.isc.latePicks ∧ s.TouchesOnly (s.afterPick r n) n ∧
      (∀ i, s.tool n = some i → ∃ o, (s.afterPick r n).tool n = some { i with owed := o }) ∧
      (r.dest = .bench → (s.afterPick r n).request r.number = none) ∧
      (∀ st place, r.dest = .station st place → (s.afterPick r n).isc = s.isc) := by
  unfold State.afterPick
  cases r.dest with
  | station st place =>
    have hoff := (State.HandsOff.refl s).supplyData st place n
    refine ⟨hoff.psc_eq, congrArg Isc.latePicks hoff.isc_eq,
      (State.TouchesOnly.askToolData s st place n).trans (.of_trg (State.startTxn_trg _ _) n), fun i hi => ?_,
      fun h => (nomatch h), fun _ _ _ => hoff.isc_eq⟩
    rcases hoff.2.1 n with hm | ⟨j, o, hj, hm⟩
    · exact ⟨i.owed, hm.trans hi⟩
    · obtain rfl : i = j := Option.some.inj (hi.symm.trans hj)
      exact ⟨o, hm⟩
  | bench => exact ⟨rfl, rfl, .of_trg rfl n, fun i hi => ⟨i.owed, hi⟩, fun _ => State.request_endRequest, fun _ _ h => nomatch h⟩

/-- An instance is taken out of its pocket for a request (R59, R63). -/
def State.takenOut (s : State) (c p n : Nat) (i : InstRec) (m : Move) (r : Request) (cause : ReqCause) : State :=
  ((((s.move n i m).setPocket c p { s.pocket c p with tool := none, state := .empty }).changeRequest r cause).afterPick r n).noticeIfFree
    c p

/-- R59, R63: what taking an instance out of its pocket does. -/
theorem State.takenOut_does {s : State} (hs : tableSorted s.psc.pockets = true) (c p n : Nat) (i : InstRec) (m : Move) (r : Request)
    (cause : ReqCause) :
    let t := s.takenOut c p n i m r cause
    Pocket.PassedBy { s.pocket c p with tool := none, state := .empty } (t.pocket c p) ∧ t.isc.latePicks = s.isc.latePicks ∧
      s.OthersStand t n ∧ (∃ o, t.tool n = some { i.moved m with owed := o }) ∧ (r.dest = .bench → t.request r.number = none) ∧
      (∀ st place q, r.dest = .station st place → s.request r.number = some q → t.request r.number = some r) ∧
      ∃ rs, t.svp = s.svp.handed s.now (changeReport n i (i.moved m) m.cause :: .requestState r cause :: rs) := by
  intro t
  let u := ((s.move n i m).setPocket c p { s.pocket c p with tool := none, state := .empty }).changeRequest r cause
  have hutool (k : Nat) : u.tool k = if k = n then some (i.moved m) else s.tool k := State.tool_move s n k i m
  have hupocket : u.pocket c p = { s.pocket c p with tool := none, state := .empty } := State.pocket_setPocket_self (s.move n i m) c p _
  obtain ⟨hpsc, hmemory, htouches, htool, hbench, hstation⟩ := u.afterPick_does r n
  obtain ⟨⟨rs, hrs⟩, -⟩ := (State.Runs.refl u).afterPick r n
  have hsorted : tableSorted (u.afterPick r n).psc.pockets = true := by
    rw [hpsc]
    exact tableSorted_dset _ _ hs
  have hput := (State.PutsAway.refl (u.afterPick r n)).noticeIfFree c p
  obtain ⟨hpass, -⟩ := State.noticeIfFree_passes hsorted c p
  have hpocket := hpass c p
  rw [show (u.afterPick r n).pocket c p = u.pocket c p by rw [State.pocket, State.pocket, hpsc], hupocket] at hpocket
  refine ⟨hpocket, hput.latePicks_eq.trans hmemory, fun k hk => ?_, ?_, fun hd => ?_, fun st place q hd hq => ?_, rs, ?_⟩
  · exact (State.tool_of_trg hput.trg_eq k).trans ((htouches.2 k hk).trans ((hutool k).trans (if_neg hk)))
  · obtain ⟨o, ho⟩ := htool _ ((hutool n).trans (if_pos rfl))
    exact ⟨o, (State.tool_of_trg hput.trg_eq n).trans ho⟩
  · exact (State.request_of_queue hput.queue_eq _).trans (hbench hd)
  · refine (State.request_of_queue (hput.queue_eq.trans (congrArg Isc.queue (hstation st place hd))) _).trans ?_
    exact State.request_changeRequest (s := (s.move n i m).setPocket c p _) hq (State.request_number hq).symm
  · refine (State.noticeIfFree_svp _ c p).trans (hrs.trans ?_)
    rw [show u.svp = s.svp.handed s.now [changeReport n i (i.moved m) m.cause, .requestState r cause] from rfl,
      show u.now = s.now from rfl, ← Svp.handed_append]
    rfl

/-- The transition of a pick (R59). -/
def pickMove (d : Dest) : Move := { cause := .pick, custody := .issued, loc := d.transit }

/-- The transition of a late pick (R63). -/
def latePickMove (r : Request) : Move := { cause := .latePick, custody := .issued, loc := r.dest.transit, link := some r.number }

theorem InstRec.moved_pick {i : InstRec} (h : i.custody = .reserved) (d : Dest) :
    i.moved (pickMove d) = { i with custody := .issued, qcause := none, loc := d.transit } := by
  simp [InstRec.moved, pickMove, redirect_issued, h]

theorem InstRec.moved_latePick {i : InstRec} (h : i.custody = .ready) (r : Request) :
    i.moved (latePickMove r) = { i with custody := .issued, qcause := none, loc := r.dest.transit, link := some r.number } := by
  simp [InstRec.moved, latePickMove, redirect_issued, h]

theorem State.pick_takenOut {s : State} {c p n : Nat} {i : InstRec} {r : Request} (hn : s.tool n = some i)
    (hr : i.link.bind s.request = some r) :
    s.pick c p n = s.takenOut c p n i (pickMove r.dest) { r with state := .issued, reserveTick := none } .pick := by
  unfold State.pick
  simp only [hn, hr]
  rfl

theorem State.latePick_takenOut {s : State} {c p n : Nat} {i : InstRec} (hn : s.tool n = some i) (r : Request) :
    s.latePick c p n r =
      s.takenOut c p n i (latePickMove r) { r with state := .issued, tool := some n, reserveTick := none } .latePick := by
  unfold State.latePick
  simp only [hn]
  rfl

theorem State.removed_pick {s : State} {c p n : Nat} (h : (s.pocket c p).state = .expectTake) (ht : (s.pocket c p).tool = some n) :
    s.removed c p = (s.clearLatePick (pocketKey c p)).pick c p n := by
  unfold State.removed
  simp only [show (s.clearLatePick (pocketKey c p)).pocket c p = s.pocket c p from rfl, h, ht]

theorem State.removed_latePick {s : State} {c p n : Nat} {r : Request} (h : (s.pocket c p).state = .occupied)
    (ht : (s.pocket c p).tool = some n)
    (hlate : s.latePickRequest (tget s.isc.latePicks (pocketKey c p)) n = some r) :
    s.removed c p = (s.clearLatePick (pocketKey c p)).latePick c p n r := by
  have hlate' : (s.clearLatePick (pocketKey c p)).latePickRequest (tget s.isc.latePicks (pocketKey c p)) n = some r := hlate
  unfold State.removed
  simp only [show (s.clearLatePick (pocketKey c p)).pocket c p = s.pocket c p from rfl, h, ht, hlate']

theorem Request.open_iff {r : Request} : r.open = true ↔ r.state = .queued ∨ r.state = .waitingStock := by
  unfold Request.open
  cases r.state <;> simp

/-- R63: the request that a late pick serves. -/
theorem State.latePickRequest_iff {s : State} {memory : Option LatePick} {n : Nat} {i : InstRec} {r : Request}
    (hn : s.tool n = some i) :
    s.latePickRequest memory n = some r ↔
      ∃ m, memory = some m ∧ m.tool = n ∧ i.custody = .ready ∧ s.request m.request = some r ∧
        (r.state = .queued ∨ r.state = .waitingStock) := by
  unfold State.latePickRequest
  rw [hn]
  cases memory with
  | none => simp
  | some m =>
    by_cases hm : m.tool = n ∧ i.custody = .ready
    · cases hr : s.request m.request with
      | none => simp [hr]
      | some x =>
        by_cases hx : x.open = true
        · simp only [hm, hr, hx, and_self, if_true, Option.some.injEq, exists_eq_left', true_and]
          exact ⟨fun h => ⟨h, h ▸ Request.open_iff.1 hx⟩, fun h => h.1⟩
        · simp only [hm, hr, hx, and_self, if_true, Option.some.injEq, exists_eq_left', true_and]
          exact ⟨fun h => (nomatch h), fun ⟨h, ho⟩ => absurd (Request.open_iff.2 (h ▸ ho)) hx⟩
    · dsimp only
      rw [if_neg hm]
      refine ⟨fun h => (nomatch h), ?_⟩
      rintro ⟨m', hmm, hn', hc, -⟩
      cases hmm
      exact absurd ⟨hn', hc⟩ hm

/-- Settles O14, by the state of the pocket, its instance and its memory. -/
theorem removedEventByPocketState : Obligations.RemovedEventByPocketState := by
  intro s c p q cycles h hpockets k gone told
  let v := s.quiet.withdrawn c p (countOf cycles)
  let w := s.quiet.forgotten c p (countOf cycles)
  have hvpocket : v.pocket c p = k.emptied (countOf cycles) := State.withdrawn_pocket s.quiet c p _
  have hwpocket : w.pocket c p = k.emptied (countOf cycles) := hvpocket
  have hwsorted : tableSorted w.psc.pockets = true := State.forgotten_sorted (s := s.quiet) hpockets c p _
  have hmemory : tget w.isc.latePicks (pocketKey c p) = none := State.forgotten_latePicks s.quiet c p _
  have hruns := (State.Runs.refl s.quiet).countPocket c p (countOf cycles)
  rw [State.countPocket_removed (s := s.quiet) h] at hruns
  have honly (x : Svp) : s.ToolsOnly { (v.removed c p).setCab c { s.cab c with pass := some (.auto q) } with svp := x } :=
    (hruns.setCab c _).toolsOnly_of_quiet x
  refine ⟨fun hk ht => ?_, fun hk ht => ?_, fun n i hk ht hn hno => ?_, fun n i m r hk ht hn hm hmn hc hr hopen => ?_,
    fun n i r hk ht hn hc hr => ?_⟩
  · have hremoved : v.removed c p = (w.setPocket c p { v.pocket c p with state := .empty }).noticeIfFree c p :=
      State.removed_unknown (by rw [hvpocket]; exact hk)
    obtain ⟨hpocket, htrg, hlate, -, hsvp⟩ := State.emptyPocket_does hwsorted c p { v.pocket c p with state := .empty }
    rw [← hremoved] at hpocket htrg hlate hsvp
    refine ⟨_, execPocketCount_removed (rs := []) h rfl hsvp, ?_, htrg, honly _, (congrArg (tget · _) hlate).trans hmemory, rfl⟩
    have hgone : ({ v.pocket c p with state := .empty } : Pocket) = gone := by
      rw [hvpocket]
      simp only [gone, Pocket.emptied, ← ht]
    exact hgone ▸ hpocket
  · have hremoved : v.removed c p = (w.setPocket c p { v.pocket c p with mark := none, state := .empty }).noticeIfFree c p :=
      State.removed_departed (by rw [hvpocket]; exact hk) (by rw [hvpocket]; exact ht)
    obtain ⟨hpocket, htrg, hlate, -, hsvp⟩ := State.emptyPocket_does hwsorted c p { v.pocket c p with mark := none, state := .empty }
    rw [← hremoved] at hpocket htrg hlate hsvp
    refine ⟨_, execPocketCount_removed (rs := []) h rfl hsvp, ?_, htrg, honly _, (congrArg (tget · _) hlate).trans hmemory, rfl⟩
    have hgone : ({ v.pocket c p with mark := none, state := .empty } : Pocket) = { gone with mark := none } := by
      rw [hvpocket]
      simp only [gone, Pocket.emptied, ← ht]
    exact hgone ▸ hpocket
  · have hremoved : v.removed c p = w.unsanctioned c p n := by
      refine State.removed_lost (by rw [hvpocket]; exact hk) (by rw [hvpocket]; exact ht) (Option.eq_none_iff_forall_ne_some.2 ?_)
      intro r hr
      obtain ⟨m, hm, hmn, hc, hreq, hopen⟩ := (State.latePickRequest_iff (s := v) hn).1 hr
      exact hno ⟨m, r, hm, hmn, hc, hreq, hopen⟩
    obtain ⟨hpocket, hlate, htool, hsvp⟩ := State.unsanctioned_does (s := w) (c := c) (p := p) hwsorted hn
    rw [← hremoved] at hpocket hlate htool hsvp
    rw [hwpocket] at hpocket
    refine ⟨_, execPocketCount_removed h rfl hsvp, hpocket, honly _, fun m hm => (htool m).trans (if_neg hm), ?_,
      (congrArg (tget · _) hlate).trans hmemory, rfl⟩
    exact (htool n).trans ((if_pos rfl).trans (congrArg some i.moved_lost))
  · have hremoved : v.removed c p = w.latePick c p n r := by
      refine State.removed_latePick (by rw [hvpocket]; exact hk) (by rw [hvpocket]; exact ht) ?_
      exact (State.latePickRequest_iff (s := v) hn).2 ⟨m, hm, hmn, hc, hr, hopen⟩
    rw [State.latePick_takenOut (s := w) hn] at hremoved
    obtain ⟨hpocket, hlate, hothers, ⟨o, ho⟩, hbench, hstation, rs, hsvp⟩ :=
      State.takenOut_does (s := w) hwsorted c p n i (latePickMove r) { r with state := .issued, tool := some n, reserveTick := none }
        .latePick
    rw [← hremoved] at hpocket hlate hothers ho hbench hstation hsvp
    rw [hwpocket] at hpocket
    rw [InstRec.moved_latePick hc] at ho hsvp
    have hnumber : w.request r.number = some r := by
      rw [State.request_number hr]
      exact hr
    rw [changeReport, hc] at hsvp
    exact ⟨_, rs, _, execPocketCount_removed h rfl hsvp, hpocket, honly _, hothers, ho, rfl, hbench,
      fun st place hd => hstation st place r hd hnumber, (congrArg (tget · _) hlate).trans hmemory, rfl⟩
  · have hremoved : v.removed c p = w.pick c p n :=
      State.removed_pick (by rw [hvpocket]; exact hk) (by rw [hvpocket]; exact ht)
    rw [State.pick_takenOut (s := w) hn hr] at hremoved
    obtain ⟨hpocket, hlate, hothers, ⟨o, ho⟩, -, -, rs, hsvp⟩ :=
      State.takenOut_does (s := w) hwsorted c p n i (pickMove r.dest) { r with state := .issued, reserveTick := none } .pick
    rw [← hremoved] at hpocket hlate hothers ho hsvp
    rw [hwpocket] at hpocket
    rw [InstRec.moved_pick hc] at ho hsvp
    rw [changeReport, hc] at hsvp
    exact ⟨_, rs, _, execPocketCount_removed h rfl hsvp, hpocket, honly _, hothers, ho, rfl,
      (congrArg (tget · _) hlate).trans hmemory, rfl⟩

end Sys2Proof.Machine

/-! O8: SET_CABINET. -/

namespace Sys2Proof.Machine

open State

/-! ### The channel of a cabinet -/

/-- An operation of the channels: nothing changes but the cabinets' records. -/
def State.ChangesCabs (s t : State) : Prop := t = { s with psc := { s.psc with cabinets := t.psc.cabinets } }

theorem State.ChangesCabs.refl (s : State) : s.ChangesCabs s := rfl

theorem State.ChangesCabs.setCab {s t : State} (h : s.ChangesCabs t) (c : Nat) (k : Cabinet) : s.ChangesCabs (t.setCab c k) := by
  unfold State.ChangesCabs at *
  rw [h]
  rfl

theorem State.ChangesCabs.pocket {s t : State} (h : s.ChangesCabs t) (c p : Nat) : t.pocket c p = s.pocket c p := by
  rw [h]
  rfl

theorem State.ChangesCabs.nextEnabled {s t : State} (h : s.ChangesCabs t) (c above : Nat) : t.nextEnabled c above = s.nextEnabled c above := by
  rw [h]
  rfl

theorem State.startAuto_changes (s : State) (c : Nat) : s.ChangesCabs (s.startAuto c) := by
  unfold State.startAuto
  split
  · exact (State.ChangesCabs.refl s).setCab c _
  · exact .refl s

/-- R34: an automatic pass starts on an idle channel, at the lowest enabled pocket. -/
theorem State.startAuto_cab (s : State) (c d : Nat) :
    (s.startAuto c).cab d =
      if d = c then { s.cab c with pass := (s.cab c).pass.or ((s.nextEnabled c 0).map .auto) } else s.cab d := by
  unfold State.startAuto
  cases hp : (s.cab c).pass with
  | none =>
    cases hn : s.nextEnabled c 0 with
    | none =>
      dsimp only
      split
      next hd =>
        rw [hd]
        exact congrArg (fun x => ({ s.cab c with pass := x } : Cabinet)) hp
      next => rfl
    | some p => exact State.cab_setCab s c d _
  | some x =>
    dsimp only
    split
    next hd =>
      rw [hd]
      exact congrArg (fun x => ({ s.cab c with pass := x } : Cabinet)) hp
    next => rfl

theorem State.restartBoundary_changes (s : State) (c : Nat) : s.ChangesCabs (s.restartBoundary c) := by
  have h := State.startAuto_changes (s.setCab c { s.cab c with boundary := some (s.tick + (s.cab c).settings.interval) }) c
  unfold State.restartBoundary
  unfold State.ChangesCabs at *
  rw [h]
  rfl

/-- R34: boundaries that start afresh count their moment as one. -/
theorem State.restartBoundary_cab (s : State) (c d : Nat) :
    (s.restartBoundary c).cab d =
      if d = c then { s.cab c with
        boundary := some (s.tick + (s.cab c).settings.interval), pass := (s.cab c).pass.or ((s.nextEnabled c 0).map .auto) }
      else s.cab d := by
  have hcab := State.cab_setCab s c
  unfold State.restartBoundary
  rw [State.startAuto_cab, hcab, hcab, if_pos rfl]
  split
  · rfl
  · rfl

/-! ### Settings that take effect -/

/-- Settings have taken effect on a cabinet and on its pockets, and nothing else has changed (R30, R34). -/
structure State.Settles (s t : State) (c : Nat) (new : CabSettings) : Prop where
  cab : ∀ d, t.cab d = if d = c then { s.cab c with
    settings := new, pendingSettings := none, boundary := if s.autoRuns new then (s.cab c).boundary else none } else s.cab d
  pocket : ∀ d p, 1 ≤ p → p ≤ 64 →
    t.pocket d p = if d = c then (s.pocket d p).resettled (s.cab c).settings new else s.pocket d p
  only : t = { s with psc := t.psc }

theorem State.takeSettings_settles (s : State) (c : Nat) (new : CabSettings) : s.Settles (s.takeSettings c new).1 c new := by
  unfold State.takeSettings
  dsimp only
  have hread {d q : Nat} (h1 : 1 ≤ q) (h2 : q ≤ 64) := State.foldl_setPocket_pocket
    (fun r => r.resettled (s.cab c).settings new) c (fun p hp => mem_allPockets.1 hp) allPockets_nodup s (d := d) h1 h2
  have honly := State.foldl_setPocket_only (fun r => r.resettled (s.cab c).settings new) c allPockets s
  generalize allPockets.foldl (fun s' p => s'.setPocket c p ((s'.pocket c p).resettled (s.cab c).settings new)) s = u at *
  have hcab (d : Nat) : u.cab d = s.cab d := by
    rw [honly]
    rfl
  have hruns : u.autoRuns new = s.autoRuns new := by
    rw [honly]
    rfl
  refine ⟨fun d => ?_, fun d p h1 h2 => ?_, ?_⟩
  · rw [State.cab_setCab, hcab, hcab, hruns]
  · refine (hread h1 h2).trans (if_congr ?_ rfl rfl)
    exact ⟨fun h => h.1, fun h => ⟨h, mem_allPockets.2 ⟨h1, h2⟩⟩⟩
  · rw [honly]
    rfl

/-- R30: a pocket under changed settings keeps all but its baseline and its bounds. -/
theorem Pocket.resettled_eq (r : Pocket) (old new : CabSettings) :
    r.resettled old new = { r with
      baseline := if old.window = new.window then r.baseline
        else r.baseline.map (fun b => max 1 (min 16383 (b * new.window / old.window)))
      presentBound := (if old.window = new.window then r.baseline
        else r.baseline.map (fun b => max 1 (min 16383 (b * new.window / old.window)))).map (fun b => b * (1000 - new.presentDev) / 1000)
      absentBound := (if old.window = new.window then r.baseline
        else r.baseline.map (fun b => max 1 (min 16383 (b * new.window / old.window)))).map
          (fun b => b * (1000 - new.absentDev) / 1000) } := rfl

/-- Automatic passes run under these settings (R34). -/
def State.AutoRuns (s : State) (x : CabSettings) : Prop := s.svp.mode = .running ∧ x.enabled = true ∧ x.mode = .auto

theorem State.autoRuns_iff {s : State} {x : CabSettings} : s.autoRuns x = true ↔ s.AutoRuns x := by
  unfold State.autoRuns State.AutoRuns State.running
  simp [and_assoc]

/-- R34: settings under which automatic passes begin to run, or run at another interval, restart the boundaries. -/
theorem State.takeSettings_restarts {s : State} {c : Nat} {new : CabSettings} :
    (s.takeSettings c new).2 = true ↔
      s.AutoRuns new ∧ (¬ s.AutoRuns (s.cab c).settings ∨ (s.cab c).settings.interval ≠ new.interval) := by
  unfold State.takeSettings
  dsimp only
  have honly := State.foldl_setPocket_only (fun r => r.resettled (s.cab c).settings new) c allPockets s
  generalize allPockets.foldl (fun s' p => s'.setPocket c p ((s'.pocket c p).resettled (s.cab c).settings new)) s = u at *
  have hruns (x : CabSettings) : u.autoRuns x = s.autoRuns x := by
    rw [honly]
    rfl
  simp only [hruns, Bool.and_eq_true, Bool.or_eq_true, Bool.not_eq_true', bne_iff_ne, State.autoRuns_iff]
  refine and_congr_right fun hnew => ?_
  rw [← Bool.not_eq_true, State.autoRuns_iff]
  constructor
  · rintro ((h | h) | h)
    · exact .inl h
    · exact .inr h
    · exact .inl fun hold => h (hold.2.2.trans hnew.2.2.symm)
  · rintro (h | h)
    · exact .inl (.inl h)
    · exact .inl (.inr h)

/-! ### The command -/

/-- R30: the fields of SET_CABINET, where they lie in range. -/
theorem cabinetFields_eq (b : List Byte) :
    cabinetFields b =
      if (1 ≤ fieldAt b 0 1 ∧ fieldAt b 0 1 ≤ 12) ∧ (64 ≤ fieldAt b 1 2 ∧ fieldAt b 1 2 ≤ 4096) ∧
        (1 ≤ fieldAt b 3 2 ∧ fieldAt b 3 2 ≤ 900) ∧ (1 ≤ fieldAt b 5 2 ∧ fieldAt b 5 2 ≤ 900) ∧
        fieldAt b 5 2 < fieldAt b 3 2 ∧
        (fieldAt b 7 2 = 50 ∨ fieldAt b 7 2 = 100 ∨ fieldAt b 7 2 = 200 ∨ fieldAt b 7 2 = 400) ∧
        (1 ≤ fieldAt b 9 1 ∧ fieldAt b 9 1 ≤ 8) ∧ fieldAt b 10 1 ≤ 1 ∧ fieldAt b 11 1 ≤ 1 then
        some { window := fieldAt b 1 2, presentDev := fieldAt b 3 2, absentDev := fieldAt b 5 2, interval := fieldAt b 7 2
               debounce := fieldAt b 9 1, mode := if fieldAt b 10 1 = 0 then .auto else .single
               enabled := decide (fieldAt b 11 1 = 1) }
      else none := by
  unfold cabinetFields
  dsimp only
  refine if_congr ?_ rfl rfl
  simp only [Bool.and_eq_true, decide_eq_true_eq, within_iff, cabinetNo_iff, List.contains_iff_mem, List.mem_cons, List.not_mem_nil,
    or_false]
  constructor
  · rintro ⟨⟨⟨⟨⟨⟨⟨⟨hcabinet, hwindow⟩, hpresent⟩, habsent⟩, hless⟩, hinterval⟩, hdebounce⟩, hmode⟩, henabled⟩
    exact ⟨hcabinet, hwindow, hpresent, habsent, hless, hinterval, hdebounce, hmode.2, henabled.2⟩
  · rintro ⟨hcabinet, hwindow, hpresent, habsent, hless, hinterval, hdebounce, hmode, henabled⟩
    exact ⟨⟨⟨⟨⟨⟨⟨⟨hcabinet, hwindow⟩, hpresent⟩, habsent⟩, hless⟩, hinterval⟩, hdebounce⟩, Nat.zero_le _, hmode⟩,
      Nat.zero_le _, henabled⟩

/-- R30, R34: what accepted settings do on an idle channel. -/
theorem State.setCabinet_idle {s : State} {c : Nat} (new : CabSettings) (hp : (s.cab c).pass = none) :
    let t := s.setCabinet c new
    let restart := s.AutoRuns new ∧ (¬ s.AutoRuns (s.cab c).settings ∨ (s.cab c).settings.interval ≠ new.interval)
    (restart → t.cab c = { s.cab c with
      settings := new, pendingSettings := none, boundary := some (s.tick + new.interval), pass := (s.nextEnabled c 0).map .auto }) ∧
    (¬ restart → t.cab c = { s.cab c with
      settings := new, pendingSettings := none, boundary := if s.autoRuns new then (s.cab c).boundary else none }) ∧
    (∀ d, d ≠ c → t.cab d = s.cab d) ∧
    (∀ d p, 1 ≤ p → p ≤ 64 → t.pocket d p = if d = c then (s.pocket d p).resettled (s.cab c).settings new else s.pocket d p) ∧
    t = { s with psc := t.psc } := by
  intro t restart
  obtain ⟨hcab, hpocket, honly⟩ := s.takeSettings_settles c new
  have ht : t = if (s.takeSettings c new).2 then (s.takeSettings c new).1.restartBoundary c else (s.takeSettings c new).1 := by
    change s.setCabinet c new = _
    unfold State.setCabinet
    rw [hp]
  have hnext : (s.takeSettings c new).1.nextEnabled c 0 = s.nextEnabled c 0 := by
    unfold State.nextEnabled
    refine List.find?_congr fun p hm => ?_
    obtain ⟨h1, h2⟩ := mem_allPockets.1 hm
    rw [hpocket c p h1 h2, if_pos rfl]
    rfl
  have htick : (s.takeSettings c new).1.tick = s.tick := by
    unfold State.tick
    rw [honly]
  by_cases hr : restart
  · rw [if_pos (State.takeSettings_restarts.2 hr)] at ht
    have hchanges := State.restartBoundary_changes (s.takeSettings c new).1 c
    rw [← ht] at hchanges
    refine ⟨fun _ => ?_, fun hn => absurd hr hn, fun d hd => ?_, fun d p h1 h2 => ?_, ?_⟩
    · rw [ht, State.restartBoundary_cab, if_pos rfl, hcab, if_pos rfl, hnext, htick]
      simp only [hp, Option.none_or]
    · rw [ht, State.restartBoundary_cab, if_neg hd, hcab, if_neg hd]
    · rw [hchanges.pocket, hpocket d p h1 h2]
    · rw [hchanges, honly]
  · rw [if_neg (mt State.takeSettings_restarts.1 hr)] at ht
    rw [ht]
    exact ⟨fun h => absurd h hr, fun _ => (hcab c).trans (if_pos rfl), fun d hd => (hcab d).trans (if_neg hd), hpocket, honly⟩

theorem State.ChangesCabs.psc_only {s t u : State} (h : t = { s with psc := t.psc }) (k : t.ChangesCabs u) : u = { s with psc := u.psc } := by
  unfold State.ChangesCabs at k
  rw [k, h]

/-- A command that changes PSC alone is answered. -/
theorem State.answered_psc {s u : State} {kind tag : Byte} {body : List Byte} (h : u = { s.taken kind tag body with psc := u.psc })
    (x : Svp) : ({ u with svp := x } : State) = { s with psc := u.psc, svp := x, lines := Lines.quiet } := by
  rw [h]
  rfl

theorem execSetCabinet_sets {s : State} {tag : Byte} {body : List Byte} {new : CabSettings} (h : s.takesNow 0x10 tag body = true)
    (hf : cabinetFields body = some new)
    (honly : (s.taken 0x10 tag body).setCabinet (fieldAt body 0 1) new = { s.taken 0x10 tag body with
      psc := ((s.taken 0x10 tag body).setCabinet (fieldAt body 0 1) new).psc }) :
    exec (.setCabinet tag body) s = .next { s with
      psc := ((s.taken 0x10 tag body).setCabinet (fieldAt body 0 1) new).psc
      svp := s.svpAnswered 0x10 tag body [] (.plain .ok), lines := Lines.quiet } := by
  change execSetCabinet tag body s = _
  unfold execSetCabinet
  rw [← State.answered_psc honly]
  refine hostCommand_runs (rs := []) h ?_ (by rw [honly]; rfl)
  rw [hf]

/-- Settles O8, by the state of the channel and by the restart of the boundaries. -/
theorem setCabinetTakesEffectWhenIdle : Obligations.SetCabinetTakesEffectWhenIdle := by
  intro s tag body h c k inRange new runs restart
  have hfields : cabinetFields body = if inRange then some new else none := cabinetFields_eq body
  have hmode : (s.taken 0x10 tag body).svp.mode = s.svp.mode := s.bringIn_mode _
  have hruns (x : CabSettings) : (s.taken 0x10 tag body).AutoRuns x ↔ runs x := by
    unfold State.AutoRuns
    rw [hmode]
  refine ⟨fun hr => ?_, fun x hr hp => ?_, fun hr hp => ?_⟩
  · change execSetCabinet tag body s = _
    unfold execSetCabinet
    refine hostCommand_answers h ?_
    rw [hfields, if_neg hr]
  · rw [if_pos hr] at hfields
    have hset : (s.taken 0x10 tag body).setCabinet c new =
        (s.taken 0x10 tag body).setCab c { k with pendingSettings := some new } := by
      unfold State.setCabinet
      rw [show ((s.taken 0x10 tag body).cab c).pass = some x from hp]
      rfl
    have hcab (d : Nat) := State.cab_setCab (s.taken 0x10 tag body) c d { k with pendingSettings := some new }
    refine ⟨_, execSetCabinet_sets h hfields (by rw [hset]; rfl), ?_, fun d hd => ?_, ?_, rfl⟩
    · change ((s.taken 0x10 tag body).setCabinet c new).cab c = _
      rw [hset]
      exact (hcab c).trans (if_pos rfl)
    · change ((s.taken 0x10 tag body).setCabinet c new).cab d = _
      rw [hset]
      exact (hcab d).trans (if_neg hd)
    · change ((s.taken 0x10 tag body).setCabinet c new).psc.pockets = _
      rw [hset]
      rfl
  · rw [if_pos hr] at hfields
    obtain ⟨hon, hoff, hcabs, hpockets, honly⟩ := State.setCabinet_idle (s := s.taken 0x10 tag body) (c := c) new hp
    let u := (s.taken 0x10 tag body).setCabinet c new
    have hrestart : restart ↔ (s.taken 0x10 tag body).AutoRuns new ∧
        (¬ (s.taken 0x10 tag body).AutoRuns k.settings ∨ k.settings.interval ≠ new.interval) := by
      rw [hruns, hruns]
    have hset : u.cab c = { k with
        settings := new, pendingSettings := none, pass := (u.cab c).pass, boundary := (u.cab c).boundary } := by
      by_cases hre : restart
      · rw [hon (hrestart.1 hre)]
        rfl
      · rw [hoff (mt hrestart.2 hre)]
        rfl
    refine ⟨_, execSetCabinet_sets h hfields honly, hset, fun hre => ⟨?_, fun f h1 h64 hf hgap => ?_, fun hnone => ?_⟩,
      fun hre => ⟨?_, fun hn => ?_, fun hn => ?_⟩, fun d hd => hcabs d hd, fun d p h1 h2 hd => (hpockets d p h1 h2).trans (if_neg hd),
      fun p h1 h2 => (hpockets c p h1 h2).trans (if_pos rfl), rfl⟩
    · exact congrArg Cabinet.boundary (hon (hrestart.1 hre))
    · refine (congrArg Cabinet.pass (hon (hrestart.1 hre))).trans ?_
      rw [State.nextEnabled_eq_some (s := s.taken 0x10 tag body) h1 h64 hf fun p hp => hgap p hp]
      rfl
    · refine (congrArg Cabinet.pass (hon (hrestart.1 hre))).trans ?_
      rw [State.nextEnabled_eq_none (s := s.taken 0x10 tag body) fun p hp => hnone p hp]
      rfl
    · exact (congrArg Cabinet.pass (hoff (mt hrestart.2 hre))).trans hp
    · exact (congrArg Cabinet.boundary (hoff (mt hrestart.2 hre))).trans (if_pos (State.autoRuns_iff.2 ((hruns new).2 hn)))
    · refine (congrArg Cabinet.boundary (hoff (mt hrestart.2 hre))).trans (if_neg ?_)
      rw [State.autoRuns_iff, hruns]
      exact hn

end Sys2Proof.Machine

/-! O9: SET_POCKETS. -/

namespace Sys2Proof.Machine

open State

/-! ### The pocket that SET_POCKETS names -/

/-- A pocket as SET_POCKETS leaves it, before ISC may assign it (R31). -/
def Pocket.configured (r : Pocket) (enabled : Option Bool) (zone : Option Zone) : Pocket :=
  let r := match enabled with
    | some on => r.enable on
    | none => r
  match zone with
  | some z => { r with zone := z }
  | none => r

/-- The zone that SET_POCKETS gives (R31). -/
def Pocket.zoned (r : Pocket) (zone : Option Zone) : Pocket := { r with zone := zone.getD r.zone }

theorem Pocket.configured_none (r : Pocket) (zone : Option Zone) : r.configured none zone = r.zoned zone := by
  cases zone <;> rfl

/-- R31: a flag that stands already. -/
theorem Pocket.configured_same {r : Pocket} {on : Bool} (h : on = r.enabled) (zone : Option Zone) :
    r.configured (some on) zone = r.zoned zone := by
  have henable : r.enable on = r := if_pos h
  unfold Pocket.configured
  dsimp only
  rw [henable]
  cases zone <;> rfl

/-- R31: a pocket is enabled. -/
theorem Pocket.configured_on {r : Pocket} (h : r.enabled = false) (zone : Option Zone) :
    r.configured (some true) zone = { r.zoned zone with
      enabled := true, state := if r.tool = none then .empty else .occupied
      sensed := if r.baseline = none then .undecided else if r.tool = none then .absent else .present } := by
  have henable : r.enable true = { r with
      enabled := true, state := if r.tool = none then .empty else .occupied
      sensed := if r.baseline = none then .undecided else if r.tool = none then .absent else .present } := by
    unfold Pocket.enable
    rw [if_neg (by simp [h]), if_pos rfl]
    cases r.tool <;> cases r.baseline <;> rfl
  unfold Pocket.configured
  dsimp only
  rw [henable]
  cases zone <;> rfl

/-- R31: a pocket is disabled. -/
theorem Pocket.configured_off {r : Pocket} (h : r.enabled = true) (zone : Option Zone) :
    r.configured (some false) zone = { r.zoned zone with enabled := false, state := .disabled, sensed := .undecided, run := 0 } := by
  have henable : r.enable false = { r with enabled := false, state := .disabled, sensed := .undecided, run := 0 } := by
    unfold Pocket.enable
    rw [if_neg (by simp [h]), if_neg Bool.false_ne_true]
  unfold Pocket.configured
  dsimp only
  rw [henable]
  cases zone <;> rfl

theorem Pocket.zoned_zoned (r : Pocket) (zone : Option Zone) : (r.zoned zone).zoned zone = r.zoned zone := by
  cases zone <;> rfl

/-- R31: SET_POCKETS twice is SET_POCKETS once. -/
theorem Pocket.configured_configured (r : Pocket) (enabled : Option Bool) (zone : Option Zone) :
    (r.configured enabled zone).configured enabled zone = r.configured enabled zone := by
  cases enabled with
  | none => rw [Pocket.configured_none, Pocket.configured_none, Pocket.zoned_zoned]
  | some on =>
    by_cases h : on = r.enabled
    · rw [Pocket.configured_same h, Pocket.configured_same (r := r.zoned zone) h, Pocket.zoned_zoned]
    · cases on with
      | true =>
        have hoff : r.enabled = false := by simpa using Ne.symm h
        rw [Pocket.configured_on hoff, Pocket.configured_same rfl]
        cases zone <;> rfl
      | false =>
        have hon : r.enabled = true := by simpa using Ne.symm h
        rw [Pocket.configured_off hon, Pocket.configured_same rfl]
        cases zone <;> rfl

/-- R31, R68: a pocket that ISC assigns before SET_POCKETS reaches it ends as one that ISC assigns afterwards, or as if it had not. -/
theorem Pocket.PassedBy.configured {r x : Pocket} (h : r.PassedBy x) (enabled : Option Bool) (zone : Option Zone) :
    (r.configured enabled zone).PassedBy (x.configured enabled zone) := by
  rcases h with rfl | ⟨he, rfl⟩
  · exact .inl rfl
  cases enabled with
  | none =>
    rw [Pocket.configured_none, Pocket.configured_none]
    exact .inr ⟨he, rfl⟩
  | some on =>
    by_cases h : on = r.enabled
    · rw [Pocket.configured_same h, Pocket.configured_same (r := { r with state := .expectPlace }) h]
      exact .inr ⟨he, rfl⟩
    · cases on with
      | true =>
        have hoff : r.enabled = false := by simpa using Ne.symm h
        rw [Pocket.configured_on hoff, Pocket.configured_on (r := { r with state := .expectPlace }) hoff]
        exact .inl rfl
      | false =>
        have hon : r.enabled = true := by simpa using Ne.symm h
        rw [Pocket.configured_off hon, Pocket.configured_off (r := { r with state := .expectPlace }) hon]
        exact .inl rfl

/-! ### The pockets one after the other -/

theorem State.configurePocket_eq (s : State) (c p : Nat) (enabled : Option Bool) (zone : Option Zone) :
    s.configurePocket c p enabled zone =
      let r := (s.pocket c p).configured enabled zone
      let u := s.setPocket c p r
      if r.enabled != (s.pocket c p).enabled || r.zone != (s.pocket c p).zone then u.noticeIfFree c p else u := rfl

/-- What SET_POCKETS leaves of a pocket: configured if it is named, and passed by. -/
def State.Configures (s t : State) (c : Nat) (ps : List Nat) (enabled : Option Bool) (zone : Option Zone) : Prop :=
  tableSorted t.psc.pockets = true ∧ s.PutsAway t ∧ t.svp = s.svp ∧
  ∀ d q, 1 ≤ q → q ≤ 64 →
    (if d = c ∧ q ∈ ps then (s.pocket d q).configured enabled zone else s.pocket d q).PassedBy (t.pocket d q)

theorem State.configurePocket_configures {s : State} (hs : tableSorted s.psc.pockets = true) {c p : Nat} (hp : 1 ≤ p ∧ p ≤ 64)
    (enabled : Option Bool) (zone : Option Zone) : s.Configures (s.configurePocket c p enabled zone) c [p] enabled zone := by
  let u := s.setPocket c p ((s.pocket c p).configured enabled zone)
  have husorted : tableSorted u.psc.pockets = true := tableSorted_dset _ _ hs
  have hput : s.PutsAway u := (State.PutsAway.refl s).setPocket c p _
  have hpocket (d q : Nat) (h1 : 1 ≤ q) (h2 : q ≤ 64) :
      u.pocket d q = if d = c ∧ q ∈ [p] then (s.pocket d q).configured enabled zone else s.pocket d q := by
    refine (State.pocket_setPocket s c p d q _).trans ?_
    by_cases hd : d = c ∧ q = p
    · obtain ⟨rfl, rfl⟩ := hd
      rw [if_pos rfl, if_pos ⟨rfl, List.mem_singleton_self q⟩]
    · rw [if_neg (mt (pocketKey_inj hp ⟨h1, h2⟩).1 hd), if_neg fun hx => hd ⟨hx.1, List.mem_singleton.1 hx.2⟩]
  rw [State.configurePocket_eq]
  dsimp only
  split
  · obtain ⟨hpass, hsorted⟩ := State.noticeIfFree_passes husorted c p
    exact ⟨hsorted, hput.noticeIfFree c p, State.noticeIfFree_svp u c p, fun d q h1 h2 => hpocket d q h1 h2 ▸ hpass d q⟩
  · exact ⟨husorted, hput, rfl, fun d q h1 h2 => .inl (hpocket d q h1 h2)⟩

/-- R31: the pockets that SET_POCKETS names, one after the other. -/
theorem State.foldl_configures {s : State} (hs : tableSorted s.psc.pockets = true) (c : Nat) {ps : List Nat}
    (hps : ∀ p ∈ ps, 1 ≤ p ∧ p ≤ 64) (enabled : Option Bool) (zone : Option Zone) :
    s.Configures (ps.foldl (fun s p => s.configurePocket c p enabled zone) s) c ps enabled zone := by
  induction ps generalizing s with
  | nil => exact ⟨hs, .refl s, rfl, fun d q _ _ => .inl (by simp)⟩
  | cons p ps ih =>
    obtain ⟨hp, hrest⟩ := List.forall_mem_cons.1 hps
    obtain ⟨hsorted, hput, hsvp, hstep⟩ := State.configurePocket_configures hs (c := c) hp enabled zone
    obtain ⟨hsorted', hput', hsvp', hfold⟩ := ih hsorted hrest
    refine ⟨hsorted', hput.trans hput', hsvp'.trans hsvp, fun d q h1 h2 => ?_⟩
    have hfirst := hstep d q h1 h2
    refine Pocket.PassedBy.trans ?_ (hfold d q h1 h2)
    by_cases hd : d = c
    · by_cases hq : q = p
      · rw [if_pos ⟨hd, by simp [hq]⟩] at hfirst ⊢
        split
        · have := hfirst.configured enabled zone
          rwa [Pocket.configured_configured] at this
        · exact hfirst
      · rw [if_neg fun h => hq (List.mem_singleton.1 h.2)] at hfirst
        rw [if_congr (show d = c ∧ q ∈ p :: ps ↔ d = c ∧ q ∈ ps by simp [hq]) rfl rfl]
        split
        · exact hfirst.configured enabled zone
        · exact hfirst
    · rw [if_neg fun h => hd h.1] at hfirst ⊢
      rw [if_neg fun h => hd h.1]
      exact hfirst

/-! ### The command -/

/-- A command that only puts away changes PSC and ISC beside its answer. -/
theorem State.PutsAway.answered {s u : State} {kind tag : Byte} {body : List Byte} (h : (s.taken kind tag body).PutsAway u) (x : Svp) :
    ({ u with svp := x } : State) = { s with psc := u.psc, isc := u.isc, svp := x, lines := Lines.quiet } := by
  obtain ⟨-, hu⟩ := h
  rw [hu]
  rfl

theorem Pocket.busy_iff {r : Pocket} :
    r.busy = true ↔ r.tool ≠ none ∨ r.mark ≠ none ∨ r.state = .expectTake ∨ r.state = .expectPlace := by
  unfold Pocket.busy
  simp only [Bool.or_eq_true, beq_iff_eq, Option.isSome_iff_ne_none, or_assoc]

theorem setPockets_inRange {c enabled zone : Nat} {pockets : List Nat} :
    (cabinetNo c && within 0 2 enabled && within 0 2 zone && !pockets.isEmpty && pockets.all pocketNo) = true ↔
      1 ≤ c ∧ c ≤ 12 ∧ enabled ≤ 2 ∧ zone ≤ 2 ∧ pockets ≠ [] ∧ ∀ p ∈ pockets, 1 ≤ p ∧ p ≤ 64 := by
  simp only [Bool.and_eq_true, cabinetNo_iff, within_iff, List.all_eq_true, pocketNo_iff, Bool.not_eq_true', List.isEmpty_eq_false_iff]
  constructor
  · rintro ⟨⟨⟨⟨⟨h1, h2⟩, -, hon⟩, -, hzone⟩, hne⟩, hall⟩
    exact ⟨h1, h2, hon, hzone, hne, hall⟩
  · rintro ⟨h1, h2, hon, hzone, hne, hall⟩
    exact ⟨⟨⟨⟨⟨h1, h2⟩, Nat.zero_le _, hon⟩, Nat.zero_le _, hzone⟩, hne⟩, hall⟩

/-- The enabled flag that a code of SET_POCKETS names (R31). -/
def flagCode (on : Nat) : Option Bool := if on = 0 then some false else if on = 1 then some true else none

/-- The zone that a code of SET_POCKETS names (R31). -/
def zoneCode (zone : Nat) : Option Zone := if zone = 0 then some .stock else if zone = 1 then some .hold else none

/-- R31: the record of a named pocket, by the codes of the command. -/
theorem Pocket.configured_codes (r : Pocket) {on : Nat} (zone : Nat) :
    let z := if zone = 0 then Zone.stock else if zone = 1 then Zone.hold else r.zone
    r.configured (flagCode on) (zoneCode zone) =
      if on = 1 ∧ r.enabled = false then
        { r with
          zone := z, enabled := true, state := if r.tool = none then .empty else .occupied
          sensed := if r.baseline = none then .undecided else if r.tool = none then .absent else .present }
      else if on = 0 ∧ r.enabled = true then
        { r with zone := z, enabled := false, state := .disabled, sensed := .undecided, run := 0 }
      else { r with zone := z } := by
  intro z
  have hz : (zoneCode zone).getD r.zone = z := by
    unfold zoneCode
    simp only [z]
    split
    · rfl
    · split
      · rfl
      · rfl
  unfold flagCode
  by_cases h0 : on = 0
  · rw [if_pos h0, if_neg (by omega)]
    by_cases he : r.enabled = true
    · rw [Pocket.configured_off he, if_pos ⟨h0, he⟩, Pocket.zoned, hz]
    · rw [Pocket.configured_same (by simpa using Ne.symm he), if_neg fun h => he h.2, Pocket.zoned, hz]
  · rw [if_neg h0]
    by_cases h1 : on = 1
    · rw [if_pos h1]
      by_cases he : r.enabled = false
      · rw [Pocket.configured_on he, Pocket.zoned, hz]
        exact (if_pos ⟨h1, he⟩).symm
      · rw [Pocket.configured_same (by simpa using Ne.symm he), if_neg fun h => he h.2, if_neg fun h => h0 h.1, Pocket.zoned, hz]
    · rw [if_neg h1, Pocket.configured_none, if_neg fun h => h1 h.1, if_neg fun h => h0 h.1, Pocket.zoned, hz]

/-- Settles O9, by the pockets in ascending order, each with the notice that follows it. -/
theorem setPocketsConfiguresEach : Obligations.SetPocketsConfiguresEach := by
  intro s tag body h hpockets c on zone named inRange inUse
  have hany : named.any (fun p => ((s.taken 0x11 tag body).pocket c p).busy) = true ↔ ∃ p ∈ named, inUse p := by
    rw [List.any_eq_true]
    exact exists_congr fun p => and_congr_right fun _ => Pocket.busy_iff
  change (¬ inRange → execSetPockets tag body s = _) ∧ (inRange → on = 0 → _ → execSetPockets tag body s = _) ∧
    (inRange → _ → ∃ t, execSetPockets tag body s = .next t ∧ _)
  unfold execSetPockets
  refine ⟨fun hr => ?_, fun hr hon hused => ?_, fun hr hfree => ?_⟩
  · exact hostCommand_answers h (if_pos (Bool.eq_false_iff.2 (mt setPockets_inRange.1 hr)))
  · exact hostCommand_answers h ((if_neg (ne_false_of_eq_true (setPockets_inRange.2 hr))).trans (if_pos ⟨hon, hany.2 hused⟩))
  · obtain ⟨-, -, -, -, -, hall⟩ := id hr
    obtain ⟨hsorted, hput, hsvp, hread⟩ := State.foldl_configures (s := s.taken 0x11 tag body) hpockets c
      (ps := asSet named) (fun p hp => hall p (mem_asSet.1 hp)) (flagCode on) (zoneCode zone)
    have hexec := hostCommand_runs (rs := []) (run := fun s => s.setPockets c on zone named) h
      ((if_neg (ne_false_of_eq_true (setPockets_inRange.2 hr))).trans (if_neg fun hx => hfree ⟨hx.1, hany.1 hx.2⟩)) hsvp
    refine ⟨_, hexec, ?_, congrArg (fun t => t.psc.cabinets) hput.2, hput.queue_eq, fun p hp => ?_, fun d p h1 h2 hd => ?_⟩
    · exact hput.answered _
    · obtain ⟨h1, h2⟩ := hall p hp
      have hnamed := hread c p h1 h2
      rw [if_pos ⟨rfl, mem_asSet.2 hp⟩, Pocket.configured_codes] at hnamed
      exact hnamed
    · have hother := hread d p h1 h2
      rw [if_neg fun hx => hd ⟨hx.1, mem_asSet.1 hx.2⟩] at hother
      exact hother

end Sys2Proof.Machine

/-! O12: boundaries, and a single pass that goes on. -/

namespace Sys2Proof.Machine

open State

theorem cabinetEvent_eq {c : Nat} (h1 : 1 ≤ c) (h2 : c ≤ 12) (f : State → State) (s : State) : cabinetEvent c f s = event f s :=
  if_pos (cabinetNo_iff.2 ⟨h1, h2⟩)

/-- An event that changes PSC alone, beside its reports (R196, R197). -/
theorem event_psc {f : State → State} {s u : State} {rs : List Report} (hf : f s.quiet = u)
    (hu : u = { s.quiet with psc := u.psc, svp := s.svp.handed s.now rs }) :
    event f s = .next { s with psc := u.psc, svp := s.svpReported rs, lines := Lines.quiet } := by
  have hsvp : (f s.quiet).svp = s.svp.handed s.now rs := by rw [hf, hu]
  rw [event_handed hsvp, hf]
  congr 1
  rw [hu]
  rfl

/-! ### Boundaries -/

/-- R34: a boundary that has come. -/
theorem State.fireBoundary_due {s : State} {c b : Nat} (hb : (s.cab c).boundary = some b) (h : b ≤ s.tick) :
    s.fireBoundary c = (s.setCab c { s.cab c with boundary := some (b + (s.cab c).settings.interval) }).startAuto c := by
  unfold State.fireBoundary
  simp only [hb]
  exact if_pos h

theorem State.fireBoundary_cab {s : State} {c b : Nat} (hb : (s.cab c).boundary = some b) (h : b ≤ s.tick) (d : Nat) :
    (s.fireBoundary c).cab d = if d = c then { s.cab c with
      boundary := some (b + (s.cab c).settings.interval), pass := (s.cab c).pass.or ((s.nextEnabled c 0).map .auto) } else s.cab d := by
  have hset := State.cab_setCab s c
  rw [State.fireBoundary_due hb h, State.startAuto_cab, hset, hset, if_pos rfl]
  split
  · rfl
  · rfl

theorem State.fireBoundary_changes {s : State} {c b : Nat} (hb : (s.cab c).boundary = some b) (h : b ≤ s.tick) :
    s.ChangesCabs (s.fireBoundary c) := by
  have hstart := State.startAuto_changes (s.setCab c { s.cab c with boundary := some (b + (s.cab c).settings.interval) }) c
  rw [State.fireBoundary_due hb h]
  unfold State.ChangesCabs at *
  rw [hstart]
  rfl

theorem State.ChangesCabs.quietly {s t : State} (h : s.quiet.ChangesCabs t) :
    t = { s.quiet with psc := t.psc, svp := s.svp.handed s.now [] } := by
  unfold State.ChangesCabs at h
  rw [h]
  rfl

/-- R34: a boundary that has come, by the lowest enabled pocket. -/
theorem execScanInterval_due {s : State} {c p b : Nat} (h1 : 1 ≤ c) (h2 : c ≤ 12) (hb : (s.cab c).boundary = some b) (h : b ≤ s.tick)
    (hnext : s.nextEnabled c 0 = some p) :
    ∃ t, exec (.scanInterval c) s = .next t ∧
      t.cab c = { s.cab c with
        boundary := some (b + (s.cab c).settings.interval)
        pass := match (s.cab c).pass with
          | none => some (.auto p)
          | some x => some x } ∧
      (∀ d, d ≠ c → t.cab d = s.cab d) ∧ t.psc.pockets = s.psc.pockets ∧
      t = { s with psc := t.psc, svp := s.svpReported [], lines := Lines.quiet } := by
  have hcab := State.fireBoundary_cab (s := s.quiet) hb h
  have hchanges := State.fireBoundary_changes (s := s.quiet) hb h
  have hexec : exec (.scanInterval c) s = event (fun s => s.fireBoundary c) s := cabinetEvent_eq h1 h2 _ s
  refine ⟨_, hexec.trans (event_psc rfl hchanges.quietly), (hcab c).trans ((if_pos rfl).trans ?_),
    fun d hd => (hcab d).trans (if_neg hd), ?_, rfl⟩
  · rw [show s.quiet.nextEnabled c 0 = some p from hnext, show s.quiet.cab c = s.cab c from rfl]
    cases (s.cab c).pass <;> rfl
  · change (s.quiet.fireBoundary c).psc.pockets = _
    rw [hchanges]
    rfl

/-! ### A single pass that goes on -/

/-- R34: a single pass counts the pockets it has measured and goes on to the next enabled one. -/
theorem execPocketCount_single {s : State} {c p q handle measured : Nat} (cycles : Nat) (h1 : 1 ≤ c) (h2 : c ≤ 12) (hpq : p < q)
    (hq : q ≤ 64) (hpass : (s.cab c).pass = some (.single handle p measured)) (hp : (s.pocket c p).enabled = true)
    (hnext : (s.pocket c q).enabled = true) (hgap : ∀ k, p < k → k < q → (s.pocket c k).enabled = false) :
    ∃ t, exec (.pocketCount c cycles) s = .next t ∧ (t.pocket c p).lastCount = some (min cycles 16383) ∧
      t.cab c = { s.cab c with pass := some (.single handle q (measured + 1)) } ∧ ∀ d, d ≠ c → t.cab d = s.cab d := by
  obtain ⟨hcabs, henabled, hcount⟩ := State.countPocket_scans s.quiet c p (countOf cycles)
  have hexec : exec (.pocketCount c cycles) s = event (fun s => s.takeCount c cycles) s := cabinetEvent_eq h1 h2 _ s
  have htake : s.quiet.takeCount c cycles = (s.quiet.countPocket c p (countOf cycles)).setCab c
      { s.cab c with pass := some (.single handle q (measured + 1)) } := by
    unfold State.takeCount
    rw [show (s.quiet.cab c).pass = some (.single handle p measured) from hpass]
    dsimp only
    rw [if_pos (show (s.quiet.pocket c p).enabled = true from hp)]
    unfold State.passOn
    dsimp only
    rw [State.nextEnabled_after henabled hpq hq hnext hgap]
    dsimp only
    rw [show (s.quiet.countPocket c p (countOf cycles)).cab c = s.cab c by
      unfold State.cab
      rw [hcabs]
      rfl]
  have hcab := State.cab_setCab (s.quiet.countPocket c p (countOf cycles)) c
  refine ⟨_, hexec.trans (event_next _ s), ?_, ?_, fun d hd => ?_⟩
  · rw [htake]
    exact hcount
  · rw [htake]
    exact (hcab c _).trans (if_pos rfl)
  · rw [htake]
    refine (hcab d _).trans ((if_neg hd).trans ?_)
    unfold State.cab
    rw [hcabs]
    rfl

end Sys2Proof.Machine

/-! O12: the count of a learning pass. -/

namespace Sys2Proof.Machine

open State

/-! ### The walk of a learning pass -/

/-- A pocket that a learning pass refuses as it reaches it (R35). -/
def State.refuses (s : State) (c : Nat) (p : Nat) : Bool := !(s.pocket c p).learnable

/-- R35: the channel leaves out the pockets up to the first that meets the conditions. -/
theorem State.learnNext_eq (s : State) (c : Nat) (ps refused : List Nat) :
    s.learnNext c ps refused =
      { current := (ps.dropWhile (s.refuses c)).head?, rest := (ps.dropWhile (s.refuses c)).tail
        refused := refused ++ ps.takeWhile (s.refuses c) } := by
  induction ps generalizing refused with
  | nil => simp [State.learnNext]
  | cons p ps ih =>
    unfold State.learnNext
    cases hp : (s.pocket c p).learnable with
    | true => simp [State.refuses, hp]
    | false =>
      have hr : s.refuses c p = true := by simp [State.refuses, hp]
      rw [if_neg Bool.false_ne_true, ih, List.dropWhile_cons_of_pos hr, List.takeWhile_cons_of_pos hr, List.append_assoc]
      rfl

theorem State.learnOn_goes {s : State} {c handle q : Nat} {ps rest : List Nat} (h : ps.dropWhile (s.refuses c) = q :: rest)
    (learned refused failed : List Nat) :
    s.learnOn c handle ps learned refused failed =
      s.setCab c { s.cab c with pass := some (.learn handle q rest learned (refused ++ ps.takeWhile (s.refuses c)) failed) } := by
  unfold State.learnOn
  simp only [State.learnNext_eq, h, List.head?_cons, List.tail_cons]

theorem State.learnOn_ends {s : State} {c : Nat} {ps : List Nat} (h : ps.dropWhile (s.refuses c) = []) (handle : Nat)
    (learned refused failed : List Nat) :
    s.learnOn c handle ps learned refused failed =
      (s.setCab c { s.cab c with pass := none }).report
        (.learnDone c handle learned (refused ++ ps.takeWhile (s.refuses c)) failed) := by
  unfold State.learnOn
  simp only [State.learnNext_eq, h, List.head?_nil]

/-! ### The count of a learning pass -/

/-- A count that a learning pass takes as a baseline (R35). -/
def learns (cycles : Nat) : Bool := decide (0 < cycles ∧ cycles < 16383)

theorem learns_iff {cycles : Nat} : learns cycles = true ↔ 0 < cycles ∧ cycles < 16383 := decide_eq_true_iff

theorem countOf_learns {cycles : Nat} (h : learns cycles = true) : countOf cycles = cycles :=
  Nat.min_eq_left (learns_iff.1 h).2.le

/-- A pocket after a learned count, its state and its sensed presence apart (R35). -/
def Pocket.taught (k : Pocket) (settings : CabSettings) (cycles : Nat) : Pocket :=
  { k with
    lastCount := some cycles, baseline := some cycles, run := 0
    presentBound := some (cycles * (1000 - settings.presentDev) / 1000)
    absentBound := some (cycles * (1000 - settings.absentDev) / 1000) }

theorem Pocket.learned_off {k : Pocket} (h : k.enabled = false) (settings : CabSettings) (cycles : Nat) :
    k.learned settings cycles = k.taught settings cycles := if_neg (by simp [Pocket.withBounds, h])

/-- R35: an enabled pocket that stood EMPTY or in FAULT is EMPTY with ABSENT sensed. -/
theorem Pocket.learned_on {k : Pocket} (h : k.enabled = true) (hs : k.state = .empty ∨ k.state = .fault) (settings : CabSettings)
    (cycles : Nat) : k.learned settings cycles = { k.taught settings cycles with sensed := .absent, state := .empty } := by
  refine (if_pos h).trans ?_
  rcases hs with hs | hs
  · simp only [Pocket.withBounds, hs]
    rfl
  · simp only [Pocket.withBounds, hs]
    rfl

/-- The crib with the count of a learning pass, and put-away told of a pocket that is free then (R35, R37). -/
def State.learnt (s : State) (c p cycles : Nat) : State :=
  if learns cycles then (s.setPocket c p ((s.pocket c p).learned (s.cab c).settings cycles)).noticeIfFree c p
  else s.setPocket c p { s.pocket c p with lastCount := some (countOf cycles) }

/-- R35: the count of a learning pass, and the pass from there. -/
theorem State.takeLearn_measures {s : State} {c p handle : Nat} {rest learned refused failed : List Nat} (cycles : Nat)
    (h : (s.cab c).pass = some (.learn handle p rest learned refused failed)) (hp : (s.pocket c p).learnable = true) :
    s.takeLearn c cycles =
      let u := (s.learnt c p cycles).learnOn c handle rest (if learns cycles then learned ++ [p] else learned) refused
        (if learns cycles then failed else failed ++ [p])
      if (u.cab c).pass.isNone then u.endPass c else u := by
  unfold State.takeLearn State.learnt
  simp only [h]
  rw [if_neg (ne_false_of_eq_true hp)]
  by_cases hl : learns cycles = true
  · have hcount : ¬ (cycles = 0 ∨ cycles = 16383) := by
      obtain ⟨h0, h1⟩ := learns_iff.1 hl
      omega
    simp only [hl, if_true, countOf_learns hl, if_neg hcount]
  · have hcount : countOf cycles = 0 ∨ countOf cycles = 16383 := by
      rw [learns_iff] at hl
      unfold countOf
      omega
    simp only [hl, if_pos hcount, Bool.false_eq_true, if_false]

/-- R35: the step of a count in a learning pass that goes on. -/
theorem execLearnMeasurement_goes {s v : State} {c p q handle cycles : Nat} {more learned refused failed : List Nat} (h1 : 1 ≤ c)
    (h2 : c ≤ 12) (h : (s.cab c).pass = some (.learn handle p (q :: more) learned refused failed))
    (hp : (s.pocket c p).learnable = true) (hv : s.quiet.learnt c p cycles = v) (hcabs : v.psc.cabinets = s.psc.cabinets)
    (hsvp : v.svp = s.svp) (hq : (v.pocket c q).learnable = true) :
    exec (.learnMeasurement c cycles) s = .next { v.setCab c { s.cab c with pass := some (.learn handle q more
      (if learns cycles then learned ++ [p] else learned) refused (if learns cycles then failed else failed ++ [p])) } with
        svp := s.svpReported [] } := by
  have hcab : v.cab c = s.cab c := by
    unfold State.cab
    rw [hcabs]
  have htake := State.takeLearn_measures (s := s.quiet) cycles h hp
  rw [hv, State.learnOn_first hq, hcab] at htake
  dsimp only at htake
  rw [State.cab_setCab, if_pos rfl, if_neg (by simp)] at htake
  have hexec : exec (.learnMeasurement c cycles) s = event (fun s => s.takeLearn c cycles) s := cabinetEvent_eq h1 h2 _ s
  rw [hexec, event_handed (rs := []) (by rw [htake]; exact hsvp), htake]

/-! ### The end of a pass -/

/-- The channel is idle (R34). -/
def State.passEnded (s : State) (c : Nat) : State := s.setCab c { s.cab c with pass := none }

/-- Settings that waited for the end of a pass take effect; the answer says whether the boundaries restart (R30). -/
def State.settleWaiting (s : State) (c : Nat) : State × Bool :=
  match (s.cab c).pendingSettings with
  | some new => s.takeSettings c new
  | none => (s, false)

/-- A learning pass held meanwhile starts (R35). -/
def State.startHeld (s : State) (c : Nat) : State :=
  match (s.cab c).heldLearn with
  | some l => (s.setCab c { s.cab c with heldLearn := none }).learnOn c l.handle l.pockets [] [] []
  | none => s

theorem State.endPass_eq (s : State) (c : Nat) :
    s.endPass c =
      if ((s.passEnded c).settleWaiting c).2 then (((s.passEnded c).settleWaiting c).1.startHeld c).restartBoundary c
      else ((s.passEnded c).settleWaiting c).1.startHeld c := rfl

theorem State.passEnded_cab (s : State) (c d : Nat) : (s.passEnded c).cab d = if d = c then { s.cab c with pass := none } else s.cab d :=
  State.cab_setCab s c d _

theorem State.settleWaiting_none {s : State} {c : Nat} (h : (s.cab c).pendingSettings = none) : s.settleWaiting c = (s, false) := by
  simp only [State.settleWaiting, h]

theorem State.settleWaiting_some {s : State} {c : Nat} {new : CabSettings} (h : (s.cab c).pendingSettings = some new) :
    s.settleWaiting c = s.takeSettings c new := by
  simp only [State.settleWaiting, h]

theorem State.startHeld_none {s : State} {c : Nat} (h : (s.cab c).heldLearn = none) : s.startHeld c = s := by
  simp only [State.startHeld, h]

/-- R34: the end of a pass with nothing held and nothing waiting. -/
theorem State.endPass_plain {s : State} {c : Nat} (hpending : (s.cab c).pendingSettings = none) (hheld : (s.cab c).heldLearn = none) :
    s.endPass c = s.passEnded c := by
  have hcab : (s.passEnded c).cab c = { s.cab c with pass := none } := (s.passEnded_cab c c).trans (if_pos rfl)
  rw [State.endPass_eq, State.settleWaiting_none (by rw [hcab]; exact hpending), State.startHeld_none (by rw [hcab]; exact hheld)]
  exact if_neg Bool.false_ne_true

/-- R35: the step of a count in a learning pass that is the last, with nothing held or waiting. -/
theorem execLearnMeasurement_ends {s v : State} {c p handle cycles : Nat} {rest learned refused failed : List Nat} (h1 : 1 ≤ c)
    (h2 : c ≤ 12) (h : (s.cab c).pass = some (.learn handle p rest learned refused failed))
    (hpending : (s.cab c).pendingSettings = none) (hheld : (s.cab c).heldLearn = none)
    (hp : (s.pocket c p).learnable = true) (hv : s.quiet.learnt c p cycles = v) (hcabs : v.psc.cabinets = s.psc.cabinets)
    (hsvp : v.svp = s.svp) (hnow : v.now = s.now) (hrest : ∀ q ∈ rest, (v.pocket c q).learnable = false) :
    exec (.learnMeasurement c cycles) s = .next
      { (v.setCab c { s.cab c with pass := none }).setCab c { s.cab c with pass := none } with
        svp := s.svpReported [.learnDone c handle (if learns cycles then learned ++ [p] else learned) (refused ++ rest)
          (if learns cycles then failed else failed ++ [p])] } := by
  let done : Report := .learnDone c handle (if learns cycles then learned ++ [p] else learned) (refused ++ rest)
    (if learns cycles then failed else failed ++ [p])
  let u := (v.setCab c { s.cab c with pass := none }).report done
  have hvcab : v.cab c = s.cab c := by
    unfold State.cab
    rw [hcabs]
  have hucab : u.cab c = { s.cab c with pass := none } := (State.cab_setCab v c c _).trans (if_pos rfl)
  have hrefuses : ∀ q ∈ rest, v.refuses c q = true := fun q hq => by simp [State.refuses, hrest q hq]
  have hends : u.endPass c = u.setCab c { s.cab c with pass := none } := by
    rw [State.endPass_plain (by rw [hucab]; exact hpending) (by rw [hucab]; exact hheld), State.passEnded, hucab]
  have htake : s.quiet.takeLearn c cycles = u.setCab c { s.cab c with pass := none } := by
    rw [State.takeLearn_measures (s := s.quiet) cycles h hp, hv, State.learnOn_ends (List.dropWhile_eq_nil_iff.2 hrefuses),
      List.takeWhile_eq_self_iff.2 hrefuses, hvcab, ← hends]
    exact if_pos (by rw [show (State.cab _ c) = _ from hucab]; rfl)
  have hexec : exec (.learnMeasurement c cycles) s = event (fun s => s.takeLearn c cycles) s := cabinetEvent_eq h1 h2 _ s
  rw [hexec, event_handed (rs := [done]) (by rw [htake, ← hsvp, ← hnow]; rfl), htake]
  rfl

/-! ### What a notice assigns -/

/-- What a free-pocket notice does of pockets and assignments: an EMPTY enabled pocket may be assigned, no assignment is lost (R67, R68). -/
structure State.AssignsFree (s t : State) : Prop where
  sorted : tableSorted t.psc.pockets = true
  stands : ∀ n a, tget s.isc.assigned n = some a → tget t.isc.assigned n = some a
  pocket : ∀ d q, 1 ≤ q → q ≤ 64 → t.pocket d q = s.pocket d q ∨
    ((s.pocket d q).state = .empty ∧ (s.pocket d q).enabled = true ∧ t.pocket d q = { s.pocket d q with state := .expectPlace } ∧
      ∃ n a, tget t.isc.assigned n = some a ∧ a.cabinet = d ∧ a.pocket = q)

theorem State.AssignsFree.refl {s : State} (h : tableSorted s.psc.pockets = true) : s.AssignsFree s :=
  ⟨h, fun _ _ ha => ha, fun _ _ _ _ => .inl rfl⟩

theorem State.AssignsFree.trans {s t u : State} (h : s.AssignsFree t) (k : t.AssignsFree u) : s.AssignsFree u := by
  refine ⟨k.sorted, fun n a ha => k.stands n a (h.stands n a ha), fun d q h1 h2 => ?_⟩
  rcases h.pocket d q h1 h2 with hp | ⟨he, hon, hp, n, a, ha, hd, hq⟩
  · have hk := k.pocket d q h1 h2
    rwa [hp] at hk
  · rcases k.pocket d q h1 h2 with hk | ⟨hk, -⟩
    · exact .inr ⟨he, hon, hk.trans hp, n, a, k.stands n a ha, hd, hq⟩
    · rw [hp] at hk
      cases hk

theorem State.assignIfFree_assigns {s : State} (h : tableSorted s.psc.pockets = true) (n : Nat) : s.AssignsFree (s.assignIfFree n) := by
  unfold State.assignIfFree
  split
  next hneeds =>
    have hnone : tget s.isc.assigned n = none := by
      unfold State.needsPutaway at hneeds
      split at hneeds
      · simp only [Bool.and_eq_true, Option.isNone_iff_eq_none] at hneeds
        exact hneeds.2
      · cases hneeds
    split
    · exact .refl h
    · dsimp only
      split
      next key hk =>
        obtain ⟨hempty, hsuitable⟩ := State.suitablePocket_empty h hk
        refine ⟨tableSorted_dset _ _ h, fun m a ha => ?_, fun d q h1 h2 => ?_⟩
        · refine (tget_tset _ _ _ _).trans ((if_neg ?_).trans ha)
          rintro rfl
          rw [hnone] at ha
          cases ha
        · have hset := State.pocket_setPocket s (keyCabinet key) (keyPocket key) d q
            { s.pocket (keyCabinet key) (keyPocket key) with state := .expectPlace }
          rw [pocketKey_keys] at hset
          by_cases hkey : pocketKey d q = key
          · rw [if_pos hkey] at hset
            have hsame : s.pocket (keyCabinet key) (keyPocket key) = s.pocket d q := by
              rw [State.pocket, State.pocket, pocketKey_keys, hkey]
            have hpocket : dget Pocket.reset s.psc.pockets key = s.pocket d q := by rw [State.pocket, hkey]
            rw [hpocket] at hempty hsuitable
            simp only [Pocket.suitable, Bool.and_eq_true] at hsuitable
            obtain ⟨⟨⟨-, hon⟩, -⟩, -⟩ := hsuitable
            refine .inr ⟨hempty, hon, hset.trans (by rw [hsame]), n, _, (tget_tset _ _ _ _).trans (if_pos rfl), ?_, ?_⟩
            · rw [← hkey]
              exact keyCabinet_pocketKey h1 h2
            · rw [← hkey]
              unfold keyPocket pocketKey
              dsimp only
              omega
          · rw [if_neg hkey] at hset
            exact .inl hset
      next => exact .refl h
  next => exact .refl h

theorem State.noticeIfFree_assigns {s : State} (h : tableSorted s.psc.pockets = true) (c p : Nat) : s.AssignsFree (s.noticeIfFree c p) := by
  have fold (xs : List Nat) (t : State) (ht : tableSorted t.psc.pockets = true) :
      t.AssignsFree (xs.foldl (fun s n => s.assignIfFree n) t) := by
    induction xs generalizing t with
    | nil => exact .refl ht
    | cons x xs ih =>
      have hx := State.assignIfFree_assigns ht x
      exact hx.trans (ih _ hx.sorted)
  unfold State.noticeIfFree State.freeNotice
  split
  · exact fold _ _ h
  · exact .refl h

end Sys2Proof.Machine

/-! O12: the end of a pass. -/

namespace Sys2Proof.Machine

open State

/-! ### Settings that waited -/

/-- What a rewriting of pockets keeps of every pocket. -/
theorem State.foldl_setPocket_keeps {α : Type} {π : Pocket → α} {f : Pocket → Pocket} (hf : ∀ r, π (f r) = π r) (c : Nat) (ps : List Nat)
    (s : State) (d q : Nat) : π ((ps.foldl (fun s p => s.setPocket c p (f (s.pocket c p))) s).pocket d q) = π (s.pocket d q) := by
  induction ps generalizing s with
  | nil => rfl
  | cons p ps ih =>
    rw [List.foldl_cons, ih, State.pocket_setPocket]
    split
    next hk => rw [hf, State.pocket, State.pocket, hk]
    next => rfl

/-- R30: settings that take effect leave what a learning pass asks of a pocket. -/
theorem State.takeSettings_refuses (s : State) (c : Nat) (new : CabSettings) (d : Nat) :
    (s.takeSettings c new).1.refuses d = s.refuses d := by
  funext q
  have hkeeps := State.foldl_setPocket_keeps (π := Pocket.learnable) (f := fun r => r.resettled (s.cab c).settings new)
    (fun _ => rfl) c allPockets s d q
  unfold State.refuses
  unfold State.takeSettings
  dsimp only
  generalize allPockets.foldl (fun s' p => s'.setPocket c p ((s'.pocket c p).resettled (s.cab c).settings new)) s = u at *
  exact congrArg not hkeeps

/-- R34: whether settings restart the boundaries, as a test. -/
theorem State.takeSettings_restart (s : State) (c : Nat) (new : CabSettings) :
    (s.takeSettings c new).2 = (s.autoRuns new &&
      (!s.autoRuns (s.cab c).settings || decide ((s.cab c).settings.interval ≠ new.interval) ||
        decide ((s.cab c).settings.mode ≠ new.mode))) := by
  unfold State.takeSettings
  dsimp only
  have honly := State.foldl_setPocket_only (fun r => r.resettled (s.cab c).settings new) c allPockets s
  generalize allPockets.foldl (fun s' p => s'.setPocket c p ((s'.pocket c p).resettled (s.cab c).settings new)) s = u at *
  have hruns (x : CabSettings) : u.autoRuns x = s.autoRuns x := by
    rw [honly]
    rfl
  rw [hruns, hruns, decide_not, decide_not]
  rfl

/-- The settings of the cabinet after a pass (R30). -/
def Cabinet.nextSettings (k : Cabinet) : CabSettings := k.pendingSettings.getD k.settings

/-- The boundaries restart at the end of a pass (R34). -/
def State.restartsAfter (s : State) (c : Nat) : Bool :=
  (s.cab c).pendingSettings.isSome && s.autoRuns (s.cab c).nextSettings &&
    (!s.autoRuns (s.cab c).settings || decide ((s.cab c).settings.interval ≠ (s.cab c).nextSettings.interval) ||
      decide ((s.cab c).settings.mode ≠ (s.cab c).nextSettings.mode))

/-- The pocket as settings that waited leave it (R30). -/
def Pocket.resettledAfter (r : Pocket) (k : Cabinet) : Pocket :=
  if k.pendingSettings = none then r else r.resettled k.settings k.nextSettings

/-- R30, R34: what the settings that waited for the end of a pass do. -/
structure State.Idles (s t : State) (c : Nat) : Prop where
  cab : ∀ d, t.cab d = if d = c then { s.cab c with
    settings := (s.cab c).nextSettings, pendingSettings := none, pass := none
    boundary := if (s.cab c).pendingSettings.isSome && !s.autoRuns (s.cab c).nextSettings then none else (s.cab c).boundary }
    else s.cab d
  pocket : ∀ d p, 1 ≤ p → p ≤ 64 → t.pocket d p = if d = c then (s.pocket d p).resettledAfter (s.cab c) else s.pocket d p
  refuses : t.refuses c = s.refuses c
  only : t = { s with psc := t.psc }

theorem State.settleWaiting_idles (s : State) (c : Nat) :
    s.Idles ((s.passEnded c).settleWaiting c).1 c ∧ ((s.passEnded c).settleWaiting c).2 = s.restartsAfter c := by
  have hcab := s.passEnded_cab c
  have hself := (hcab c).trans (if_pos rfl)
  cases hk : (s.cab c).pendingSettings with
  | none =>
    rw [State.settleWaiting_none (by rw [hself]; exact hk)]
    refine ⟨⟨fun d => ?_, fun d p _ _ => ?_, rfl, rfl⟩, ?_⟩
    · rw [hcab]
      simp only [Cabinet.nextSettings, hk, Option.getD_none, Option.isSome_none, Bool.false_and, Bool.false_eq_true, if_false]
    · simp only [Pocket.resettledAfter, hk, if_true, ite_self]
      rfl
    · simp only [State.restartsAfter, hk, Option.isSome_none, Bool.false_and]
  | some new =>
    have hnew : (s.cab c).nextSettings = new := by simp only [Cabinet.nextSettings, hk, Option.getD_some]
    obtain ⟨htcab, htpocket, htonly⟩ := (s.passEnded c).takeSettings_settles c new
    rw [State.settleWaiting_some (by rw [hself]; exact hk)]
    refine ⟨⟨fun d => ?_, fun d p h1 h2 => ?_, (s.passEnded c).takeSettings_refuses c new c, htonly⟩, ?_⟩
    · rw [htcab, hself, hcab, hnew]
      have hruns : (s.passEnded c).autoRuns new = s.autoRuns new := rfl
      rw [hruns, hk]
      split
      · cases s.autoRuns new with
        | true => rfl
        | false => rfl
      · rfl
    · rw [htpocket d p h1 h2, hself]
      unfold Pocket.resettledAfter
      rw [hnew, hk, if_neg (Option.some_ne_none new)]
      rfl
    · rw [State.takeSettings_restart, hself]
      unfold State.restartsAfter
      rw [hnew, hk, Option.isSome_some, Bool.true_and]
      rfl

/-! ### A learning pass that was held -/

/-- The learning pass that starts after a pass, if a held one has a pocket to measure (R35). -/
def State.heldPass (s : State) (c : Nat) : Option Pass :=
  (s.cab c).heldLearn.bind fun l =>
    match l.pockets.dropWhile (s.refuses c) with
    | [] => none
    | q :: rest => some (.learn l.handle q rest [] (l.pockets.takeWhile (s.refuses c)) [])

/-- What a held learning pass without a pocket to measure reports (R35). -/
def State.heldReports (s : State) (c : Nat) : List Report :=
  match (s.cab c).heldLearn with
  | none => []
  | some l =>
    match l.pockets.dropWhile (s.refuses c) with
    | [] => [.learnDone c l.handle [] (l.pockets.takeWhile (s.refuses c)) []]
    | _ :: _ => []

/-- R35: what a held learning pass does at the end of another. -/
theorem State.startHeld_does {s : State} {c : Nat} (hp : (s.cab c).pass = none) :
    (∀ d, (s.startHeld c).cab d = if d = c then { s.cab c with heldLearn := none, pass := s.heldPass c } else s.cab d) ∧
    (∀ d q, (s.startHeld c).pocket d q = s.pocket d q) ∧
    s.startHeld c = { s with psc := (s.startHeld c).psc, svp := s.svp.handed s.now (s.heldReports c) } := by
  unfold State.heldPass State.heldReports
  cases hk : (s.cab c).heldLearn with
  | none =>
    rw [State.startHeld_none hk]
    refine ⟨fun d => ?_, fun _ _ => rfl, rfl⟩
    split
    next hd =>
      subst hd
      calc s.cab d = { s.cab d with heldLearn := (s.cab d).heldLearn, pass := (s.cab d).pass } := rfl
        _ = _ := by
          rw [hk, hp]
          rfl
    next => rfl
  | some l =>
    let u := s.setCab c { s.cab c with heldLearn := none }
    have hu : s.startHeld c = u.learnOn c l.handle l.pockets [] [] [] := by simp only [State.startHeld, hk, u]
    have hucab := State.cab_setCab s c
    have huself : u.cab c = { s.cab c with heldLearn := none } := (hucab c _).trans (if_pos rfl)
    cases hd : l.pockets.dropWhile (s.refuses c) with
    | nil =>
      rw [hu, State.learnOn_ends (s := u) hd, huself]
      refine ⟨fun d => ?_, fun _ _ => rfl, by dsimp only; rw [hd]; rfl⟩
      refine (State.cab_setCab u c d _).trans ?_
      split
      · simp only [Option.bind_some, hd]
      next hdc => exact (hucab d _).trans (if_neg hdc)
    | cons q rest =>
      rw [hu, State.learnOn_goes (s := u) hd, huself]
      refine ⟨fun d => ?_, fun _ _ => rfl, by dsimp only; rw [hd]; rfl⟩
      refine (State.cab_setCab u c d _).trans ?_
      split
      · simp only [Option.bind_some, hd]
        rfl
      next hdc => exact (hucab d _).trans (if_neg hdc)

/-! ### The end of a pass -/

/-- The pass that follows the end of a pass (R34, R35). -/
def State.passAfter (s : State) (c : Nat) : Option Pass :=
  (s.heldPass c).or (if s.restartsAfter c then (s.nextEnabled c 0).map .auto else none)

/-- R30, R34, R35: what the end of a pass does. -/
theorem State.endPass_does (s : State) (c : Nat) :
    (∀ d, (s.endPass c).cab d = if d = c then
      { settings := (s.cab c).nextSettings, pendingSettings := none, heldLearn := none, pass := s.passAfter c
        boundary := if s.restartsAfter c then some (s.tick + (s.cab c).nextSettings.interval)
          else if (s.cab c).pendingSettings.isSome && !s.autoRuns (s.cab c).nextSettings then none else (s.cab c).boundary }
      else s.cab d) ∧
    (∀ d p, 1 ≤ p → p ≤ 64 → (s.endPass c).pocket d p = if d = c then (s.pocket d p).resettledAfter (s.cab c) else s.pocket d p) ∧
    s.endPass c = { s with psc := (s.endPass c).psc, svp := s.svp.handed s.now (s.heldReports c) } := by
  obtain ⟨⟨hcab, hpocket, hrefuses, honly⟩, hrestart⟩ := s.settleWaiting_idles c
  rw [State.endPass_eq, hrestart]
  generalize ((s.passEnded c).settleWaiting c).1 = v at *
  have hself := (hcab c).trans (if_pos rfl)
  obtain ⟨hwcab, hwpocket, hwonly⟩ := State.startHeld_does (s := v) (c := c) (by rw [hself])
  have hpass : v.heldPass c = s.heldPass c := by
    unfold State.heldPass
    rw [hself, hrefuses]
  have hreports : v.heldReports c = s.heldReports c := by
    unfold State.heldReports
    rw [hself, hrefuses]
  rw [hpass, hself] at hwcab
  have hw : v.startHeld c = { s with psc := (v.startHeld c).psc, svp := s.svp.handed s.now (s.heldReports c) } := by
    rw [hwonly, hreports, honly]
    rfl
  generalize v.startHeld c = w at *
  have hwself := (hwcab c).trans (if_pos rfl)
  have hnext : w.nextEnabled c 0 = s.nextEnabled c 0 := by
    unfold State.nextEnabled
    refine List.find?_congr fun p hm => ?_
    obtain ⟨h1, h2⟩ := mem_allPockets.1 hm
    rw [hwpocket, hpocket c p h1 h2, if_pos rfl]
    unfold Pocket.resettledAfter
    split
    · rfl
    · rfl
  have htick : w.tick = s.tick := by
    rw [hw]
    rfl
  have hread (d p : Nat) (h1 : 1 ≤ p) (h2 : p ≤ 64) :
      w.pocket d p = if d = c then (s.pocket d p).resettledAfter (s.cab c) else s.pocket d p := by
    rw [hwpocket, hpocket d p h1 h2]
  unfold State.passAfter
  cases hr : s.restartsAfter c with
  | true =>
    have hchanges := w.restartBoundary_changes c
    simp only [if_true]
    refine ⟨fun d => ?_, fun d p h1 h2 => (hchanges.pocket d p).trans (hread d p h1 h2), ?_⟩
    · rw [State.restartBoundary_cab, hwself, hnext, htick]
      split
      next => rfl
      next hd => rw [hwcab, if_neg hd, hcab, if_neg hd]
    · unfold State.ChangesCabs at hchanges
      rw [hchanges, hw]
  | false =>
    simp only [Bool.false_eq_true, if_false, Option.or_none]
    refine ⟨fun d => ?_, hread, hw⟩
    rw [hwcab]
    split
    next => rfl
    next hd => rw [hcab, if_neg hd]

end Sys2Proof.Machine

/-! O12: passes and learning. -/

namespace Sys2Proof.Machine

open State

/-! ### The last count of a pass -/

theorem State.counted_refuses (s : State) (c p count d : Nat) : (s.counted c p count).refuses d = s.refuses d := by
  funext q
  unfold State.refuses State.counted
  rw [State.pocket_setPocket]
  split
  next hk =>
    rw [State.pocket, State.pocket, hk]
    rfl
  next => rfl

theorem State.counted_keepsEnabled (s : State) (c p count : Nat) : s.KeepsEnabled (s.counted c p count) := .setPocket rfl

theorem State.counted_pocketsIn (s : State) (c p count : Nat) (x : PocketState) :
    (s.counted c p count).pocketsIn c x = s.pocketsIn c x := by
  unfold State.pocketsIn
  refine congrArg List.length (List.filter_congr fun q _ => ?_)
  unfold State.counted
  rw [State.pocket_setPocket]
  split
  next hk => rw [State.pocket, State.pocket, hk]
  next => rfl

theorem State.pocketsIn_eq (s : State) (c : Nat) (x : PocketState) :
    s.pocketsIn c x = (((List.range 64).map (· + 1)).filter (fun k => decide ((s.pocket c k).state = x))).length := rfl

/-- The state at the end of a pass: its last count taken, and its report made (R34). -/
def State.passDone (s : State) (c p count : Nat) (told : List Report) : State :=
  { s.counted c p count with svp := s.svp.handed s.now told }

/-- R34: the last count of a pass, of a pocket without a baseline, ends it. -/
theorem State.takeCount_last {s : State} {c p cycles : Nat} {told : List Report} (hp : (s.pocket c p).enabled = true)
    (hlast : ∀ k, p < k → k ≤ 64 → (s.pocket c k).enabled = false) (hb : (s.pocket c p).baseline = none)
    (h : ((s.cab c).pass = some (.auto p) ∧ told = []) ∨
      ∃ handle measured, (s.cab c).pass = some (.single handle p measured) ∧
        told = [.scanDone c handle (measured + 1) (s.pocketsIn c .fault)]) :
    s.takeCount c cycles = (s.passDone c p (countOf cycles) told).endPass c := by
  have hcount := State.countPocket_unlearned hb (countOf cycles)
  have hnone : (s.counted c p (countOf cycles)).nextEnabled c p = none :=
    State.nextEnabled_eq_none fun k h1 h2 => (s.counted_keepsEnabled c p _ c k).trans (hlast k h1 h2)
  unfold State.takeCount
  rcases h with ⟨hpass, rfl⟩ | ⟨handle, measured, hpass, rfl⟩
  · rw [hpass]
    dsimp only
    rw [if_pos hp, hcount]
    unfold State.passOn
    dsimp only
    rw [hnone]
    rfl
  · rw [hpass]
    dsimp only
    rw [if_pos hp, hcount]
    unfold State.passOn
    dsimp only
    rw [hnone]
    dsimp only
    rw [State.counted_pocketsIn]
    rfl

/-- R34, R35: the pass that follows, by the held learning pass and the restart. -/
theorem State.passAfter_eq {s : State} {c f : Nat} (hf : s.nextEnabled c 0 = some f) :
    s.passAfter c = match (s.cab c).heldLearn, (((s.cab c).heldLearn.map (·.pockets)).getD []).dropWhile (s.refuses c) with
      | some l, q :: rest =>
        some (.learn l.handle q rest [] ((((s.cab c).heldLearn.map (·.pockets)).getD []).takeWhile (s.refuses c)) [])
      | _, _ => if s.restartsAfter c then some (.auto f) else none := by
  unfold State.passAfter State.heldPass
  rw [hf]
  cases (s.cab c).heldLearn with
  | none => simp
  | some l =>
    simp only [Option.bind_some, Option.map_some, Option.getD_some]
    cases l.pockets.dropWhile (s.refuses c) with
    | nil => simp
    | cons q rest => simp

theorem State.heldReports_eq (s : State) (c : Nat) :
    s.heldReports c = match (s.cab c).heldLearn, (((s.cab c).heldLearn.map (·.pockets)).getD []).dropWhile (s.refuses c) with
      | some l, [] => [.learnDone c l.handle [] ((((s.cab c).heldLearn.map (·.pockets)).getD []).takeWhile (s.refuses c)) []]
      | _, _ => [] := by
  unfold State.heldReports
  cases (s.cab c).heldLearn with
  | none => rfl
  | some l =>
    simp only [Option.map_some, Option.getD_some]
    cases l.pockets.dropWhile (s.refuses c) with
    | nil => rfl
    | cons q rest => rfl

/-- What the last count of a pass leaves, seen from the state before it (R30, R34, R35). -/
theorem State.passDone_endPass {s : State} {c p f : Nat} (count : Nat) (told : List Report) (hp : 1 ≤ p ∧ p ≤ 64)
    (hf : s.nextEnabled c 0 = some f) :
    let t := (s.passDone c p count told).endPass c
    let new := (s.cab c).nextSettings
    (∀ d, t.cab d = if d = c then
      { settings := new, pendingSettings := none, heldLearn := none, pass := s.passAfter c
        boundary := if s.restartsAfter c then some (s.tick + new.interval)
          else if (s.cab c).pendingSettings.isSome && !s.autoRuns new then none else (s.cab c).boundary }
      else s.cab d) ∧
    (∀ x, 1 ≤ x → x ≤ 64 → t.pocket c x =
      (if x = p then { s.pocket c p with lastCount := some count } else s.pocket c x).resettledAfter (s.cab c)) ∧
    t = { s with psc := t.psc, svp := s.svp.handed s.now (told ++ s.heldReports c) } := by
  intro t new
  obtain ⟨hcab, hpocket, honly⟩ := (s.passDone c p count told).endPass_does c
  have hnext : (s.passDone c p count told).nextEnabled c 0 = s.nextEnabled c 0 := by
    unfold State.nextEnabled
    refine List.find?_congr fun k _ => ?_
    rw [show ((s.passDone c p count told).pocket c k).enabled = (s.pocket c k).enabled from s.counted_keepsEnabled c p count c k]
  have hrefuses : (s.passDone c p count told).refuses c = s.refuses c := s.counted_refuses c p count c
  have hruns (x : CabSettings) : (s.passDone c p count told).autoRuns x = s.autoRuns x := by
    have hmode : (s.svp.handed s.now told).mode = s.svp.mode := by rw [Svp.handed_only]
    unfold State.autoRuns State.running
    rw [show (s.passDone c p count told).svp.mode = s.svp.mode from hmode]
  have hrestarts : (s.passDone c p count told).restartsAfter c = s.restartsAfter c := by
    unfold State.restartsAfter
    rw [hruns, hruns]
    rfl
  have hpass : (s.passDone c p count told).passAfter c = s.passAfter c := by
    rw [State.passAfter_eq (hnext.trans hf), State.passAfter_eq hf, hrefuses, hrestarts]
    rfl
  have hreports : (s.passDone c p count told).heldReports c = s.heldReports c := by
    rw [State.heldReports_eq, State.heldReports_eq, hrefuses]
    rfl
  refine ⟨fun d => ?_, fun x h1 h2 => ?_, ?_⟩
  · rw [hcab, hpass, hrestarts, hruns]
    rfl
  · rw [hpocket c x h1 h2, if_pos rfl]
    refine congrArg (fun r => Pocket.resettledAfter r (s.cab c)) ?_
    refine (State.pocket_setPocket s c p c x _).trans (if_congr ?_ rfl rfl)
    rw [pocketKey_inj hp ⟨h1, h2⟩]
    exact ⟨fun h => h.2, fun h => ⟨rfl, h⟩⟩
  · rw [show t = _ from honly, hreports, Svp.handed_append]
    rfl

/-! ### The pocket that a learning pass measures -/

theorem State.setPocket_others (s : State) {c p : Nat} (hp : 1 ≤ p ∧ p ≤ 64) (r : Pocket) (d q : Nat) (h1 : 1 ≤ q) (h2 : q ≤ 64)
    (h : ¬ (d = c ∧ q = p)) : (s.setPocket c p r).pocket d q = s.pocket d q := by
  rw [State.pocket_setPocket, if_neg (mt (pocketKey_inj hp ⟨h1, h2⟩).1 h)]

theorem State.learnt_failed {s : State} {c p cycles : Nat} (h : ¬ learns cycles = true) :
    s.learnt c p cycles = s.setPocket c p { s.pocket c p with lastCount := some (countOf cycles) } := if_neg h

theorem State.learnt_off {s : State} {c p cycles : Nat} (h : learns cycles = true) (he : (s.pocket c p).enabled = false) :
    s.learnt c p cycles = s.setPocket c p ((s.pocket c p).taught (s.cab c).settings cycles) := by
  refine (if_pos h).trans ?_
  rw [Pocket.learned_off he, State.noticeIfFree, State.pocket_setPocket_self, if_neg (by simp [Pocket.free, Pocket.taught, he])]

theorem State.learnt_on {s : State} {c p cycles : Nat} (h : learns cycles = true) (he : (s.pocket c p).enabled = true)
    (hs : (s.pocket c p).state = .empty ∨ (s.pocket c p).state = .fault) :
    s.learnt c p cycles =
      (s.setPocket c p { (s.pocket c p).taught (s.cab c).settings cycles with sensed := .absent, state := .empty }).noticeIfFree c p := by
  refine (if_pos h).trans ?_
  rw [Pocket.learned_on he hs]

/-- R35: a learning pass that goes on, where nothing waits for the pocket measured. -/
theorem execLearnMeasurement_sets {s : State} {c p q handle cycles : Nat} {r : Pocket} {more learned refused failed : List Nat}
    (h1 : 1 ≤ c) (h2 : c ≤ 12) (hp : 1 ≤ p ∧ p ≤ 64)
    (h : (s.cab c).pass = some (.learn handle p (q :: more) learned refused failed)) (hlearn : (s.pocket c p).learnable = true)
    (hq : 1 ≤ q ∧ q ≤ 64 ∧ q ≠ p ∧ (s.pocket c q).learnable = true) (hv : s.quiet.learnt c p cycles = s.quiet.setPocket c p r) :
    ∃ t, exec (.learnMeasurement c cycles) s = .next t ∧ t.pocket c p = r ∧
      t.cab c = { s.cab c with pass := some (.learn handle q more (if learns cycles then learned ++ [p] else learned) refused
        (if learns cycles then failed else failed ++ [p])) } ∧
      ((∀ d, d ≠ c → t.cab d = s.cab d) ∧ ∀ d x, 1 ≤ x → x ≤ 64 → ¬ (d = c ∧ x = p) → t.pocket d x = s.pocket d x) ∧
      t = { s with psc := t.psc, svp := s.svpReported [], lines := Lines.quiet } := by
  obtain ⟨hq1, hq2, hqp, hqlearn⟩ := hq
  have hothers := State.setPocket_others s.quiet (c := c) hp r
  have hvq : ((s.quiet.setPocket c p r).pocket c q).learnable = true := by
    rw [hothers c q hq1 hq2 fun hx => hqp hx.2]
    exact hqlearn
  refine ⟨_, execLearnMeasurement_goes h1 h2 h hlearn hv rfl rfl hvq, State.pocket_setPocket_self s.quiet c p r,
    (State.cab_setCab (s.quiet.setPocket c p r) c c _).trans (if_pos rfl), ⟨fun d hd => ?_, hothers⟩, rfl⟩
  exact (State.cab_setCab (s.quiet.setPocket c p r) c d _).trans (if_neg hd)

/-- R35, R67: a learning pass that goes on, where put-away may take the pocket measured. -/
theorem execLearnMeasurement_assigns {s : State} {c p q handle cycles : Nat} {r : Pocket} {more learned refused failed : List Nat}
    (h1 : 1 ≤ c) (h2 : c ≤ 12) (hp : 1 ≤ p ∧ p ≤ 64) (hs : tableSorted s.psc.pockets = true)
    (h : (s.cab c).pass = some (.learn handle p (q :: more) learned refused failed)) (hlearn : (s.pocket c p).learnable = true)
    (hq : 1 ≤ q ∧ q ≤ 64 ∧ q ≠ p ∧ (s.pocket c q).learnable = true) (hoff : (s.pocket c q).enabled = false)
    (hv : s.quiet.learnt c p cycles = (s.quiet.setPocket c p r).noticeIfFree c p) :
    ∃ t, exec (.learnMeasurement c cycles) s = .next t ∧
      t.cab c = { s.cab c with pass := some (.learn handle q more (if learns cycles then learned ++ [p] else learned) refused
        (if learns cycles then failed else failed ++ [p])) } ∧
      (t.pocket c p = r ∨ (t.pocket c p = { r with state := .expectPlace } ∧
        ∃ n a, tget t.isc.assigned n = some a ∧ a.cabinet = c ∧ a.pocket = p)) ∧
      (∀ d x, 1 ≤ x → x ≤ 64 → ¬ (d = c ∧ x = p) → (s.pocket d x).PassedBy (t.pocket d x)) ∧
      t = { s with psc := t.psc, isc := t.isc, svp := s.svpReported [], lines := Lines.quiet } := by
  obtain ⟨hq1, hq2, hqp, hqlearn⟩ := hq
  let u := s.quiet.setPocket c p r
  have hself : u.pocket c p = r := State.pocket_setPocket_self s.quiet c p r
  have hothers := State.setPocket_others s.quiet (c := c) hp r
  have hassigns := State.noticeIfFree_assigns (s := u) (tableSorted_dset _ _ hs) c p
  have hput := (State.PutsAway.refl u).noticeIfFree c p
  have hsvp : (u.noticeIfFree c p).svp = s.svp := State.noticeIfFree_svp u c p
  have hcabs : (u.noticeIfFree c p).psc.cabinets = s.psc.cabinets := congrArg (fun t => t.psc.cabinets) hput.2
  have huq : u.pocket c q = s.pocket c q := hothers c q hq1 hq2 fun hx => hqp hx.2
  have hvq : ((u.noticeIfFree c p).pocket c q).learnable = true := by
    rcases hassigns.pocket c q hq1 hq2 with hk | ⟨-, hon, -⟩
    · rw [hk, huq]
      exact hqlearn
    · rw [huq, hoff] at hon
      cases hon
  refine ⟨_, execLearnMeasurement_goes h1 h2 h hlearn hv hcabs hsvp hvq,
    (State.cab_setCab (u.noticeIfFree c p) c c _).trans (if_pos rfl), ?_, fun d x hx1 hx2 hx => ?_, ?_⟩
  · have hpocket := hassigns.pocket c p hp.1 hp.2
    rw [hself] at hpocket
    rcases hpocket with hk | ⟨-, -, hk, hassigned⟩
    · exact .inl hk
    · exact .inr ⟨hk, hassigned⟩
  · have hpocket := hassigns.pocket d x hx1 hx2
    rw [show u.pocket d x = s.pocket d x from hothers d x hx1 hx2 hx] at hpocket
    rcases hpocket with hk | ⟨he, -, hk, -⟩
    · exact .inl hk
    · exact .inr ⟨he, hk⟩
  · have hv2 := hput.2
    change ({ (u.noticeIfFree c p).setCab c _ with svp := _ } : State) = _
    generalize u.noticeIfFree c p = v at *
    rw [hv2]
    rfl

/-- R35: a learning pass that ends, with nothing held or waiting, and nothing that waits for the pocket measured. -/
theorem execLearnMeasurement_finishes {s : State} {c p handle cycles : Nat} {r : Pocket} {rest learned refused failed : List Nat}
    (h1 : 1 ≤ c) (h2 : c ≤ 12) (hp : 1 ≤ p ∧ p ≤ 64) (h : (s.cab c).pass = some (.learn handle p rest learned refused failed))
    (hpending : (s.cab c).pendingSettings = none) (hheld : (s.cab c).heldLearn = none)
    (hrest : ∀ q ∈ rest, 1 ≤ q ∧ q ≤ 64 ∧ q ≠ p ∧ (s.pocket c q).learnable = false) (hlearn : (s.pocket c p).learnable = true)
    (hv : s.quiet.learnt c p cycles = s.quiet.setPocket c p r) :
    ∃ t, exec (.learnMeasurement c cycles) s = .next t ∧ t.cab c = { s.cab c with pass := none } ∧
      (∀ d, d ≠ c → t.cab d = s.cab d) ∧ t.pocket c p = r ∧
      (∀ d q, 1 ≤ q → q ≤ 64 → ¬ (d = c ∧ q = p) → t.pocket d q = s.pocket d q) ∧
      t = { s with
        psc := t.psc, lines := Lines.quiet
        svp := s.svpReported [.learnDone c handle (if learns cycles then learned ++ [p] else learned) (refused ++ rest)
          (if learns cycles then failed else failed ++ [p])] } := by
  have hothers := State.setPocket_others s.quiet (c := c) hp r
  have hvrest : ∀ q ∈ rest, ((s.quiet.setPocket c p r).pocket c q).learnable = false := fun q hq => by
    obtain ⟨hq1, hq2, hqp, hqlearn⟩ := hrest q hq
    rw [hothers c q hq1 hq2 fun hx => hqp hx.2]
    exact hqlearn
  have hcab (u : State) := State.cab_setCab u c
  refine ⟨_, execLearnMeasurement_ends h1 h2 h hpending hheld hlearn hv rfl rfl rfl hvrest, (hcab _ c _).trans (if_pos rfl),
    fun d hd => (hcab _ d _).trans ((if_neg hd).trans ((hcab _ d _).trans (if_neg hd))), State.pocket_setPocket_self s.quiet c p r,
    hothers, rfl⟩

/-- Settles O12, by the boundary, the count of a learning pass, and the end of a pass. -/
theorem boundaryStartsPassAndLearningSetsBaseline : Obligations.BoundaryStartsPassAndLearningSetsBaseline := by
  refine ⟨fun s c p b h1 h2 hb hdue hp1 hp64 hp hgap => ?_,
    fun s c p handle cycles rest learned refused failed h1 h2 hp1 hp64 hs hpass hne hrest hlearn => ?_,
    fun s c p q handle measured cycles h1 h2 hp1 hpq hq hpass hp hnext hgap => ?_,
    fun s c p f cycles told h1 h2 hp1 hp64 hp hlast hf1 hf64 hf hgap hb => ?_,
    fun s c p handle cycles rest learned refused failed h1 h2 hp1 hp64 hpass hpending hheld hrest hlearn hcase => ?_⟩
  · exact execScanInterval_due h1 h2 hb hdue (State.nextEnabled_eq_some hp1 hp64 hp fun k hk => hgap k hk)
  · cases rest with
    | nil => exact absurd rfl hne
    | cons q more =>
      have hq := hrest q List.mem_cons_self
      intro goesOn taken othersStand
      refine ⟨fun hcycles => ?_, fun h0 hmax hoff => ?_, fun h0 hmax hon hstate => ⟨fun hwaiting => ?_, fun hroff => ?_⟩⟩
      · have hl : ¬ learns cycles = true := by
          rw [learns_iff]
          omega
        obtain ⟨t, hexec, hpocket, hcab, hothers, ht⟩ := execLearnMeasurement_sets h1 h2 ⟨hp1, hp64⟩ hpass hlearn hq
          (State.learnt_failed (s := s.quiet) hl)
        rw [if_neg hl, if_neg hl] at hcab
        exact ⟨t, hexec, hpocket, ⟨q, more, rfl, hcab⟩, hothers, ht⟩
      · have hl : learns cycles = true := learns_iff.2 ⟨h0, hmax⟩
        obtain ⟨t, hexec, hpocket, hcab, hothers, ht⟩ := execLearnMeasurement_sets h1 h2 ⟨hp1, hp64⟩ hpass hlearn hq
          (State.learnt_off (s := s.quiet) hl hoff)
        rw [if_pos hl, if_pos hl] at hcab
        exact ⟨t, hexec, hpocket, ⟨q, more, rfl, hcab⟩, hothers, ht⟩
      · have hl : learns cycles = true := learns_iff.2 ⟨h0, hmax⟩
        obtain ⟨t, hexec, hpocket, hcab, hothers, ht⟩ := execLearnMeasurement_sets h1 h2 ⟨hp1, hp64⟩ hpass hlearn hq
          ((State.learnt_on (s := s.quiet) hl hon hstate).trans
            (State.noticeIfFree_none (s := s.quiet.setPocket c p _) hwaiting c p))
        rw [if_pos hl, if_pos hl] at hcab
        exact ⟨t, hexec, hpocket, ⟨q, more, rfl, hcab⟩, hothers, ht⟩
      · have hl : learns cycles = true := learns_iff.2 ⟨h0, hmax⟩
        obtain ⟨t, hexec, hcab, hpocket, hothers, ht⟩ := execLearnMeasurement_assigns h1 h2 ⟨hp1, hp64⟩ hs hpass hlearn hq
          (hroff q List.mem_cons_self) (State.learnt_on (s := s.quiet) hl hon hstate)
        rw [if_pos hl, if_pos hl] at hcab
        exact ⟨t, hexec, ⟨q, more, rfl, hcab⟩, hpocket, hothers, ht⟩
  · exact execPocketCount_single cycles h1 h2 hpq hq hpass hp hnext hgap
  · intro faults hpass k new runs restart lists skipped next unlearned
    have hnext : s.nextEnabled c 0 = some f := State.nextEnabled_eq_some hf1 hf64 hf fun k hk => hgap k hk
    have hruns (x : CabSettings) : s.autoRuns x = runs x := by
      rw [Bool.eq_iff_iff, State.autoRuns_iff]
      unfold State.AutoRuns
      exact decide_eq_true_iff.symm
    have hrestart : s.restartsAfter c = restart := by
      unfold State.restartsAfter
      rw [hruns, hruns]
      rfl
    have hafter : s.passAfter c = next := by
      rw [State.passAfter_eq hnext, hrestart]
      rfl
    have hreports : s.heldReports c = unlearned := State.heldReports_eq s c
    obtain ⟨hcab, hpocket, honly⟩ := State.passDone_endPass (s := s.quiet) (countOf cycles) told ⟨hp1, hp64⟩ hnext
    have htake := State.takeCount_last (s := s.quiet) (cycles := cycles) hp hlast hb hpass
    have hexec : exec (.pocketCount c cycles) s = event (fun s => s.takeCount c cycles) s := cabinetEvent_eq h1 h2 _ s
    refine ⟨_, hexec.trans (event_psc (rs := told ++ unlearned) htake ?_), ?_, fun d hd => (hcab d).trans (if_neg hd),
      fun x hx1 hx2 => (hpocket x hx1 hx2).trans rfl, rfl⟩
    · rw [← hreports]
      exact honly
    · refine (hcab c).trans ((if_pos rfl).trans ?_)
      rw [show s.quiet.passAfter c = next from hafter, show s.quiet.restartsAfter c = restart from hrestart,
        show s.quiet.autoRuns (s.quiet.cab c).nextSettings = runs new from hruns _]
      rfl
  · intro taken
    have hfinish {r : Pocket} (hv : s.quiet.learnt c p cycles = s.quiet.setPocket c p r) :=
      execLearnMeasurement_finishes h1 h2 ⟨hp1, hp64⟩ hpass hpending hheld hrest hlearn hv
    by_cases hl : learns cycles = true
    · rw [show taken = true from hl]
      simp only [hl, if_true] at hfinish ⊢
      by_cases hon : (s.pocket c p).enabled = true
      · obtain ⟨hstate, hwaiting⟩ := hcase.resolve_left (ne_false_of_eq_true hon)
        obtain ⟨t, hexec, hcab, hcabs, hpocket, hothers, ht⟩ := hfinish ((State.learnt_on (s := s.quiet) hl hon hstate).trans
          (State.noticeIfFree_none (s := s.quiet.setPocket c p _) hwaiting c p))
        exact ⟨t, hexec, hcab, hcabs, hpocket.trans (by rw [if_pos hon, if_pos hon]; rfl), hothers, ht⟩
      · obtain ⟨t, hexec, hcab, hcabs, hpocket, hothers, ht⟩ := hfinish (State.learnt_off (s := s.quiet) hl (Bool.eq_false_iff.2 hon))
        exact ⟨t, hexec, hcab, hcabs, hpocket.trans (by rw [if_neg hon, if_neg hon]; rfl), hothers, ht⟩
    · have htaken : taken = false := Bool.eq_false_iff.2 hl
      have := hfinish (State.learnt_failed (s := s.quiet) hl)
      rw [if_neg hl, if_neg hl] at this
      rw [htaken]
      exact this

end Sys2Proof.Machine


/-! The service order of requests (R49), the place of a request in it, and the request numbers (R48). O22. -/

namespace Sys2Proof.Machine

/-! ### The service order -/

/-- The four keys of the service order, in their order; an absent needed-by counts as later than any present one (R49). -/
def Request.rank (r : Request) : ℕ ×ₗ ℕ ×ₗ ℕ ×ₗ ℕ :=
  toLex (r.prio.rank, toLex (r.neededBy.getD 4294967296, toLex (r.enqTick, r.entry)))

theorem Request.before_eq (a b : Request) : a.before b =
    if a.prio.rank ≠ b.prio.rank then decide (a.prio.rank < b.prio.rank)
    else if a.neededBy.getD 4294967296 ≠ b.neededBy.getD 4294967296 then
      decide (a.neededBy.getD 4294967296 < b.neededBy.getD 4294967296)
    else if a.enqTick ≠ b.enqTick then decide (a.enqTick < b.enqTick)
    else decide (a.entry < b.entry) := by
  obtain ⟨_, _, _, _, _, _ | _, _, _, _, _, _, _, _⟩ := a <;> obtain ⟨_, _, _, _, _, _ | _, _, _, _, _, _, _, _⟩ := b <;> rfl

theorem Request.before_iff (a b : Request) : a.before b = true ↔ a.rank < b.rank := by
  rw [Request.before_eq]
  simp only [Request.rank, Prod.Lex.toLex_lt_toLex]
  split_ifs <;> simp_all

theorem Request.not_before_iff (a b : Request) : b.before a = false ↔ a.rank ≤ b.rank := by
  rw [Bool.eq_false_iff, ne_eq, Request.before_iff, not_lt]

theorem Isc.inOrder_iff (i : Isc) : i.InOrder ↔ i.queue.Pairwise (fun a b => a.rank ≤ b.rank) := by
  simp only [Isc.InOrder, Request.not_before_iff]

/-! ### The place of a request -/

theorem placeRequest_perm (q : List Request) (r : Request) : (placeRequest q r).Perm (r :: q) := by
  induction q with
  | nil => exact List.Perm.refl _
  | cons x rest ih =>
    unfold placeRequest
    split
    · exact List.Perm.refl _
    · exact (ih.cons x).trans (List.Perm.swap r x rest)

theorem mem_placeRequest {q : List Request} {r x : Request} : x ∈ placeRequest q r ↔ x = r ∨ x ∈ q := by
  rw [(placeRequest_perm q r).mem_iff, List.mem_cons]

/-- R49: a request takes its place behind the requests equal to it. -/
theorem placeRequest_pairwise {q : List Request} (r : Request) (h : q.Pairwise (fun a b => a.rank ≤ b.rank)) :
    (placeRequest q r).Pairwise (fun a b => a.rank ≤ b.rank) := by
  induction q with
  | nil => exact List.pairwise_singleton _ r
  | cons x rest ih =>
    obtain ⟨hx, hrest⟩ := List.pairwise_cons.1 h
    unfold placeRequest
    split
    next hbefore =>
      have hrx := ((r.before_iff x).1 hbefore).le
      refine List.pairwise_cons.2 ⟨fun y hy => ?_, h⟩
      rcases List.mem_cons.1 hy with rfl | hy
      · exact hrx
      · exact hrx.trans (hx y hy)
    next hbefore =>
      refine List.pairwise_cons.2 ⟨fun y hy => ?_, ih hrest⟩
      rcases mem_placeRequest.1 hy with rfl | hy
      · exact (Request.not_before_iff x y).1 (Bool.eq_false_iff.2 hbefore)
      · exact hx y hy

theorem placeRequest_splits (q : List Request) (r : Request) :
    ∃ front back, placeRequest q r = front ++ r :: back ∧ q = front ++ back ∧ ∀ x ∈ front, r.before x = false := by
  induction q with
  | nil => exact ⟨[], [], rfl, rfl, by simp⟩
  | cons x rest ih =>
    unfold placeRequest
    split
    · exact ⟨[], x :: rest, rfl, rfl, by simp⟩
    next hbefore =>
      obtain ⟨front, back, hplace, hq, hfront⟩ := ih
      refine ⟨x :: front, back, by rw [hplace]; rfl, by rw [hq]; rfl, fun y hy => ?_⟩
      rcases List.mem_cons.1 hy with rfl | hy
      · exact Bool.eq_false_iff.2 hbefore
      · exact hfront y hy

/-! ### Request numbers -/

theorem State.numberInUse_iff (s : State) (k : Nat) :
    s.numberInUse k = true ↔ (∃ r ∈ s.isc.queue, r.number = k) ∨ ∃ e ∈ s.trg.insts, e.2.link = some k := by
  simp [State.numberInUse]

/-- The number that lies a distance on from a number, cyclically from 255 to 1 (R48). -/
def numberAfter (next d : Nat) : Nat := (next - 1 + d) % 255 + 1

theorem numberAfter_zero {next : Nat} (h1 : 1 ≤ next) (h2 : next ≤ 255) : numberAfter next 0 = next := by
  unfold numberAfter
  omega

theorem numberAfter_succ {next : Nat} (h1 : 1 ≤ next) (h2 : next ≤ 255) (d : Nat) :
    numberAfter next (d + 1) = numberAfter (cyclicNext 255 next) d := by
  unfold numberAfter cyclicNext
  split <;> omega

theorem numberAfter_bounds (next d : Nat) : 1 ≤ numberAfter next d ∧ numberAfter next d ≤ 255 := by
  unfold numberAfter
  omega

/-- Every number from 1 to 255 lies less than 255 on from any of them. -/
theorem exists_numberAfter {next k : Nat} (h1 : 1 ≤ next) (h2 : next ≤ 255) (hk1 : 1 ≤ k) (hk2 : k ≤ 255) :
    ∃ d < 255, k = numberAfter next d := by
  unfold numberAfter
  by_cases h : next ≤ k
  · exact ⟨k - next, by omega, by omega⟩
  · exact ⟨k + 255 - next, by omega, by omega⟩

/-- R48: the search finds the first number not in use. -/
theorem State.freeNumber_eq_some_iff (s : State) (fuel : Nat) {next k : Nat} (h1 : 1 ≤ next) (h2 : next ≤ 255) :
    s.freeNumber fuel next = some k ↔
      ∃ d < fuel, k = numberAfter next d ∧ s.numberInUse k = false ∧ ∀ e < d, s.numberInUse (numberAfter next e) = true := by
  induction fuel generalizing next with
  | zero => simp [State.freeNumber]
  | succ fuel ih =>
    obtain ⟨hn1, hn2⟩ := cyclicNext_bounds (top := 255) (by omega) next
    have hzero := numberAfter_zero h1 h2
    have hsucc := numberAfter_succ h1 h2
    unfold State.freeNumber
    split
    next hused =>
      rw [ih hn1 hn2]
      constructor
      · rintro ⟨d, hd, hk, hfree, hbefore⟩
        refine ⟨d + 1, by omega, by rw [hsucc, hk], hfree, fun e he => ?_⟩
        cases e with
        | zero => rw [hzero, hused]
        | succ e => rw [hsucc, hbefore e (by omega)]
      · rintro ⟨d, hd, hk, hfree, hbefore⟩
        cases d with
        | zero =>
          rw [hk, hzero, hused] at hfree
          cases hfree
        | succ d =>
          exact ⟨d, by omega, by rw [hk, hsucc], hfree, fun e he => by rw [← hsucc, hbefore (e + 1) (by omega)]⟩
    next hfree =>
      rw [Bool.not_eq_true] at hfree
      constructor
      · rintro hk
        cases hk
        exact ⟨0, by omega, hzero.symm, hfree, by simp⟩
      · rintro ⟨d, -, hk, -, hbefore⟩
        cases d with
        | zero => rw [hk, hzero]
        | succ d =>
          have := hbefore 0 (by omega)
          rw [hzero, hfree] at this
          cases this

/-- R48: no number is found only where all that are tried are in use. -/
theorem State.freeNumber_eq_none_iff (s : State) (fuel : Nat) {next : Nat} (h1 : 1 ≤ next) (h2 : next ≤ 255) :
    s.freeNumber fuel next = none ↔ ∀ d < fuel, s.numberInUse (numberAfter next d) = true := by
  induction fuel generalizing next with
  | zero => simp [State.freeNumber]
  | succ fuel ih =>
    obtain ⟨hn1, hn2⟩ := cyclicNext_bounds (top := 255) (by omega) next
    have hzero := numberAfter_zero h1 h2
    unfold State.freeNumber
    split
    next hused =>
      rw [ih hn1 hn2]
      simp only [← numberAfter_succ h1 h2]
      refine ⟨fun h d hd => ?_, fun h d hd => h (d + 1) (by omega)⟩
      cases d with
      | zero => rw [hzero, hused]
      | succ d => exact h d (by omega)
    next hfree =>
      refine ⟨nofun, fun h => absurd ?_ hfree⟩
      rw [← hzero]
      exact h 0 (by omega)

/-- A number found free is one that no live request bears. -/
theorem State.freeNumber_spec {s : State} {fuel next k : Nat} (h1 : 1 ≤ next) (h2 : next ≤ 255)
    (h : s.freeNumber fuel next = some k) : 1 ≤ k ∧ k ≤ 255 ∧ ∀ r ∈ s.isc.queue, r.number ≠ k := by
  obtain ⟨d, -, hk, hfree, -⟩ := (s.freeNumber_eq_some_iff fuel h1 h2).1 h
  obtain ⟨hk1, hk2⟩ := numberAfter_bounds next d
  refine ⟨hk ▸ hk1, hk ▸ hk2, fun r hr hrk => ?_⟩
  rw [(s.numberInUse_iff k).2 (.inl ⟨r, hr, hrk⟩)] at hfree
  cases hfree

/-- Settles O22, by the search for a number and the search for a place. -/
theorem requestNumberAndPlace : Obligations.RequestNumberAndPlace := by
  refine ⟨fun s next h1 h2 => ?_, fun q r => ⟨placeRequest_perm q r, fun h => ?_, placeRequest_splits q r⟩⟩
  · intro inUse nth
    have hused (k : Nat) : s.numberInUse k = true ↔ inUse k := s.numberInUse_iff k
    have hfree (k : Nat) : s.numberInUse k = false ↔ ¬ inUse k := by rw [← Bool.not_eq_true, hused]
    refine ⟨fun k => ?_, ?_⟩
    · rw [s.freeNumber_eq_some_iff 255 h1 h2]
      simp only [hfree, hused]
      exact Iff.rfl
    · rw [s.freeNumber_eq_none_iff 255 h1 h2]
      simp only [hused]
      refine ⟨fun h k hk1 hk2 => ?_, fun h d _ => ?_⟩
      · obtain ⟨d, hd, rfl⟩ := exists_numberAfter h1 h2 hk1 hk2
        exact h d hd
      · obtain ⟨hd1, hd2⟩ := numberAfter_bounds next d
        exact h _ hd1 hd2
  · simp only [Request.not_before_iff] at h ⊢
    exact placeRequest_pairwise r h

end Sys2Proof.Machine

/-! The request queue (R47 to R49) through the operations of put-away and of issue. -/

namespace Sys2Proof.Machine

/-- ISC within its ranges and its queue in service order: what every step keeps (R47, R48, R49, R74). -/
def Isc.Sound (i : Isc) : Prop := i.Within ∧ i.InOrder

/-- A live request that stands where this one would: the same number, the same place in the service order. -/
def Isc.Holds (i : Isc) (r : Request) : Prop := ∃ x ∈ i.queue, x.number = r.number ∧ x.rank = r.rank

/-- A request read from the queue, rewritten with its number and the keys of its place. -/
theorem Isc.Holds.of_request {s : State} {k : Nat} {r q : Request} (h : s.request k = some r) (hn : q.number = r.number)
    (hk : q.rank = r.rank) : s.isc.Holds q := ⟨r, List.mem_of_find?_eq_some h, hn.symm, hk.symm⟩

/-- R61: the release of an instance leaves ISC as it was. -/
theorem State.releaseTool_isc (s : State) (n : Nat) (redirected : Bool) : (s.releaseTool n redirected).isc = s.isc := by
  unfold State.releaseTool
  split
  · rfl
  · cases redirected <;> dsimp only <;> split
    all_goals simp [apply_ite State.isc, State.move, State.transition]

/-- R54: what the queue admits has a place and a number that is free. -/
theorem State.admits_some {s : State} {k : Nat} (h : s.admits = some k) :
    s.isc.queue.length < 64 ∧ s.freeNumber 255 s.isc.nextNumber = some k := by
  unfold State.admits at h
  split at h
  next hroom => exact ⟨hroom, h⟩
  next => cases h

namespace Isc.Sound

variable {s t : State}

/-! ### Rewriting the queue -/

theorem foldl {α : Type} {f : State → α → State} (k : ∀ (u : State) (x : α), u.isc.Sound → (f u x).isc.Sound) (xs : List α)
    (h : s.isc.Sound) : (xs.foldl f s).isc.Sound := by
  induction xs generalizing s with
  | nil => exact h
  | cons x xs ih => exact ih (k s x h)

/-- The queue is replaced. -/
theorem setQueue (h : s.isc.Sound) {q : List Request} (hlength : q.length ≤ 64) (hnodup : (q.map (·.number)).Nodup)
    (hrange : ∀ r ∈ q, 1 ≤ r.number ∧ r.number ≤ 255) (horder : q.Pairwise (fun a b => a.rank ≤ b.rank)) :
    (s.setQueue q).isc.Sound := by
  obtain ⟨⟨-, -, -, hrest⟩, -⟩ := h
  exact ⟨⟨hlength, hnodup, hrange, hrest⟩, (Isc.inOrder_iff _).2 horder⟩

/-- Requests that leave keep the order of the others. -/
theorem sublist (h : s.isc.Sound) {q : List Request} (hq : q.Sublist s.isc.queue) : (s.setQueue q).isc.Sound := by
  have hs := h
  obtain ⟨⟨hlength, hnodup, hrange, -⟩, horder⟩ := h
  exact hs.setQueue (hq.length_le.trans hlength) (hnodup.sublist (hq.map _)) (fun r hr => hrange r (hq.subset hr))
    (((Isc.inOrder_iff _).1 horder).sublist hq)

/-- A live request rewritten where it stands keeps its place. -/
theorem putRequest (h : s.isc.Sound) {r : Request} (hr : s.isc.Holds r) : (s.putRequest r).isc.Sound := by
  have hs := h
  obtain ⟨⟨hlength, hnodup, hrange, -⟩, horder⟩ := h
  obtain ⟨y, hy, hyn, hyk⟩ := hr
  have hsame : ∀ x ∈ s.isc.queue, (if x.number = r.number then r else x).number = x.number ∧
      (if x.number = r.number then r else x).rank = x.rank := by
    intro x hx
    split
    next hxr =>
      have hxy : x = y := List.inj_on_of_nodup_map hnodup hx hy (hxr.trans hyn.symm)
      exact ⟨hxr.symm, hxy ▸ hyk.symm⟩
    next => exact ⟨rfl, rfl⟩
  have hnumbers : (s.isc.queue.map (fun x => if x.number = r.number then r else x)).map (·.number) = s.isc.queue.map (·.number) := by
    rw [List.map_map]
    exact List.map_congr_left fun x hx => (hsame x hx).1
  refine hs.setQueue ((List.length_map _).trans_le hlength) (hnumbers ▸ hnodup) (fun x hx => ?_) ?_
  · obtain ⟨w, hw, rfl⟩ := List.mem_map.1 hx
    rw [(hsame w hw).1]
    exact hrange w hw
  · rw [List.pairwise_map]
    refine ((Isc.inOrder_iff _).1 horder).imp_of_mem fun ha hb hab => ?_
    rw [(hsame _ ha).2, (hsame _ hb).2]
    exact hab

/-- A request takes its place in a queue that has room for it and does not use its number. -/
theorem placeIn (h : s.isc.Sound) {q : List Request} {r : Request} (hq : q.Sublist s.isc.queue) (hlength : q.length < 64)
    (hrange : 1 ≤ r.number ∧ r.number ≤ 255) (hfree : ∀ x ∈ q, x.number ≠ r.number) :
    (s.setQueue (placeRequest q r)).isc.Sound := by
  have hs := h
  have hperm := placeRequest_perm q r
  obtain ⟨⟨-, hnodup, hbounds, -⟩, horder⟩ := h
  refine hs.setQueue ?_ ?_ (fun x hx => ?_) (placeRequest_pairwise r (((Isc.inOrder_iff _).1 horder).sublist hq))
  · rw [hperm.length_eq]
    exact hlength
  · rw [(hperm.map _).nodup_iff, List.map_cons, List.nodup_cons]
    refine ⟨fun hmem => ?_, hnodup.sublist (hq.map _)⟩
    obtain ⟨x, hx, hxr⟩ := List.mem_map.1 hmem
    exact hfree x hx hxr
  · rcases mem_placeRequest.1 hx with rfl | hx
    · exact hrange
    · exact hbounds x (hq.subset hx)

/-- R53: a live request rewritten takes its new place. -/
theorem replaceRequest (h : s.isc.Sound) {r q : Request} (hr : r ∈ s.isc.queue) (hq : q.number = r.number) :
    (s.replaceRequest q).isc.Sound := by
  obtain ⟨⟨hlength, -, hrange, -⟩, -⟩ := id h
  refine h.placeIn List.filter_sublist ?_ (hq ▸ hrange r hr) (fun x hx => by simpa using (List.mem_filter.1 hx).2)
  refine lt_of_lt_of_le ?_ hlength
  exact List.length_filter_lt_length_iff_exists.2 ⟨r, hr, by simp [hq]⟩

/-! ### What leaves the queue as it was -/

theorem handsOff (h : s.isc.Sound) (k : s.HandsOff t) : t.isc.Sound := k.isc_eq ▸ h

theorem putsAway (h : s.isc.Sound) (k : s.PutsAway t) : t.isc.Sound := by
  rw [k.2]
  exact h

theorem runsClock (h : s.isc.Sound) (k : s.RunsClock t) : t.isc.Sound := by
  obtain ⟨-, hsub, -, ht⟩ := k
  rw [ht]
  exact h.sublist hsub

theorem tryPutaway (h : s.isc.Sound) (n : Nat) : (s.tryPutaway n).isc.Sound := h.putsAway ((State.PutsAway.refl s).tryPutaway n)

theorem noticeIfFree (h : s.isc.Sound) (c p : Nat) : (s.noticeIfFree c p).isc.Sound :=
  h.putsAway ((State.PutsAway.refl s).noticeIfFree c p)

theorem leavePutaway (h : s.isc.Sound) (n : Nat) : (s.leavePutaway n).isc.Sound :=
  h.putsAway ((State.PutsAway.refl s).leavePutaway n)

theorem settleMarks (h : s.isc.Sound) (n : Nat) : (s.settleMarks n).isc.Sound := State.settleMarks_isc s n ▸ h

theorem endRequest (h : s.isc.Sound) (r : Request) (state : ReqState) (cause : ReqCause) : (s.endRequest r state cause).isc.Sound :=
  h.sublist List.filter_sublist

theorem changeRequest (h : s.isc.Sound) {r : Request} (hr : s.isc.Holds r) (cause : ReqCause) : (s.changeRequest r cause).isc.Sound :=
  h.putRequest hr

/-! ### Allocation -/

theorem enterWaiting (h : s.isc.Sound) {r : Request} (hr : s.isc.Holds r) (cause : ReqCause) : (s.enterWaiting r cause).isc.Sound := by
  rw [State.enterWaiting_isc]
  exact h.putRequest (r := { r with state := .waitingStock }) hr

theorem reserve (h : s.isc.Sound) {r : Request} (hr : s.isc.Holds r) (n : Nat) (i : InstRec) : (s.reserve r n i).isc.Sound := by
  have hreserving : (s.reserving r n i).isc.Sound := h.putRequest (r := r.reservedFor n s.tick) hr
  rcases i.loc.pocket_or with ⟨c, p, hl⟩ | hl
  · obtain ⟨q, hq⟩ := s.reserve_pocket r n c p hl
    rw [hq]
    exact hreserving
  · obtain ⟨q, hq⟩ := s.reserve_bench r n hl
    rw [hq]
    exact hreserving.leavePutaway n

theorem allocateFor (h : s.isc.Sound) (number : Nat) : (s.allocateFor number).isc.Sound := by
  rcases s.allocateFor_cases number with hs | ⟨r, hr, hs⟩ | ⟨r, _, n, i, hr, -, -, -, hs⟩ <;> rw [hs]
  · exact h
  · exact h.enterWaiting (.of_request hr rfl rfl) _
  · exact h.reserve (.of_request hr rfl rfl) n i

theorem allocationPass (h : s.isc.Sound) : s.allocationPass.isc.Sound :=
  State.allocationPass_keeps (P := fun u => u.isc.Sound) (fun _ number hu => hu.allocateFor number) h

theorem announce (h : s.isc.Sound) (n : Nat) : (s.announce n).isc.Sound := by
  unfold State.announce
  split
  · exact h
  · split
    · exact h.allocationPass
    · exact h.allocationPass.tryPutaway n
    · exact h.tryPutaway n

/-! ### Release -/

theorem releaseTool (h : s.isc.Sound) (n : Nat) (redirected : Bool) : (s.releaseTool n redirected).isc.Sound :=
  State.releaseTool_isc s n redirected ▸ h

theorem afterRelease (h : s.isc.Sound) (n : Nat) : (s.afterRelease n).isc.Sound := h.allocationPass.tryPutaway n

theorem releaseToQueue (h : s.isc.Sound) (n : Nat) (redirected : Bool) : (s.releaseToQueue n redirected).isc.Sound := by
  unfold State.releaseToQueue
  split
  · exact h.releaseTool n redirected
  next r hr =>
    obtain ⟨k, -, hk⟩ := Option.bind_eq_some_iff.1 hr
    refine (h.releaseTool n redirected).changeRequest ?_ _
    rw [State.releaseTool_isc]
    exact .of_request hk rfl rfl

theorem pickTimesOut (h : s.isc.Sound) {r : Request} (hr : s.isc.Holds r) (n : Nat) : (s.pickTimesOut r n).isc.Sound := by
  have hreleased := h.releaseTool n true
  have hheld : (s.releaseTool n true).isc.Holds r := by rwa [State.releaseTool_isc]
  have hmissed : ((s.releaseTool n true).changeRequest r.missed .pickTimeout).isc.Sound :=
    hreleased.changeRequest (r := r.missed) hheld _
  unfold State.pickTimesOut
  refine Isc.Sound.afterRelease ?_ n
  dsimp only
  split
  · exact hreleased.endRequest _ _ _
  · split <;> exact hmissed

theorem firePick (h : s.isc.Sound) (number : Nat) : (s.firePick number).isc.Sound := by
  unfold State.firePick
  split
  next r hr =>
    split
    · split
      · exact h.pickTimesOut (.of_request hr rfl rfl) _
      · exact h
    · exact h
  next => exact h

/-! ### Requests entering -/

theorem enterAs (h : s.isc.Sound) (q : NewRequest) {k : Nat} (hk : s.admits = some k) : (s.enterAs q k).isc.Sound := by
  obtain ⟨hroom, hfree⟩ := State.admits_some hk
  obtain ⟨⟨-, -, -, h1, h2, -⟩, -⟩ := id h
  obtain ⟨hk1, hk2, hunused⟩ := State.freeNumber_spec h1 h2 hfree
  obtain ⟨⟨hlength, hnodup, hrange, -, -, hsettings⟩, horder⟩ :=
    h.placeIn (r := s.entrant q k) (List.Sublist.refl _) hroom ⟨hk1, hk2⟩ hunused
  obtain ⟨hn1, hn2⟩ := cyclicNext_bounds (top := 255) (by decide) k
  exact ⟨⟨hlength, hnodup, hrange, hn1, hn2, hsettings⟩, horder⟩

theorem evict (h : s.isc.Sound) (r : Request) : (s.evict r).isc.Sound := by
  unfold State.evict
  dsimp only
  split
  · exact (h.releaseTool _ true).endRequest _ _ _
  · exact h.endRequest _ _ _

theorem enter (h : s.isc.Sound) (q : NewRequest) : (s.enter q).1.isc.Sound := by
  unfold State.enter
  split
  next hk => exact (h.enterAs q hk).allocationPass
  next =>
    split
    next v _ _ =>
      have hsettled (u : State) (hu : u.isc.Sound) : (match v.state, v.tool with
          | .reserved, some n => u.afterRelease n
          | _, _ => u.allocationPass).isc.Sound := by
        split
        · exact hu.afterRelease _
        · exact hu.allocationPass
      dsimp only
      split
      next hk => exact hsettled _ ((h.evict v).enterAs q hk)
      next => exact hsettled _ (h.evict v)
    next => exact h

theorem merge (h : s.isc.Sound) {r : Request} (hr : r ∈ s.isc.queue) (q : NewRequest) : (s.merge r q).isc.Sound := by
  have hmerged (x : Request) (hx : x.number = r.number) : ((s.replaceRequest x).report (.requestState x .merged)).isc.Sound :=
    h.replaceRequest hr hx
  unfold State.merge
  dsimp only
  split
  · split
    · refine Isc.Sound.afterRelease (Isc.Sound.releaseToQueue ?_ _ true) _
      exact hmerged _ rfl
    · exact hmerged _ rfl
  · split
    · refine Isc.Sound.allocationPass ?_
      exact hmerged _ rfl
    · exact hmerged _ rfl

theorem autoRequest (h : s.isc.Sound) (st place type : Nat) (prio : Priority) : (s.autoRequest st place type prio).isc.Sound := by
  unfold State.autoRequest
  dsimp only
  split
  next hr => exact h.merge (List.mem_of_find?_eq_some hr) _
  next =>
    have hentered := h.enter { origin := .auto, type := type, dest := .station st place, prio := prio, neededBy := none, minLife := none }
    split <;> next he => rwa [he] at hentered

/-! ### The end of a request -/

theorem loseRequest (h : s.isc.Sound) (k : Option Nat) : (s.loseRequest k).isc.Sound := by
  unfold State.loseRequest
  split
  · exact h.endRequest _ _ _
  · exact h

theorem deliverRequest (h : s.isc.Sound) (k : Option Nat) : (s.deliverRequest k).isc.Sound := by
  unfold State.deliverRequest
  split
  · exact h.endRequest _ _ _
  · exact h

theorem cancelRequest (h : s.isc.Sound) (r : Request) (cause : ReqCause) : (s.cancelRequest r cause).isc.Sound := by
  unfold State.cancelRequest
  split
  · exact ((h.releaseTool _ true).endRequest _ _ _).afterRelease _
  · exact h.endRequest _ _ _

theorem putawayTimesOut (h : s.isc.Sound) (n : Nat) (a : Assignment) : (s.putawayTimesOut n a).isc.Sound := by
  have hvacated : ((s.forgetAssignment n).vacateAssigned a).isc.Sound :=
    h.putsAway (((State.PutsAway.refl s).forgetAssignment n).vacateAssigned a)
  unfold State.putawayTimesOut
  dsimp only
  split
  · exact hvacated
  · exact leavePutaway (s := State.move _ _ _ _) hvacated n

theorem firePutaway (h : s.isc.Sound) (n : Nat) : (s.firePutaway n).isc.Sound := by
  unfold State.firePutaway
  split
  · split
    · exact h.putawayTimesOut n _
    · exact h
  · exact h

theorem afterPick (h : s.isc.Sound) (r : Request) (n : Nat) : (s.afterPick r n).isc.Sound := by
  unfold State.afterPick
  split
  · exact h.handsOff ((State.HandsOff.refl s).supplyData _ _ n)
  · exact h.endRequest _ _ _

end Isc.Sound

end Sys2Proof.Machine

/-! The request queue (R47 to R49) through tool life, the crib and the messages of the stations. -/

namespace Sys2Proof.Machine

/-! ### Passes leave ISC as it was -/

theorem State.learnOn_isc (s : State) (c handle : Nat) (pockets learned refused failed : List Nat) :
    (s.learnOn c handle pockets learned refused failed).isc = s.isc := by
  unfold State.learnOn
  dsimp only
  split <;> rfl

theorem State.startAuto_isc (s : State) (c : Nat) : (s.startAuto c).isc = s.isc := by
  unfold State.startAuto
  split <;> rfl

theorem State.restartBoundary_isc (s : State) (c : Nat) : (s.restartBoundary c).isc = s.isc := by
  unfold State.restartBoundary
  rw [State.startAuto_isc]
  rfl

theorem State.takeSettings_isc (s : State) (c : Nat) (new : CabSettings) : (s.takeSettings c new).1.isc = s.isc := by
  unfold State.takeSettings
  dsimp only
  rw [State.setCab_isc]
  exact State.foldl_keeps (π := State.isc) (fun _ _ => State.setPocket_isc ..) _ s

theorem State.settleWaiting_isc (s : State) (c : Nat) : (s.settleWaiting c).1.isc = s.isc := by
  unfold State.settleWaiting
  split
  · exact s.takeSettings_isc c _
  · rfl

theorem State.startHeld_isc (s : State) (c : Nat) : (s.startHeld c).isc = s.isc := by
  unfold State.startHeld
  split
  · exact State.learnOn_isc _ _ _ _ _ _ _
  · rfl

theorem State.endPass_isc (s : State) (c : Nat) : (s.endPass c).isc = s.isc := by
  have hheld : (((s.passEnded c).settleWaiting c).1.startHeld c).isc = s.isc :=
    (State.startHeld_isc _ c).trans (State.settleWaiting_isc _ c)
  rw [State.endPass_eq]
  split
  · exact (State.restartBoundary_isc _ c).trans hheld
  · exact hheld

theorem State.passOn_isc (s : State) (c : Nat) (pass : Pass) : (s.passOn c pass).isc = s.isc := by
  unfold State.passOn
  split
  · split
    · rfl
    · exact s.endPass_isc c
  · split
    · rfl
    · exact State.endPass_isc _ c
  · rfl

theorem State.startSingle_isc (s : State) (c handle : Nat) : (s.startSingle c handle).isc = s.isc := by
  unfold State.startSingle
  split <;> rfl

theorem State.fireBoundary_isc (s : State) (c : Nat) : (s.fireBoundary c).isc = s.isc := by
  unfold State.fireBoundary
  dsimp only
  split
  · split
    · exact State.startAuto_isc _ c
    · rfl
  · rfl

theorem State.beginBoundaries_isc (s : State) (c : Nat) : (s.beginBoundaries c).isc = s.isc := by
  unfold State.beginBoundaries
  split
  · exact s.restartBoundary_isc c
  · rfl

/-- R63: the request that a memory names is live. -/
theorem State.latePickRequest_holds {s : State} {memory : Option LatePick} {n : Nat} {r : Request}
    (h : s.latePickRequest memory n = some r) : s.isc.Holds r := by
  unfold State.latePickRequest at h
  split at h
  · split at h
    · split at h
      next hk =>
        split at h
        · cases h
          exact .of_request hk rfl rfl
        · cases h
      next => cases h
    · cases h
  · cases h

namespace Isc.Sound

variable {s : State}

/-! ### Life -/

theorem afterRetired (h : s.isc.Sound) (n : Nat) : (s.afterRetired n).isc.Sound :=
  ((h.leavePutaway n).settleMarks n).handsOff ((State.HandsOff.refl _).gone n)

theorem spentAtLimit (h : s.isc.Sound) (n : Nat) : (s.spentAtLimit n).isc.Sound := by
  unfold State.spentAtLimit
  split
  · refine Isc.Sound.afterRetired ?_ n
    exact h
  · exact h

theorem lifeZero (h : s.isc.Sound) (n : Nat) : (s.lifeZero n).isc.Sound := by
  unfold State.lifeZero
  split <;> exact h

theorem prefetch (h : s.isc.Sound) (r : InstRec) : (s.prefetch r).isc.Sound := by
  unfold State.prefetch
  split
  · split
    · exact h.autoRequest _ _ _ _
    · exact h
  · exact h

theorem warnTest (h : s.isc.Sound) (n : Nat) : (s.warnTest n).isc.Sound := by
  unfold State.warnTest
  split
  · exact h
  · split
    · exact h
    · split
      · refine Isc.Sound.prefetch ?_ _
        exact h
      · exact h

theorem replacement (h : s.isc.Sound) (r : InstRec) : (s.replacement r).isc.Sound := by
  unfold State.replacement
  split
  next st place _ _ =>
    have hauto := h.autoRequest st place r.type .urgent
    dsimp only
    split <;> split <;> assumption
  next => exact h

theorem spentActions (h : s.isc.Sound) (n : Nat) (r : InstRec) (units : Nat) (late : Bool) :
    (s.spentActions n r units late).isc.Sound := by
  have htold (x : Option (Nat × Nat)) : (match x with
      | some (st, place) => ((s.setTool n { r with spent := true }).askBlocked st place n).startTxn st
      | none => s.setTool n { r with spent := true }).isc.Sound := by
    rcases x with _ | ⟨st, place⟩
    · exact h
    · refine Isc.Sound.handsOff (s := s.setTool n { r with spent := true }) ?_ (((State.HandsOff.refl _).askBlocked st place n).startTxn st)
      exact h
  exact Isc.Sound.replacement (s := State.report _ _) (htold _) r

theorem zeroTest (h : s.isc.Sound) (n units : Nat) (late : Bool) : (s.zeroTest n units late).isc.Sound := by
  unfold State.zeroTest
  split
  · exact h
  · split
    · exact h
    · split
      · split
        · exact h
        · exact h.spentActions _ _ _ _
      · split
        · exact h
        · exact h.spentActions _ _ _ _
      · exact h.lifeZero n
      · exact (h.lifeZero n).announce n
      · exact (h.lifeZero n).announce n
      · exact (((h.releaseToQueue n false).allocationPass).lifeZero n).tryPutaway n
      · split
        · exact h.spentAtLimit n
        · exact h
      · exact h

theorem modTool (h : s.isc.Sound) (n : Nat) (f : InstRec → InstRec) : (s.modTool n f).isc.Sound := by
  unfold State.modTool
  split <;> exact h

theorem applyUsage (h : s.isc.Sound) (n units : Nat) (late : Bool) : (s.applyUsage n units late).isc.Sound :=
  ((h.modTool n _).warnTest n).zeroTest n units late

theorem usage (h : s.isc.Sound) (st n place units : Nat) : (s.usage st n place units).1.isc.Sound := by
  unfold State.usage
  split
  · exact h
  · split
    · exact h
    · split
      · exact h
      · split_ifs
        · exact h.applyUsage _ _ _
        · exact h.applyUsage _ _ _
        · exact h
        · exact h

theorem verifiedLife (h : s.isc.Sound) (n : Nat) : (s.verifiedLife n).isc.Sound := by
  unfold State.verifiedLife
  split
  · exact h
  · split
    · exact h
    · split_ifs
      · exact h.replacement _
      · exact h.prefetch _
      · exact h

/-! ### Events of a pocket -/

/-- R59, R63: a request that is ISSUED, and what its pick brings about. -/
theorem picked (h : s.isc.Sound) {r : Request} (hr : s.isc.Holds r) (cause : ReqCause) (n c p : Nat) :
    (((s.changeRequest r cause).afterPick r n).noticeIfFree c p).isc.Sound :=
  ((h.changeRequest hr cause).afterPick r n).noticeIfFree c p

theorem pick (h : s.isc.Sound) (c p n : Nat) : (s.pick c p n).isc.Sound := by
  unfold State.pick
  split
  · exact h
  · split
    · exact h
    next r hr =>
      obtain ⟨k, -, hk⟩ := Option.bind_eq_some_iff.1 hr
      refine Isc.Sound.picked (r := { r with state := .issued, reserveTick := none }) ?_ ?_ _ _ _ _
      · exact h
      · exact Isc.Holds.of_request hk rfl rfl

theorem latePick (h : s.isc.Sound) (c p n : Nat) {r : Request} (hr : s.isc.Holds r) : (s.latePick c p n r).isc.Sound := by
  unfold State.latePick
  split
  · exact h
  · refine Isc.Sound.picked (r := { r with state := .issued, tool := some n, reserveTick := none }) ?_ ?_ _ _ _ _
    · exact h
    · exact hr

theorem unsanctioned (h : s.isc.Sound) (c p n : Nat) : (s.unsanctioned c p n).isc.Sound := by
  unfold State.unsanctioned
  dsimp only
  refine Isc.Sound.noticeIfFree ?_ c p
  split <;> exact h

theorem removed (h : s.isc.Sound) (c p : Nat) : (s.removed c p).isc.Sound := by
  have hcleared : (s.clearLatePick (pocketKey c p)).isc.Sound := h
  unfold State.removed
  dsimp only
  split
  · exact hcleared.pick c p _
  · split
    next hr => exact hcleared.latePick c p _ (State.latePickRequest_holds hr)
    next => exact hcleared.unsanctioned c p _
  · refine Isc.Sound.noticeIfFree ?_ c p
    exact hcleared
  · refine Isc.Sound.noticeIfFree ?_ c p
    exact hcleared
  · exact hcleared

theorem place (h : s.isc.Sound) (c p n : Nat) : (s.place c p n).isc.Sound := by
  unfold State.place
  split
  · exact h
  · split
    · refine Isc.Sound.announce (Isc.Sound.leavePutaway ?_ n) n
      exact h
    · refine Isc.Sound.tryPutaway ?_ n
      exact h

theorem placed (h : s.isc.Sound) (c p : Nat) : (s.placed c p).isc.Sound := by
  unfold State.placed
  split
  · split
    · exact h.place c p _
    · exact h
  · exact h
  · exact h

theorem enterFault (h : s.isc.Sound) (c p count : Nat) : (s.enterFault c p count).isc.Sound := by
  unfold State.enterFault
  dsimp only
  split
  · exact h
  · split
    next n _ =>
      refine Isc.Sound.afterRelease ?_ n
      exact h.releaseToQueue n true
    next => exact h
  · split
    next n _ => exact Isc.Sound.tryPutaway (s := s.forgetAssignment n) h n
    next => exact h
  · exact h

theorem recover (h : s.isc.Sound) (c p : Nat) : (s.recover c p).isc.Sound := by
  unfold State.recover
  dsimp only
  split
  · refine Isc.Sound.allocationPass ?_
    exact h
  · refine Isc.Sound.noticeIfFree ?_ c p
    exact h

theorem presenceEvent (h : s.isc.Sound) (c p : Nat) (e : Presence) : (s.presenceEvent c p e).isc.Sound := by
  unfold State.presenceEvent
  dsimp only
  split
  · refine Isc.Sound.placed ?_ c p
    exact h
  · refine Isc.Sound.removed ?_ c p
    exact h

theorem debounce (h : s.isc.Sound) (c p : Nat) (seen : Option Presence) : (s.debounce c p seen).isc.Sound := by
  unfold State.debounce
  dsimp only
  split
  · split
    · exact h
    · split_ifs
      · exact h
      · exact h.presenceEvent c p _
      · exact h
  · exact h

theorem inRangeCount (h : s.isc.Sound) (c p : Nat) : (s.inRangeCount c p).isc.Sound := by
  unfold State.inRangeCount
  dsimp only
  split
  · exact h.recover c p
  · exact h

theorem countPocket (h : s.isc.Sound) (c p count : Nat) : (s.countPocket c p count).isc.Sound := by
  have hcounted : (s.setPocket c p { s.pocket c p with lastCount := some count }).isc.Sound := h
  unfold State.countPocket
  dsimp only
  split
  · exact hcounted
  · split
    · exact hcounted
    · exact hcounted.enterFault c p count
  · split
    · exact hcounted.inRangeCount c p
    · exact hcounted.debounce c p _
  · split
    · exact hcounted.inRangeCount c p
    · exact hcounted.debounce c p _
  · split
    · exact hcounted.inRangeCount c p
    · exact hcounted.debounce c p _

theorem takeCount (h : s.isc.Sound) (c cycles : Nat) : (s.takeCount c cycles).isc.Sound := by
  unfold State.takeCount
  split
  · split
    · rw [State.passOn_isc]
      exact h.countPocket c _ _
    · rw [State.passOn_isc]
      exact h
  · split
    · rw [State.passOn_isc]
      exact h.countPocket c _ _
    · rw [State.passOn_isc]
      exact h
  · exact h

theorem takeLearn (h : s.isc.Sound) (c cycles : Nat) : (s.takeLearn c cycles).isc.Sound := by
  have hwalked (u : State) (hu : u.isc.Sound) :
      (if (u.cab c).pass.isNone then u.endPass c else u).isc.Sound := by
    split
    · rw [State.endPass_isc]
      exact hu
    · exact hu
  have hlearned (p : Nat) (r : Pocket) : ((s.setPocket c p r).noticeIfFree c p).isc.Sound :=
    Isc.Sound.noticeIfFree (s := s.setPocket c p r) h c p
  unfold State.takeLearn
  split
  · refine hwalked _ ?_
    split_ifs <;> rw [State.learnOn_isc]
    · exact h
    · exact h
    · exact hlearned _ _
  · exact h

theorem departPocket (h : s.isc.Sound) (l : Location) (n : Nat) (cause : MarkCause) : (s.departPocket l n cause).isc.Sound :=
  h.putsAway ((State.PutsAway.refl s).departPocket l n cause)

theorem dropPocket (h : s.isc.Sound) (l : Location) (n : Nat) : (s.dropPocket l n).isc.Sound := by
  unfold State.dropPocket
  split
  next c p =>
    split
    · exact Isc.Sound.noticeIfFree (s := s.setPocket c p _) h c p
    · exact h
  next => exact h

/-! ### The messages of the stations -/

theorem verify (h : s.isc.Sound) (n : Nat) : (s.verify n).isc.Sound := by
  unfold State.verify
  split
  · exact h
  · split
    · dsimp only
      split
      · split
        · refine Isc.Sound.verifiedLife (Isc.Sound.deliverRequest ?_ _) n
          exact h
        · exact h
      · exact h
    · exact h

theorem call (h : s.isc.Sound) (n type place : Nat) (prio : Priority) (offset minLife : Option Nat) :
    (s.call n type place prio offset minLife).1.isc.Sound := by
  unfold State.call
  split
  · exact h
  · split
    · exact h
    · dsimp only
      split
      next hr => exact h.merge (List.mem_of_find?_eq_some hr) _
      next => exact h.enter _

theorem callCancel (h : s.isc.Sound) (n place type : Nat) : (s.callCancel n place type).1.isc.Sound := by
  unfold State.callCancel
  split
  · exact h
  · split
    · exact h
    · split
      · exact h
      · exact h.cancelRequest _ _

theorem supplyData (h : s.isc.Sound) (n place tool : Nat) : (s.supplyData n place tool).isc.Sound :=
  h.handsOff ((State.HandsOff.refl s).supplyData n place tool)

theorem endTxn (h : s.isc.Sound) (n : Nat) (x : Txn) (state : TxnState) (code : TxnCode) : (s.endTxn n x state code).isc.Sound :=
  h.handsOff ((State.HandsOff.refl s).endTxn n x state code)

theorem leftIssued (h : s.isc.Sound) (n : Nat) : (s.leftIssued n).isc.Sound := h.handsOff ((State.HandsOff.refl s).leftIssued n)

theorem loaded (h : s.isc.Sound) (n tool place : Nat) : (s.loaded n tool place).1.isc.Sound := by
  unfold State.loaded
  split
  · exact h
  · split
    · exact h
    next r _ =>
      split
      · exact h
      · split
        · split <;> exact h
        · split <;> exact h
        · split
          · dsimp only
            generalize hw : State.verify _ _ = w
            have hverified : w.isc.Sound := by
              rw [← hw]
              refine Isc.Sound.verify ?_ tool
              split <;> exact h
            split
            · split
              · exact hverified.supplyData n place tool
              · exact hverified
            · exact hverified
          · exact h
        · exact h

theorem unload (h : s.isc.Sound) (n tool : Nat) (r : InstRec) (damaged : Bool) : (s.unload n tool r damaged).isc.Sound := by
  have hcancelled := h.handsOff ((((State.HandsOff.refl s).setOwed tool false).dropMagazine n tool).cancelAt n fun k => k.names tool)
  unfold State.unload
  dsimp only
  generalize hw : (if r.custody = Custody.issued then _ else _ : State) = w
  have hlost : w.isc.Sound := by
    rw [← hw]
    split
    · refine Isc.Sound.loseRequest (Isc.Sound.leftIssued ?_ tool) _
      exact hcancelled
    · exact hcancelled
  split
  · exact hlost.spentAtLimit tool
  · refine Isc.Sound.tryPutaway ?_ tool
    split <;> exact hlost

theorem unloaded (h : s.isc.Sound) (n tool place : Nat) (damaged : Bool) : (s.unloaded n tool place damaged).1.isc.Sound := by
  unfold State.unloaded
  split
  · exact h
  · split
    · exact h
    · split
      · split
        · exact h.unload _ _ _ _
        · exact h
      · split
        · exact h.unload _ _ _ _
        · exact h
      · split <;> exact h
      · exact h

theorem stored (h : s.isc.Sound) (n tool place generation : Nat) : (s.stored n tool place generation).1.isc.Sound := by
  unfold State.stored
  split
  · exact h
  next t _ =>
    split
    · dsimp only
      split_ifs
      · exact h.endTxn n t _ _
      · exact h.endTxn n t _ _
      · exact h.endTxn n t _ _
      · exact (Isc.Sound.endTxn (s := s.confirmEntry n tool place generation _) h n t _ _).verify tool
    · exact h

theorem refusedData (h : s.isc.Sound) (n tool place : Nat) (code : RefusedCode) : (s.refusedData n tool place code).1.isc.Sound := by
  unfold State.refusedData
  split
  · exact h
  next t _ =>
    split
    · split
      · cases code with
        | placeRange => exact h.endTxn n t _ _
        | placeOccupied => exact h.endTxn n t _ _
        | programActive =>
          dsimp only
          split
          · exact h.endTxn n t _ _
          · exact h.handsOff ((((State.HandsOff.refl s).putTxn n _).returnTxn n _ _).startTxn n)
      · exact h
    · exact h

theorem holdAck (h : s.isc.Sound) (n type : Nat) : (s.holdAck n type).1.isc.Sound := by
  unfold State.holdAck
  split
  · exact h
  · split
    · split
      · exact h.endTxn n _ _ _
      · exact h
    · exact h

theorem stationEffect (h : s.isc.Sound) (n : Nat) (m : StationMsg) : (s.stationEffect n m).1.isc.Sound := by
  unfold State.stationEffect
  dsimp only
  split
  · exact h
  · cases m with
    | call type place prio offset minLife => exact h.call n type place prio offset minLife
    | callCancel place type => exact h.callCancel n place type
    | usage tool place units => exact h.usage n tool place units
    | loaded tool place => exact h.loaded n tool place
    | unloaded tool place damaged => exact h.unloaded n tool place damaged
    | stored tool place generation => exact h.stored n tool place generation
    | refused tool place code => exact h.refusedData n tool place code
    | holdAck type => exact h.holdAck n type

theorem stationMessage (h : s.isc.Sound) (n message : Nat) (body : List Byte) : (s.stationMessage n message body).isc.Sound := by
  unfold State.stationMessage
  split
  · exact h
  · exact h.stationEffect n _

end Isc.Sound

end Sys2Proof.Machine

/-! The request queue (R47 to R49) through the operations of the station links (R132 to R155). -/

namespace Sys2Proof.Machine

/-- R155: what HOE hands to a link leaves ISC as it was. -/
theorem State.offer_isc {s t : State} {n : Nat} {b : List Byte} {o : BlockOrigin} (h : s.offer n = some (b, o, t)) :
    t.isc = s.isc := by
  unfold State.offer at h
  dsimp only at h
  split at h
  · cases h
    rfl
  · split at h
    · split at h <;> cases h
      exact ((State.HandsOff.refl s).putTxn n _).isc_eq
    · cases h

theorem State.resendOldest_isc {s t : State} {n : Nat} {o : Outgoing} (h : s.resendOldest n = some (t, o)) : t.isc = s.isc := by
  unfold State.resendOldest at h
  dsimp only at h
  split at h <;> cases h
  rfl

theorem State.sendNew_isc {s t : State} {n room : Nat} {o : Outgoing} (h : s.sendNew n room = some (t, o)) : t.isc = s.isc := by
  unfold State.sendNew at h
  split at h
  · split at h
    next ho =>
      cases h
      exact (State.offer_isc ho :)
    next => cases h
  · cases h

theorem State.sendEcho_isc {s t : State} {n : Nat} {o : Outgoing} (h : s.sendEcho n = some (t, o)) : t.isc = s.isc := by
  unfold State.sendEcho at h
  dsimp only at h
  split at h
  · split at h <;> cases h
    rfl
  · cases h

/-- R144: the choice of what a period sends leaves ISC as it was. -/
theorem State.chooseBlock_isc (s : State) (n : Nat) : (s.chooseBlock n).1.isc = s.isc := by
  unfold State.chooseBlock
  split
  · cases hr : s.resendOldest n with
    | some out => exact State.resendOldest_isc hr
    | none =>
      cases hn : s.sendNew n 4 with
      | some out => exact State.sendNew_isc hn
      | none => rfl
  · cases he : s.sendEcho n with
    | some out => exact State.sendEcho_isc he
    | none =>
      cases hr : s.resendOldest n with
      | some out => exact State.resendOldest_isc hr
      | none =>
        cases hn : s.sendNew n 1 with
        | some out => exact State.sendNew_isc hn
        | none => rfl
  · rfl

namespace Isc.Sound

variable {s : State}

/-! ### Changes of link state -/

theorem changeLink (h : s.isc.Sound) (n : Nat) (after : LinkState) (cause : LinkCause) (f : Link → Link) :
    (s.changeLink n after cause f).isc.Sound := by
  have hset (l : Link) (r : Report) : ((s.setLink n l).report r).isc.Sound := h
  unfold State.changeLink
  dsimp only
  split
  · exact (hset _ _).handsOff ((State.HandsOff.refl _).linkStopped n)
  · split
    · exact (hset _ _).handsOff ((State.HandsOff.refl _).linkStarted n)
    · exact h

theorem toSearching (h : s.isc.Sound) (n : Nat) (cause : LinkCause) : (s.toSearching n cause).isc.Sound := h.changeLink n _ _ _

theorem fireLinkSilence (h : s.isc.Sound) (n : Nat) : (s.fireLinkSilence n).isc.Sound := by
  unfold State.fireLinkSilence
  split
  · exact h.changeLink n _ _ _
  · exact h

theorem fireAcquire (h : s.isc.Sound) (n : Nat) : (s.fireAcquire n).isc.Sound := by
  unfold State.fireAcquire
  split
  · split
    · exact h.changeLink n _ _ _
    · exact h.changeLink n _ _ _
  · exact h

/-! ### Verdicts and failures -/

theorem densityTest (h : s.isc.Sound) (n : Nat) : (s.densityTest n).isc.Sound := by
  unfold State.densityTest
  split
  · exact h.toSearching n _
  · exact h

theorem failEntry (h : s.isc.Sound) (n : Nat) (e : Outstanding) : (s.failEntry n e).isc.Sound := by
  unfold State.failEntry
  split
  · exact h
  · dsimp only
    split
    · exact Isc.Sound.handsOff (s := s.modLink n _) h ((State.HandsOff.refl _).sendFailed n _)
    · exact h

theorem confirmOutstanding (h : s.isc.Sound) (n : Nat) (e : Outstanding) : (s.confirmEntry' n e).isc.Sound := by
  unfold State.confirmEntry'
  dsimp only
  split
  · exact Isc.Sound.handsOff (s := s.modLink n _) h ((State.HandsOff.refl _).delivered n _)
  · exact h

theorem settleVerdict (h : s.isc.Sound) (n position : Nat) (good : Bool) : (s.settleVerdict n position good).isc.Sound := by
  unfold State.settleVerdict
  split
  · split
    · exact h.confirmOutstanding n _
    · exact h.failEntry n _
  · exact h

theorem takeData (h : s.isc.Sound) (n : Nat) (b : List Byte) : (s.takeData n b).isc.Sound := by
  unfold State.takeData
  dsimp only
  split
  · exact h
  · refine Isc.Sound.stationMessage ?_ n _ _
    exact h

theorem takeChecked (h : s.isc.Sound) (n : Nat) (b : List Byte) : (s.takeChecked n b).isc.Sound := by
  have hkind {u : State} (hu : u.isc.Sound) : (match blockKindOf b with
      | .data => u.takeData n b
      | _ => u).isc.Sound := by
    split
    · exact hu.takeData n b
    · exact hu
  unfold State.takeChecked
  dsimp only
  refine hkind ?_
  split
  · exact h.settleVerdict n _ _
  · exact h

theorem judgeEcho (h : s.isc.Sound) (n : Nat) (b : List Byte) : (s.judgeEcho n b).1.isc.Sound := by
  unfold State.judgeEcho
  split
  · split_ifs
    · exact h.confirmOutstanding n _
    · exact h.failEntry n _
    · exact h
  · exact h

theorem takeEcho (h : s.isc.Sound) (n : Nat) (b : List Byte) : (s.takeEcho n b).isc.Sound := by
  have hreleased : (s.modLink n (fun l => { l with held := none })).isc.Sound := h
  have hkind {u : State} (hu : u.isc.Sound) : ((match blockKindOf b with
      | .fill => u.modLink n (fun l => l.addDensity true)
      | .data => u.modLink n (fun l => ({ l with held := some { bytes := b, echoed := none } } : Link).addDensity true)
      | .echo =>
        let out := u.judgeEcho n b
        out.1.modLink n (fun l =>
          (l.addVerdict { position := blockPosition b, good := out.2, kind := .echo }).addDensity out.2)).densityTest n).isc.Sound := by
    refine Isc.Sound.densityTest ?_ n
    split
    · exact hu
    · exact hu
    · exact hu.judgeEcho n b
  unfold State.takeEcho
  dsimp only
  refine hkind ?_
  split
  · split
    · split
      · exact hreleased.takeData n _
      · exact hreleased
    · exact h
  · exact h

/-! ### Incoming block positions -/

theorem brokenBlock (h : s.isc.Sound) (n position : Nat) (b : List Byte) : (s.brokenBlock n position b).isc.Sound := by
  have hbroken {u : State} (hu : u.isc.Sound) : (if (u.link n).state = .searching then u
      else
        let u := u.modLink n (fun l => ({ l with misses := l.misses + 1 } : Link).judgeBroken b position)
        if 3 ≤ (u.link n).misses then u.toSearching n .framingLost else u.densityTest n).isc.Sound := by
    have hjudged : (u.modLink n (fun l => ({ l with misses := l.misses + 1 } : Link).judgeBroken b position)).isc.Sound := hu
    split
    · exact hu
    · dsimp only
      split
      · exact hjudged.toSearching n _
      · exact hjudged.densityTest n
  unfold State.brokenBlock
  refine hbroken ?_
  split
  · exact h
  next k _ _ => exact Isc.Sound.densityTest (s := s.modLink n (fun l => { l.judgeHeld k false with held := none })) h n
  · exact h

theorem goodBlock (h : s.isc.Sound) (n : Nat) (b : List Byte) : (s.goodBlock n b).isc.Sound := by
  unfold State.goodBlock
  dsimp only
  split
  · exact h
  · have hset (l : Link) : (s.setLink n l).isc.Sound := h
    split
    · split
      · exact (hset _).changeLink n _ _ _
      · exact h
    · split
      · exact ((hset _).densityTest n).takeChecked n _
      · exact (hset _).densityTest n

theorem takeBlock (h : s.isc.Sound) (n : Nat) (b : List Byte) : (s.takeBlock n b).isc.Sound := by
  have hfired := h.fireAcquire n
  unfold State.takeBlock
  dsimp only
  generalize s.fireAcquire n = u at hfired ⊢
  have hnext : ((u.setLink n { u.link n with expected := (u.link n).expected.map (fun e => (e + 1) % 8) }).modLink n
      (fun l => l.seeing b)).isc.Sound := hfired
  generalize ((u.setLink n { u.link n with expected := (u.link n).expected.map (fun e => (e + 1) % 8) }).modLink n
      (fun l => l.seeing b)) = v at hnext ⊢
  have hcleared : (v.modLink n (fun l => { l with misses := 0 })).isc.Sound := hnext
  split
  · split
    · exact hcleared.takeEcho n b
    · exact hnext.goodBlock n b
  · exact hnext.brokenBlock n _ b

/-! ### The search -/

theorem align (h : s.isc.Sound) (n : Nat) : (s.align n).isc.Sound := by
  have hcut : (s.setLink n { s.link n with rx := (s.link n).rx.drop 96 }).isc.Sound := h
  unfold State.align
  dsimp only
  split
  · exact (hcut.changeLink n _ _ _).takeEcho n _
  · exact hcut.changeLink n _ _ _

theorem pump (h : s.isc.Sound) (n turns : Nat) : (s.pump n turns).isc.Sound := by
  induction turns generalizing s with
  | zero => exact h
  | succ k ih =>
    have hmod (f : Link → Link) : (s.modLink n f).isc.Sound := h
    unfold State.pump
    dsimp only
    split
    · exact h
    · split
      · exact h
      · split
        · exact h
        · refine ih ?_
          exact h
        · exact ih ((hmod _).align n)
    · split
      · exact h
      · refine ih (Isc.Sound.takeBlock ?_ n _)
        exact h

theorem linkBytes (h : s.isc.Sound) (n : Nat) (bytes : List Byte) : (s.linkBytes n bytes).isc.Sound := by
  unfold State.linkBytes
  split
  · exact h
  · have hreceived : (s.modLink n (fun l => { l with rx := l.rx ++ bytes, lastByte := some s.tick })).isc.Sound := h
    dsimp only
    split
    · exact (hreceived.changeLink n _ _ _).pump n _
    · exact hreceived.pump n _

/-! ### Sending, and the commands of the links -/

theorem fireOutstanding (h : s.isc.Sound) (n : Nat) : (s.fireOutstanding n).isc.Sound :=
  Isc.Sound.foldl (fun _ e hu => hu.failEntry n e) _ h

theorem fireEchoHeld (h : s.isc.Sound) (n : Nat) : (s.fireEchoHeld n).isc.Sound := by
  unfold State.fireEchoHeld
  split <;> exact h

theorem sendBlock (h : s.isc.Sound) (n : Nat) : (s.sendBlock n).isc.Sound := by
  have hchosen : (s.chooseBlock n).1.isc.Sound := State.chooseBlock_isc s n ▸ h
  exact hchosen

theorem firePeriod (h : s.isc.Sound) (n : Nat) : (s.firePeriod n).isc.Sound := by
  unfold State.firePeriod
  split
  · exact ((h.fireOutstanding n).fireEchoHeld n).sendBlock n
  · exact h

theorem setPolicy (h : s.isc.Sound) (n : Nat) (p : Policy) : (s.setPolicy n p).isc.Sound := by
  have hset : (s.modLink n (fun l => { l with policy := p })).isc.Sound := h
  unfold State.setPolicy
  dsimp only
  split
  · exact hset.changeLink n _ _ _
  · exact hset

theorem linkRestart (h : s.isc.Sound) (n : Nat) : (s.linkRestart n).1.isc.Sound := by
  unfold State.linkRestart
  split
  · exact h
  · exact h
  · exact h.toSearching n _

end Isc.Sound

end Sys2Proof.Machine

/-! The request queue (R47 to R49) through the operations of the heads (R77 to R105) and of the port (R187 to R203). -/

namespace Sys2Proof.Machine

/-! ### Measuring leaves ISC as it was -/

theorem State.sendSession_isc (s : State) (k : HeadId) : (s.sendSession k).isc = s.isc := by simp [State.sendSession]

theorem State.sendResult_isc (s : State) (k : HeadId) (r : Result) : (s.sendResult k r).isc = s.isc := by
  simp [State.sendResult]

theorem State.idleSession_isc (s : State) (k : HeadId) : (s.idleSession k).isc = s.isc := by
  simp [State.idleSession, State.sendSession_isc]

theorem State.setSession_isc (s : State) (k : HeadId) (x : Session) : (s.setSession k x).isc = s.isc := by
  simp [State.setSession]

theorem State.openSession_isc (s : State) (k : HeadId) (kind : SessionKind) (handle : Nat) :
    (s.openSession k kind handle).isc = s.isc := by
  simp [State.openSession, State.sendSession_isc, State.setSession_isc]

theorem State.testZero_isc (s : State) (k : HeadId) (cause : ZeroReason) : (s.testZero k cause).isc = s.isc := by
  unfold State.testZero
  dsimp only
  split
  · rfl
  · rw [State.report_isc, State.setHead_isc]

theorem State.setScaleTemp_isc (s : State) (k : HeadId) (t : Int) : (s.setScaleTemp k t).isc = s.isc := by
  simp [State.setScaleTemp, State.testZero_isc]

theorem State.setZero_isc (s : State) (k : HeadId) (x : Session) (cs : List (Nat × Capture)) (temp : Int) :
    (s.setZero k x cs temp).isc = s.isc := by
  simp [State.setZero, State.testZero_isc, State.idleSession_isc]

theorem State.judge_isc (s : State) (k : HeadId) (x : Session) (tool : Nat) (cs : List (Nat × Capture)) :
    (s.judge k x tool cs).isc = s.isc := by
  unfold State.judge
  split
  · rfl
  · split
    · rfl
    · simp [State.sendSession_isc, State.sendResult_isc, State.setSession_isc]

theorem State.captureLimit_isc (s : State) (k : HeadId) (x : Session) : (s.captureLimit k x).isc = s.isc := by
  unfold State.captureLimit
  dsimp only
  split
  · simp [State.sendSession_isc, State.sendResult_isc, State.setSession_isc]
  · simp [State.idleSession_isc, State.sendResult_isc]

theorem State.storeCapture_isc (s : State) (k : HeadId) (x : Session) (c : Capture) : (s.storeCapture k x c).isc = s.isc := by
  have hstored (x : Session) : ((s.setSession k x).sendSession k).isc = s.isc := by
    rw [State.sendSession_isc, State.setSession_isc]
  unfold State.storeCapture
  dsimp only
  split
  · exact hstored _
  · split
    · exact (State.judge_isc _ _ _ _ _).trans (hstored _)
    · exact (State.setZero_isc _ _ _ _ _).trans (hstored _)

theorem State.takeCapture_isc (s : State) (k : HeadId) (z x : BitVec 24) (spindle scaleTemp toolTemp : BitVec 16) (flags : Byte) :
    (s.takeCapture k z x spindle scaleTemp toolTemp flags).isc = s.isc := by
  have hframed (r : Head) (t : Int) : ((s.setHead k r).setScaleTemp k t).isc = s.isc := by
    rw [State.setScaleTemp_isc, State.setHead_isc]
  unfold State.takeCapture
  dsimp only
  split
  · exact State.setHead_isc ..
  · exact State.setHead_isc ..
  · split
    · exact (State.sendSession_isc _ _).trans (hframed _ _)
    · split
      · exact (State.sendSession_isc _ _).trans (hframed _ _)
      · split
        · exact (State.storeCapture_isc _ _ _ _).trans (hframed _ _)
        · exact (State.captureLimit_isc _ _ _).trans (hframed _ _)

theorem State.fireLapse_isc (s : State) (k : HeadId) : (s.fireLapse k).isc = s.isc := by
  unfold State.fireLapse
  split
  · exact State.testZero_isc ..
  · rfl

theorem State.fireHeadBytes_isc (s : State) (k : HeadId) : (s.fireHeadBytes k).isc = s.isc := by
  unfold State.fireHeadBytes
  split
  · exact State.setHead_isc ..
  · rfl

theorem State.removeZero_isc (s : State) (k : HeadId) : (s.removeZero k).isc = s.isc := by
  unfold State.removeZero
  dsimp only
  split
  · rw [State.report_isc, State.setHead_isc]
  · exact State.setHead_isc ..

theorem State.putHeadSettings_isc (s : State) (k : HeadId) (new : HeadSettings) : (s.putHeadSettings k new).isc = s.isc := by
  simp [State.putHeadSettings, State.testZero_isc]

theorem State.zeroHead_isc (s : State) (head : Nat) : (s.zeroHead head).1.isc = s.isc := by
  unfold State.zeroHead
  split
  · rfl
  · split_ifs
    · rfl
    · rfl
    · exact State.openSession_isc ..

/-- R47, R49: the reset state's queue is empty, its settings those of R74. -/
theorem Isc.reset_sound : Isc.reset.Sound :=
  ⟨⟨by decide, List.nodup_nil, by simp [Isc.reset], by decide, by decide, by decide, by decide, by decide, by decide, by decide⟩,
    List.Pairwise.nil⟩

namespace Isc.Sound

variable {s : State}

/-! ### Sessions that close -/

theorem closeMeasure (h : s.isc.Sound) (k : HeadId) (x : Session) (n : Nat) (cause : CloseCause) (acted : Option Verdict)
    (m : Move) (also : InstRec → InstRec) : (s.closeMeasure k x n cause acted m also).isc.Sound := by
  unfold State.closeMeasure
  split
  · rw [State.idleSession_isc]
    exact h
  · refine Isc.Sound.announce (Isc.Sound.settleMarks ?_ n) n
    rw [State.idleSession_isc]
    exact h

theorem abandonSession (h : s.isc.Sound) (k : HeadId) (cause : CloseCause) : (s.abandonSession k cause).isc.Sound := by
  unfold State.abandonSession
  split
  · exact h
  · split
    · exact h.closeMeasure k _ _ _ _ _ _
    · rw [State.report_isc, State.idleSession_isc]
      exact h

theorem testAvailable (h : s.isc.Sound) (k : HeadId) (before : Bool) : (s.testAvailable k before).isc.Sound := by
  have hreported (r : Report) : (s.report r).isc.Sound := h
  unfold State.testAvailable
  dsimp only
  split
  · exact h
  · split
    · exact h
    · exact (hreported _).abandonSession k _

theorem setHead (h : s.isc.Sound) (k : HeadId) (r : Head) : (s.setHead k r).isc.Sound := by
  rw [State.setHead_isc]
  exact h

theorem takeStatus (h : s.isc.Sound) (k : HeadId) (ready : Bool) (temp : Int) : (s.takeStatus k ready temp).isc.Sound := by
  unfold State.takeStatus
  dsimp only
  split
  · split
    · rw [State.setScaleTemp_isc]
      exact (h.setHead k _).testAvailable k _
    · rw [State.sendSession_isc, State.setScaleTemp_isc]
      exact (h.setHead k _).testAvailable k _
  · exact (h.setHead k _).testAvailable k _

theorem fireSilence (h : s.isc.Sound) (k : HeadId) : (s.fireSilence k).isc.Sound := by
  unfold State.fireSilence
  split
  · exact (h.setHead k _).testAvailable k _
  · exact h

theorem takeCapture (h : s.isc.Sound) (k : HeadId) (z x : BitVec 24) (spindle scaleTemp toolTemp : BitVec 16) (flags : Byte) :
    (s.takeCapture k z x spindle scaleTemp toolTemp flags).isc.Sound := by
  rw [State.takeCapture_isc]
  exact h

/-! ### Bytes of the head lines -/

theorem headPayload (h : s.isc.Sound) (k : HeadId) {p : List Byte} {t : State} (ht : s.headPayload k p = some t) : t.isc.Sound := by
  unfold State.headPayload at ht
  split at ht
  · split at ht
    · cases ht
      exact h.takeCapture k _ _ _ _ _ _
    · cases ht
  · split at ht
    · cases ht
      exact h.takeStatus k _ _
    · cases ht
      exact h.takeStatus k _ _
    · cases ht
  · cases ht

theorem headPump (h : s.isc.Sound) (k : HeadId) (turns : Nat) : (s.headPump k turns).isc.Sound := by
  induction turns generalizing s with
  | zero => exact h
  | succ m ih =>
    unfold State.headPump
    dsimp only
    split
    · exact h
    · exact ih (h.setHead k _)
    · exact ih (h.setHead k _)
    · split
      next ht => exact ih ((h.setHead k _).headPayload k ht)
      next => exact ih (h.setHead k _)

theorem headBytes (h : s.isc.Sound) (k : HeadId) (bs : List Byte) : (s.headBytes k bs).isc.Sound := by
  have hfired : (s.fireHeadBytes k).isc.Sound := State.fireHeadBytes_isc s k ▸ h
  unfold State.headBytes
  split
  · exact h
  · exact (hfired.setHead k _).headPump k _

theorem headFailed (h : s.isc.Sound) (k : HeadId) (frame : List Byte) : (s.headFailed k frame).isc.Sound :=
  (h.setHead k _).headPump k _

/-! ### The commands of presetting -/

theorem setCurve (h : s.isc.Sound) (head axis : Nat) (values : List Int) : (s.setCurve head axis values).1.isc.Sound := by
  have hloaded (k : HeadId) : (s.loadCurve k axis values).isc.Sound := by
    refine Isc.Sound.testAvailable ?_ k _
    rw [State.removeZero_isc]
    exact h.setHead k _
  unfold State.setCurve
  split
  · exact h
  · split
    · exact h
    · split
      · exact h
      · by_cases hlength : values.length = if axis = 0 then 17 else 9
        · rw [if_neg (not_not.2 hlength)]
          split
          · exact hloaded _
          · exact h
        · rw [if_pos hlength]
          exact h

theorem beginMeasure (h : s.isc.Sound) (k : HeadId) (n : Nat) (r : InstRec) : (s.beginMeasure k n r).isc.Sound := by
  have hmoved (m : Move) : (s.takeHandle.move n r m).isc.Sound := h
  have hleft : ∀ u : State, u.isc.Sound → (u.clearLatePicksOf n).isc.Sound := fun _ hu => hu
  unfold State.beginMeasure
  dsimp only
  rw [State.openSession_isc]
  exact hleft _ (((hmoved _).departPocket r.loc n .presetting).leavePutaway n)

theorem measureBegin (h : s.isc.Sound) (head n : Nat) : (s.measureBegin head n).1.isc.Sound := by
  unfold State.measureBegin
  split
  · exact h
  · unfold Machine.withTool
    split
    · exact h
    · split
      · exact h
      · dsimp only
        split_ifs
        · exact h
        · exact h
        · exact h
        · exact h.beginMeasure _ n _
        · exact h

theorem measureEnd (h : s.isc.Sound) (head : Nat) : (s.measureEnd head).1.isc.Sound := by
  unfold State.measureEnd
  split
  · exact h
  · split
    · exact h
    · split
      · exact h
      · exact h.closeMeasure _ _ _ _ _ _ _

theorem measureAbort (h : s.isc.Sound) (head : Nat) : (s.measureAbort head).1.isc.Sound := by
  unfold State.measureAbort
  split
  · exact h
  · split
    · exact h
    · exact h.abandonSession _ _

/-! ### The port -/

theorem frameSent (h : s.isc.Sound) : s.frameSent.isc.Sound := by
  unfold State.frameSent
  dsimp only
  split
  · exact h
  · split
    · split
      · exact h
      · split
        · exact h
        · split
          · exact Isc.reset_sound
          · exact h
    · split <;> exact h
    · split
      · exact h
      · split <;> exact h

theorem blockedAtStart (h : s.isc.Sound) (n : Nat) : (s.blockedAtStart n).isc.Sound := by
  unfold State.blockedAtStart
  split
  · split
    · split
      · exact h.handsOff ((State.HandsOff.refl s).askBlocked _ _ _)
      · exact h
    · exact h
  · exact h

theorem begin (h : s.isc.Sound) : s.begin.isc.Sound := by
  have hrunning : (s.setSvp { s.svp with mode := .running }).isc.Sound := h
  refine Isc.Sound.foldl (fun u n hu => hu.handsOff ((State.HandsOff.refl u).startTxn n)) _ ?_
  refine Isc.Sound.foldl (fun _ n hu => hu.blockedAtStart n) _ ?_
  refine Isc.Sound.foldl (fun u n hu => hu.handsOff ((State.HandsOff.refl u).fillSpace n)) _ ?_
  refine Isc.Sound.foldl (fun _ n hu => hu.tryPutaway n) _ ?_
  refine Isc.Sound.foldl (fun u c hu => ?_) _ hrunning
  rw [State.beginBoundaries_isc]
  exact hu

theorem bringIn (h : s.isc.Sound) (f : HostFrame) : (s.bringIn f).isc.Sound := by
  unfold State.bringIn
  split <;> exact h

end Isc.Sound

end Sys2Proof.Machine

/-! O58: the request queue (R47 to R49) command by command and at the step. -/

namespace Sys2Proof.Machine

/-- R51: an ISSUE merges into a live request. -/
theorem State.mergeTarget_mem {s : State} {q : NewRequest} {r : Request} (h : s.mergeTarget q = some r) : r ∈ s.isc.queue := by
  unfold State.mergeTarget at h
  split at h
  · exact List.mem_of_find?_eq_some h
  · cases h

namespace Isc.Sound

variable {s : State}

/-! ### What a command or an event does with the state -/

theorem event {f : State → State} {t : State} (h : s.isc.Sound) (ht : Machine.event f s = .next t)
    (hf : ∀ u : State, u.isc.Sound → (f u).isc.Sound) : t.isc.Sound := by
  cases ht
  exact hf s.quiet h

theorem hostCommand {kind tag : Byte} {body : List Byte} {run : State → State × Reply} {t : State} (h : s.isc.Sound)
    (ht : Machine.hostCommand kind tag body run s = .next t) (hf : ∀ u : State, u.isc.Sound → (run u).1.isc.Sound) :
    t.isc.Sound := by
  refine h.event ht fun u hu => ?_
  have hb := hu.bringIn ⟨kind, tag, body⟩
  dsimp only
  split
  · split
    · exact hf _ hb
    · exact hb
  · exact hb

theorem readCommand {kind tag : Byte} {body : List Byte} {answer : State → Reply} {t : State} (h : s.isc.Sound)
    (ht : Machine.readCommand kind tag body answer s = .next t) : t.isc.Sound := h.hostCommand ht fun _ hu => hu

theorem cabinetEvent {c : Nat} {f : State → State} {t : State} (h : s.isc.Sound) (ht : Machine.cabinetEvent c f s = .next t)
    (hf : ∀ u : State, u.isc.Sound → (f u).isc.Sound) : t.isc.Sound := by
  unfold Machine.cabinetEvent at ht
  split at ht
  · exact h.event ht hf
  · cases ht

theorem pocketEvent {c p : Nat} {f : State → State} {t : State} (h : s.isc.Sound) (ht : Machine.pocketEvent c p f s = .next t)
    (hf : ∀ u : State, u.isc.Sound → (f u).isc.Sound) : t.isc.Sound := by
  unfold Machine.pocketEvent at ht
  split at ht
  · exact h.event ht hf
  · cases ht

theorem stationEvent {n : Nat} {f : State → State} {t : State} (h : s.isc.Sound) (ht : Machine.stationEvent n f s = .next t)
    (hf : ∀ u : State, u.isc.Sound → (f u).isc.Sound) : t.isc.Sound := by
  unfold Machine.stationEvent at ht
  split at ht
  · exact h.event ht hf
  · cases ht

theorem whenRunning {f : State → State × Reply} (h : s.isc.Sound) (hf : (f s).1.isc.Sound) : (Machine.whenRunning f s).1.isc.Sound := by
  unfold Machine.whenRunning
  split
  · exact hf
  · exact h

theorem withTool {n : Nat} {f : State → InstRec → State × Reply} (h : s.isc.Sound) (hf : ∀ r, (f s r).1.isc.Sound) :
    (Machine.withTool n f s).1.isc.Sound := by
  unfold Machine.withTool
  split
  · exact h
  · split
    · exact h
    · exact hf _

theorem withRequest {n : Nat} {f : State → Request → State × Reply} (h : s.isc.Sound)
    (hf : ∀ r, s.isc.Holds r → (f s r).1.isc.Sound) : (Machine.withRequest n f s).1.isc.Sound := by
  unfold Machine.withRequest
  split
  · exact h
  · split
    · exact h
    next hr => exact hf _ (.of_request hr rfl rfl)

theorem withType {type group : Nat} {f : State → TypeRec → State × Reply} (h : s.isc.Sound) (hf : ∀ t, (f s t).1.isc.Sound) :
    (Machine.withType type group f s).1.isc.Sound := by
  unfold Machine.withType
  split
  · exact h
  · split
    · exact h
    · exact hf _

/-! ### The register -/

theorem clampLife (h : s.isc.Sound) (n type budget : Nat) : (s.clampLife n type budget).isc.Sound := by
  unfold State.clampLife
  split
  · exact h
  · split
    next r _ _ =>
      have hset : (s.setTool n { r with life := budget }).isc.Sound := h
      dsimp only
      split
      · exact hset.handsOff (((State.HandsOff.refl _).askUnblocked _ _ n).startTxn _)
      · exact h
    next => exact h

theorem loadType (h : s.isc.Sound) (n : Nat) (r : TypeRec) : (s.loadType n r).1.isc.Sound := by
  unfold State.loadType
  split
  · exact h
  · split_ifs
    · exact h
    · exact h
    · have hset (t : TypeRec) : (s.setType n t).isc.Sound := h
      exact Isc.Sound.foldl (fun _ k hu => hu.clampLife k n r.budget) _ (hset _)

theorem register (h : s.isc.Sound) (n type : Nat) (marks life : Option Nat) : (s.register n type marks life).1.isc.Sound := by
  unfold State.register
  lift_lets
  intro lifeOk
  split
  · exact h
  · split
    · exact h
    · split_ifs
      · exact h
      · exact h
      · exact h
      · refine Isc.Sound.announce ?_ n
        exact h

theorem vacate (h : s.isc.Sound) (n : Nat) : (s.vacate n).isc.Sound := by
  unfold State.vacate
  split
  · exact h
  · dsimp only
    split
    · exact (h.settleMarks n).dropPocket _ n
    · exact (h.settleMarks n).handsOff ((State.HandsOff.refl _).dropMagazine _ n)
    · exact h.settleMarks n

theorem takeUp (h : s.isc.Sound) (n : Nat) (r : InstRec) : (s.takeUp n r).isc.Sound := by
  unfold State.takeUp
  split <;> exact h

theorem quarantineTool (h : s.isc.Sound) (n : Nat) (r : InstRec) : (s.quarantineTool n r).1.isc.Sound := by
  have hbar {u : State} (hu : u.isc.Sound) (m : Move) : (match u.tool n with
      | some r => u.move n r m
      | none => u).isc.Sound := by
    split <;> exact hu
  unfold State.quarantineTool
  dsimp only
  split
  · exact (hbar (h.releaseToQueue n false) _).afterRelease n
  · exact (hbar h _).announce n
  · exact (hbar h _).announce n
  · exact (hbar h _).announce n
  · exact (hbar h _).announce n
  · exact h

theorem clearQuarantine (h : s.isc.Sound) (n : Nat) (r : InstRec) : (s.clearQuarantine n r).1.isc.Sound := by
  unfold State.clearQuarantine
  split_ifs
  · exact h
  · exact h
  · refine Isc.Sound.announce ?_ n
    exact h

/-- R24: RETIRE of the record that stands once a reservation is released and the magazine entry is gone. -/
theorem retireFrom (h : s.isc.Sound) (n : Nat) (before : InstRec) : (match s.tool n with
    | none => s
    | some r =>
      let atStation := before.custody = Custody.loaded ∨ before.custody = Custody.issued
      let s := s.transition n r { cause := .retire, custody := .retired, loc := .nowhere }
        (fun i => if atStation then { i with owed := false } else i)
      let s := s.dropPocket before.loc n
      let s := if before.custody = Custody.issued then s.loseRequest before.link else s
      let s := (s.clearLatePicksOf n).afterRetired n
      if before.custody == Custody.reserved then s.allocationPass else s).isc.Sound := by
  have hend {u : State} (hu : u.isc.Sound) :
      (let s := (u.clearLatePicksOf n).afterRetired n
      if before.custody == Custody.reserved then s.allocationPass else s).isc.Sound := by
    have hretired := Isc.Sound.afterRetired (s := u.clearLatePicksOf n) hu n
    dsimp only
    split
    · exact hretired.allocationPass
    · exact hretired
  split
  · exact h
  next r _ =>
    refine hend ?_
    have hmoved : (s.transition n r { cause := .retire, custody := .retired, loc := .nowhere }
      (fun i => if before.custody = Custody.loaded ∨ before.custody = Custody.issued then { i with owed := false } else i)).isc.Sound := h
    have hleft := hmoved.dropPocket before.loc n
    split
    · exact hleft.loseRequest _
    · exact hleft

theorem retire (h : s.isc.Sound) (n : Nat) (before : InstRec) : (s.retire n before).isc.Sound := by
  have hreleased : (if before.custody == Custody.reserved then s.releaseToQueue n false else s).isc.Sound := by
    split
    · exact h.releaseToQueue n false
    · exact h
  refine Isc.Sound.retireFrom ?_ n before
  split
  · exact hreleased.handsOff ((State.HandsOff.refl _).dropMagazine _ n)
  · exact hreleased.handsOff ((State.HandsOff.refl _).dropMagazine _ n)
  · exact hreleased

theorem deleteTool (h : s.isc.Sound) (n : Nat) (r : InstRec) : (s.deleteTool n r).isc.Sound := by
  refine Isc.Sound.afterRetired ?_ n
  exact h

theorem regrindOut (h : s.isc.Sound) (n : Nat) (r : InstRec) : (s.regrindOut n r).1.isc.Sound := by
  have hmoved (m : Move) : (s.move n r m).isc.Sound := h
  unfold State.regrindOut
  split_ifs
  · exact h
  · exact h
  · exact ((hmoved _).departPocket r.loc n .regrind).leavePutaway n

theorem regrindBack (h : s.isc.Sound) (n : Nat) (r : InstRec) : (s.regrindBack n r).1.isc.Sound := by
  unfold State.regrindBack
  split_ifs
  · exact h
  · exact h
  · refine Isc.Sound.settleMarks (Isc.Sound.announce ?_ n) n
    exact h

/-! ### The crib -/

theorem setCabinet (h : s.isc.Sound) (c : Nat) (new : CabSettings) : (s.setCabinet c new).isc.Sound := by
  have htaken : (s.takeSettings c new).1.isc.Sound := by
    rw [State.takeSettings_isc]
    exact h
  unfold State.setCabinet
  split
  · exact h
  · dsimp only
    split
    · rw [State.restartBoundary_isc]
      exact htaken
    · exact htaken

theorem configurePocket (h : s.isc.Sound) (c p : Nat) (enabled : Option Bool) (zone : Option Zone) :
    (s.configurePocket c p enabled zone).isc.Sound := by
  have hset (r : Pocket) : (if r.enabled != (s.pocket c p).enabled || r.zone != (s.pocket c p).zone then
      (s.setPocket c p r).noticeIfFree c p else s.setPocket c p r).isc.Sound := by
    split
    · exact Isc.Sound.noticeIfFree (s := s.setPocket c p r) h c p
    · exact h
  exact hset _

theorem setPockets (h : s.isc.Sound) (c enabled zone : Nat) (pockets : List Nat) :
    (s.setPockets c enabled zone pockets).1.isc.Sound := by
  unfold State.setPockets
  split
  · exact h
  · split
    · exact h
    · exact Isc.Sound.foldl (fun _ p hu => hu.configurePocket c p _ _) _ h

theorem learnEmpty (h : s.isc.Sound) (c : Nat) (pockets : List Nat) : (s.learnEmpty c pockets).1.isc.Sound := by
  unfold State.learnEmpty
  split
  · exact h
  · split
    · exact h
    · split
      · exact h
      · dsimp only
        split
        · rw [State.learnOn_isc]
          exact h
        · exact h

theorem scanOnce (h : s.isc.Sound) (c : Nat) : (s.scanOnce c).1.isc.Sound := by
  unfold State.scanOnce
  split_ifs
  · exact h
  · exact h
  · exact h
  · exact h
  · rw [State.startSingle_isc]
    exact h

theorem identify (h : s.isc.Sound) (n : Nat) (r : InstRec) (c p : Nat) : (s.identify n r c p).isc.Sound := by
  have hseated : ((s.leavePutaway n).seat n c p r (s.identifyMove n r c p)).isc.Sound := h.leavePutaway n
  rw [State.identify_eq]
  refine Isc.Sound.announce ?_ n
  unfold State.unissued
  split
  · exact (hseated.leftIssued n).loseRequest _
  · exact hseated

/-! ### Issue -/

theorem issue (h : s.isc.Sound) (q : NewRequest) : (s.issue q).1.isc.Sound := by
  have hentered := h.enter q
  unfold State.issue
  split
  · exact h
  · split
    next hr => exact h.merge (State.mergeTarget_mem hr) q
    next =>
      split
      next he =>
        rw [he] at hentered
        exact hentered
      next he =>
        rw [he] at hentered
        exact hentered

theorem handOut (h : s.isc.Sound) {r : Request} (hr : s.isc.Holds r) : (s.handOut r).1.isc.Sound := by
  unfold State.handOut
  split
  · split
    · exact h
    · split
      · refine Isc.Sound.afterPick (Isc.Sound.changeRequest (r := { r with state := .issued, reserveTick := none }) ?_ ?_ _) _ _
        · exact h
        · exact hr
      · exact h
  · exact h

theorem benchReturn (h : s.isc.Sound) (n : Nat) (r : InstRec) : (s.benchReturn n r).1.isc.Sound := by
  unfold State.benchReturn
  split
  · refine Isc.Sound.announce (Isc.Sound.loseRequest (Isc.Sound.leftIssued ?_ n) _) n
    exact h
  · exact h

theorem fireTimings (h : s.isc.Sound) : s.fireTimings.isc.Sound :=
  Isc.Sound.foldl (fun _ n hu => hu.firePutaway n) _ (Isc.Sound.foldl (fun _ number hu => hu.firePick number) _ h)

/-- R74: a setting given in its range, or the one that stood, is in its range. -/
theorem setting_within {lo hi old : Nat} {v : Option Nat} (hold : lo ≤ old ∧ old ≤ hi) (hv : ∀ x ∈ v, within lo hi x = true) :
    lo ≤ v.getD old ∧ v.getD old ≤ hi := by
  cases v with
  | none => exact hold
  | some x => exact within_iff.1 (hv x rfl)

theorem setIssue (h : s.isc.Sound) (pick grace putaway : Option Nat) : (s.setIssue pick grace putaway).1.isc.Sound := by
  obtain ⟨⟨hlength, hnodup, hrange, hn1, hn2, hp1, hp2, hg, ha1, ha2⟩, horder⟩ := id h
  unfold State.setIssue
  lift_lets
  intro fits
  have hfits {lo hi : Nat} {v : Option Nat} (hv : fits lo hi v = true) : ∀ x ∈ v, within lo hi x = true := by
    rintro x rfl
    exact hv
  split
  next hok =>
    simp only [Bool.and_eq_true] at hok
    obtain ⟨⟨hpick, hgrace⟩, hputaway⟩ := hok
    obtain ⟨hp1, hp2⟩ := setting_within ⟨hp1, hp2⟩ (hfits hpick)
    obtain ⟨-, hg⟩ := setting_within ⟨Nat.zero_le _, hg⟩ (hfits hgrace)
    obtain ⟨ha1, ha2⟩ := setting_within ⟨ha1, ha2⟩ (hfits hputaway)
    refine Isc.Sound.fireTimings ?_
    exact ⟨⟨hlength, hnodup, hrange, hn1, hn2, hp1, hp2, hg, ha1, ha2⟩, horder⟩
  next => exact h

/-! ### Handoff -/

theorem setPlaces (h : s.isc.Sound) (n count : Nat) : (s.setPlaces n count).1.isc.Sound := by
  unfold State.setPlaces
  split_ifs <;> exact h

theorem holdTool (h : s.isc.Sound) (n : Nat) : (s.holdTool n).isc.Sound := by
  unfold State.holdTool
  split
  · refine Isc.Sound.tryPutaway ?_ n
    exact h
  · exact h

theorem holdReserved (h : s.isc.Sound) (n : Nat) : (s.holdReserved n).isc.Sound := by
  refine Isc.Sound.holdTool ?_ n
  split
  next hq =>
    obtain ⟨k, -, hk⟩ := Option.bind_eq_some_iff.1 hq
    refine (h.releaseTool n false).enterWaiting ?_ _
    rw [State.releaseTool_isc]
    exact .of_request hk rfl rfl
  next => exact h.releaseTool n false

theorem hold (h : s.isc.Sound) (n : Nat) (t : TypeRec) (group : Nat) : (s.hold n t group).1.isc.Sound := by
  unfold State.hold
  lift_lets
  intro marked reserved freed barred tools cancelled out
  have hfreed : freed.isc.Sound := Isc.Sound.foldl (s := marked) (fun _ k hu => hu.holdReserved k) _ h
  have hbarred : barred.isc.Sound := Isc.Sound.foldl (fun _ k hu => hu.holdTool k) _ hfreed
  have hout : out.1.isc.Sound := hbarred.handsOff (((State.HandsOff.refl _).cancelAll _).createBroadcast .hold n _)
  show (if reserved.isEmpty then out.1 else out.1.allocationPass).isc.Sound
  split
  · exact hout
  · exact hout.allocationPass

theorem releaseHeld (h : s.isc.Sound) (n : Nat) : (s.releaseHeld n).isc.Sound := by
  unfold State.releaseHeld
  split <;> exact h

theorem supplyIssued (h : s.isc.Sound) (n : Nat) : (s.supplyIssued n).isc.Sound := by
  have hverified := h.verify n
  unfold State.supplyIssued
  dsimp only
  split
  · exact hverified
  · split
    · split
      · exact hverified
      · exact hverified.supplyData _ _ n
    · exact hverified

theorem supplyLoaded (h : s.isc.Sound) (n : Nat) : (s.supplyLoaded n).isc.Sound := by
  unfold State.supplyLoaded
  split
  · exact h
  · split
    · split
      · exact h.supplyData _ _ n
      · exact h
    · exact h

theorem release (h : s.isc.Sound) (n : Nat) (t : TypeRec) (group : Nat) : (s.release n t group).1.isc.Sound := by
  unfold State.release
  lift_lets
  intro marked held lifted verified supplied out
  have hlifted : lifted.isc.Sound := Isc.Sound.foldl (s := marked) (fun _ k hu => hu.releaseHeld k) _ h
  have hverified : verified.isc.Sound := Isc.Sound.foldl (fun _ k hu => hu.supplyIssued k) _ hlifted
  have hsupplied : supplied.isc.Sound := Isc.Sound.foldl (fun _ k hu => hu.supplyLoaded k) _ hverified
  have hout : out.1.isc.Sound := hsupplied.handsOff ((State.HandsOff.refl _).createBroadcast .release n _)
  exact Isc.Sound.foldl (fun _ k hu => hu.tryPutaway k) _ hout.allocationPass

theorem sendData (h : s.isc.Sound) (n : Nat) (r : InstRec) : (s.sendData n r).1.isc.Sound := by
  unfold State.sendData
  split
  · exact h
  · split_ifs
    · exact h
    · exact h
    · exact h.supplyData _ _ n

/-! ### The time base -/

theorem setClock (h : s.isc.Sound) (tol revertive : Option Nat) : (s.setClock tol revertive).1.isc.Sound := by
  have htimed : (match tol with
      | some t => s.setTolerance t
      | none => s).isc.Sound := by
    split
    · exact h.runsClock ((State.RunsClock.refl s).setTolerance _)
    · exact h
  unfold State.setClock
  dsimp only
  split
  · cases revertive with
    | none => exact htimed
    | some v => exact htimed.runsClock ((State.RunsClock.refl _).setRevertive _)
  · exact h

/-! ### Commands whose bodies branch -/

variable {t : State}

theorem execLoadType (h : s.isc.Sound) (tag : Byte) (body : List Byte) (ht : Machine.execLoadType tag body s = .next t) :
    t.isc.Sound := by
  refine h.hostCommand ht fun u hu => ?_
  dsimp only
  split
  · exact hu
  · split
    · exact hu.loadType _ _
    · exact hu

theorem execDeleteType (h : s.isc.Sound) (tag : Byte) (body : List Byte) (ht : Machine.execDeleteType tag body s = .next t) :
    t.isc.Sound := by
  refine h.hostCommand ht fun u hu => ?_
  dsimp only
  split
  · exact hu
  · split
    · exact hu
    · split_ifs <;> exact hu

theorem execLoadInstance (h : s.isc.Sound) (tag : Byte) (body : List Byte)
    (ht : Machine.execLoadInstance tag body s = .next t) : t.isc.Sound := by
  refine h.hostCommand ht fun u hu => ?_
  dsimp only
  split
  · exact hu
  · split
    · exact hu
    · split
      · exact hu
      · split
        · exact hu
        · exact (hu.vacate _).takeUp _ _

theorem execRetire (h : s.isc.Sound) (tag : Byte) (body : List Byte) (ht : Machine.execRetire tag body s = .next t) :
    t.isc.Sound := by
  refine h.hostCommand ht fun u hu => hu.withTool fun r => ?_
  split
  · exact hu
  · exact hu.retire _ r

theorem execDelete (h : s.isc.Sound) (tag : Byte) (body : List Byte) (ht : Machine.execDelete tag body s = .next t) :
    t.isc.Sound := by
  refine h.hostCommand ht fun u hu => hu.withTool fun r => ?_
  split
  · dsimp only
    exact hu.deleteTool _ r
  · exact hu

theorem execSetCabinet (h : s.isc.Sound) (tag : Byte) (body : List Byte) (ht : Machine.execSetCabinet tag body s = .next t) :
    t.isc.Sound := by
  refine h.hostCommand ht fun u hu => ?_
  split
  · exact hu.setCabinet _ _
  · exact hu

theorem execIdentify (h : s.isc.Sound) (tag : Byte) (body : List Byte) (ht : Machine.execIdentify tag body s = .next t) :
    t.isc.Sound := by
  refine h.hostCommand ht fun u hu => hu.whenRunning ?_
  dsimp only
  split
  · exact hu
  · split
    · exact hu
    · split
      · exact hu.identify _ _ _ _
      · exact hu

theorem execIssue (h : s.isc.Sound) (tag : Byte) (body : List Byte) (ht : Machine.execIssue tag body s = .next t) :
    t.isc.Sound := by
  refine h.hostCommand ht fun u hu => hu.whenRunning ?_
  split
  · exact hu
  · exact hu.issue _

theorem execCancel (h : s.isc.Sound) (tag : Byte) (body : List Byte) (ht : Machine.execCancel tag body s = .next t) :
    t.isc.Sound := by
  refine h.hostCommand ht fun u hu => hu.whenRunning (hu.withRequest fun r _ => ?_)
  split
  · exact hu
  · exact hu.cancelRequest r _

theorem execSetHead (h : s.isc.Sound) (tag : Byte) (body : List Byte) (ht : Machine.execSetHead tag body s = .next t) :
    t.isc.Sound := by
  refine h.hostCommand ht fun u hu => ?_
  dsimp only
  split
  · exact hu
  · split
    · exact hu
    · split
      · rw [State.putHeadSettings_isc]
        exact hu
      · exact hu

theorem execSetLink (h : s.isc.Sound) (tag : Byte) (body : List Byte) (ht : Machine.execSetLink tag body s = .next t) :
    t.isc.Sound := by
  refine h.hostCommand ht fun u hu => ?_
  split
  · exact hu
  · split
    · exact hu.setPolicy _ _
    · exact hu

theorem execLinkRestart (h : s.isc.Sound) (tag : Byte) (body : List Byte) (ht : Machine.execLinkRestart tag body s = .next t) :
    t.isc.Sound := by
  refine h.hostCommand ht fun u hu => ?_
  split
  · exact hu.linkRestart _
  · exact hu

theorem execSetGroup (h : s.isc.Sound) (tag : Byte) (body : List Byte) (ht : Machine.execSetGroup tag body s = .next t) :
    t.isc.Sound := by
  refine h.hostCommand ht fun u hu => ?_
  split <;> exact hu

theorem execTypeHold (h : s.isc.Sound) (tag : Byte) (body : List Byte) (ht : Machine.execTypeHold tag body s = .next t) :
    t.isc.Sound := by
  refine h.hostCommand ht fun u hu => hu.whenRunning (hu.withType fun r => ?_)
  split
  · exact hu
  · exact hu.hold _ r _

theorem execTypeRelease (h : s.isc.Sound) (tag : Byte) (body : List Byte) (ht : Machine.execTypeRelease tag body s = .next t) :
    t.isc.Sound := by
  refine h.hostCommand ht fun u hu => hu.whenRunning (hu.withType fun r => ?_)
  split
  · exact hu.release _ r _
  · exact hu

theorem execStart (h : s.isc.Sound) (tag : Byte) (body : List Byte) (ht : Machine.execStart tag body s = .next t) :
    t.isc.Sound := by
  refine h.hostCommand ht fun u hu => ?_
  split
  · exact hu
  · split
    · exact hu
    · exact hu.begin

theorem execReportEnable (h : s.isc.Sound) (tag : Byte) (body : List Byte)
    (ht : Machine.execReportEnable tag body s = .next t) : t.isc.Sound := by
  refine h.hostCommand ht fun u hu => ?_
  dsimp only
  split <;> exact hu

theorem execReadPort (h : s.isc.Sound) (tag : Byte) (body : List Byte) (ht : Machine.execReadPort tag body s = .next t) :
    t.isc.Sound := by
  refine h.hostCommand ht fun u hu => ?_
  dsimp only
  split <;> exact hu

theorem execUnknownKindFrame (h : s.isc.Sound) (kind tag : Byte) (body : List Byte)
    (ht : Machine.execUnknownKindFrame kind tag body s = .next t) : t.isc.Sound := by
  refine h.event ht fun u hu => ?_
  have hb := hu.bringIn ⟨kind, tag, body⟩
  dsimp only
  split <;> exact hb

theorem execResetEffect (h : s.isc.Sound) (ht : Machine.execResetEffect s = .next t) : t.isc.Sound := by
  refine h.event ht fun u hu => ?_
  split
  · exact hu.frameSent
  · exact hu

theorem execLatePickEnd (h : s.isc.Sound) (c p : Nat) (ht : Machine.execLatePickEnd c p s = .next t) : t.isc.Sound := by
  refine h.pocketEvent ht fun u hu => ?_
  split
  · refine Isc.Sound.allocationPass ?_
    exact hu
  · exact hu

theorem execHeadStatus (h : s.isc.Sound) (head : HeadId) (status : Byte) (scaleTemp : BitVec 16)
    (ht : Machine.execHeadStatus head status scaleTemp s = .next t) : t.isc.Sound := by
  refine h.event ht fun u hu => ?_
  have hframed : (u.headFramed head).isc.Sound := hu.setHead head _
  split_ifs
  · exact hframed.takeStatus head _ _
  · exact hframed.takeStatus head _ _
  · exact hu.headFailed head _

theorem execCapture (h : s.isc.Sound) (head : HeadId) (z x : BitVec 24) (spindle scaleTemp toolTemp : BitVec 16) (flags : Byte)
    (ht : Machine.execCapture head z x spindle scaleTemp toolTemp flags s = .next t) : t.isc.Sound := by
  refine h.event ht fun u hu => ?_
  have hframed : (u.headFramed head).isc.Sound := hu.setHead head _
  split
  · exact hframed.takeCapture head _ _ _ _ _ _
  · exact hu.headFailed head _

/-- ISC through every command and event. -/
theorem exec (h : s.isc.Sound) {i : Instr} (ht : Machine.exec i s = .next t) : t.isc.Sound := by
  cases i with
  | powerOn baud1 baud0 =>
    cases ht
    exact Isc.reset_sound
  | resetN =>
    unfold Machine.exec execResetN at ht
    exact h.event ht fun _ _ => Isc.reset_sound
  | supervisoryFrame bytes =>
    unfold Machine.exec execSupervisoryFrame at ht
    exact h.event ht fun _ hu => hu
  | frameByteTimeout =>
    unfold Machine.exec execFrameByteTimeout at ht
    exact h.event ht fun _ hu => hu
  | unknownKindFrame kind tag body => exact h.execUnknownKindFrame _ _ _ ht
  | frameSent =>
    unfold Machine.exec execFrameSent at ht
    exact h.event ht fun _ hu => hu.frameSent
  | resetEffect => exact h.execResetEffect ht
  | loadType tag body => exact h.execLoadType _ _ ht
  | deleteType tag body => exact h.execDeleteType _ _ ht
  | readType tag body =>
    unfold Machine.exec execReadType at ht
    exact h.readCommand ht
  | register tag body =>
    unfold Machine.exec execRegister at ht
    exact h.hostCommand ht fun _ hu => hu.register _ _ _ _
  | loadInstance tag body => exact h.execLoadInstance _ _ ht
  | quarantineTool tag body =>
    unfold Machine.exec execQuarantineTool at ht
    exact h.hostCommand ht fun _ hu => hu.withTool fun r => hu.quarantineTool _ r
  | clearQuarantine tag body =>
    unfold Machine.exec execClearQuarantine at ht
    exact h.hostCommand ht fun _ hu => hu.withTool fun r => hu.clearQuarantine _ r
  | retire tag body => exact h.execRetire _ _ ht
  | delete tag body => exact h.execDelete _ _ ht
  | readInstance tag body =>
    unfold Machine.exec execReadInstance at ht
    exact h.hostCommand ht fun _ hu => hu.withTool fun _ => hu
  | listInstances tag body =>
    unfold Machine.exec execListInstances at ht
    exact h.readCommand ht
  | setCabinet tag body => exact h.execSetCabinet _ _ ht
  | setPockets tag body =>
    unfold Machine.exec execSetPockets at ht
    exact h.hostCommand ht fun _ hu => hu.setPockets _ _ _ _
  | learnEmpty tag body =>
    unfold Machine.exec execLearnEmpty at ht
    exact h.hostCommand ht fun _ hu => hu.learnEmpty _ _
  | scanOnce tag body =>
    unfold Machine.exec execScanOnce at ht
    exact h.hostCommand ht fun _ hu => hu.scanOnce _
  | identify tag body => exact h.execIdentify _ _ ht
  | readPocket tag body =>
    unfold Machine.exec execReadPocket at ht
    exact h.readCommand ht
  | readCabinet tag body =>
    unfold Machine.exec execReadCabinet at ht
    exact h.readCommand ht
  | issue tag body => exact h.execIssue _ _ ht
  | cancel tag body => exact h.execCancel _ _ ht
  | handOut tag body =>
    unfold Machine.exec execHandOut at ht
    exact h.hostCommand ht fun _ hu => hu.whenRunning (hu.withRequest fun _ hr => hu.handOut hr)
  | benchReturn tag body =>
    unfold Machine.exec execBenchReturn at ht
    exact h.hostCommand ht fun _ hu => hu.whenRunning (hu.withTool fun r => hu.benchReturn _ r)
  | setIssue tag body =>
    unfold Machine.exec execSetIssue at ht
    exact h.hostCommand ht fun _ hu => hu.setIssue _ _ _
  | nextToMeasure tag body =>
    unfold Machine.exec execNextToMeasure at ht
    exact h.readCommand ht
  | readRequest tag body =>
    unfold Machine.exec execReadRequest at ht
    exact h.hostCommand ht fun _ hu => hu.withRequest fun _ _ => hu
  | listRequests tag body =>
    unfold Machine.exec execListRequests at ht
    exact h.readCommand ht
  | readPutaway tag body =>
    unfold Machine.exec execReadPutaway at ht
    exact h.readCommand ht
  | setCurve tag body =>
    unfold Machine.exec execSetCurve at ht
    exact h.hostCommand ht fun _ hu => hu.setCurve _ _ _
  | setHead tag body => exact h.execSetHead _ _ ht
  | zeroHead tag body =>
    unfold Machine.exec execZeroHead at ht
    exact h.hostCommand ht fun u hu => hu.whenRunning (State.zeroHead_isc u _ ▸ hu)
  | measureBegin tag body =>
    unfold Machine.exec execMeasureBegin at ht
    exact h.hostCommand ht fun _ hu => hu.whenRunning (hu.measureBegin _ _)
  | measureEnd tag body =>
    unfold Machine.exec execMeasureEnd at ht
    exact h.hostCommand ht fun _ hu => hu.whenRunning (hu.measureEnd _)
  | measureAbort tag body =>
    unfold Machine.exec execMeasureAbort at ht
    exact h.hostCommand ht fun _ hu => hu.whenRunning (hu.measureAbort _)
  | readHead tag body =>
    unfold Machine.exec execReadHead at ht
    exact h.readCommand ht
  | regrindOut tag body =>
    unfold Machine.exec execRegrindOut at ht
    exact h.hostCommand ht fun _ hu => hu.whenRunning (hu.withTool fun r => hu.regrindOut _ r)
  | regrindBack tag body =>
    unfold Machine.exec execRegrindBack at ht
    exact h.hostCommand ht fun _ hu => hu.whenRunning (hu.withTool fun r => hu.regrindBack _ r)
  | setLink tag body => exact h.execSetLink _ _ ht
  | linkRestart tag body => exact h.execLinkRestart _ _ ht
  | readLink tag body =>
    unfold Machine.exec execReadLink at ht
    exact h.readCommand ht
  | setStation tag body =>
    unfold Machine.exec execSetStation at ht
    exact h.hostCommand ht fun _ hu => hu.setPlaces _ _
  | setGroup tag body => exact h.execSetGroup _ _ ht
  | typeHold tag body => exact h.execTypeHold _ _ ht
  | typeRelease tag body => exact h.execTypeRelease _ _ ht
  | sendData tag body =>
    unfold Machine.exec execSendData at ht
    exact h.hostCommand ht fun _ hu => hu.whenRunning (hu.withTool fun r => hu.sendData _ r)
  | readHandoff tag body =>
    unfold Machine.exec execReadHandoff at ht
    exact h.readCommand ht
  | readGroups tag body =>
    unfold Machine.exec execReadGroups at ht
    exact h.readCommand ht
  | readBroadcast tag body =>
    unfold Machine.exec execReadBroadcast at ht
    exact h.readCommand ht
  | setTime tag body =>
    unfold Machine.exec execSetTime at ht
    exact h.hostCommand ht fun _ hu => hu.runsClock ((State.RunsClock.refl _).setTime _)
  | setClock tag body =>
    unfold Machine.exec execSetClock at ht
    exact h.hostCommand ht fun _ hu => hu.setClock _ _
  | readTime tag body =>
    unfold Machine.exec execReadTime at ht
    exact h.readCommand ht
  | start tag body => exact h.execStart _ _ ht
  | reset tag body =>
    unfold Machine.exec execReset at ht
    exact h.hostCommand ht fun _ hu => hu
  | reportEnable tag body => exact h.execReportEnable _ _ ht
  | readPort tag body => exact h.execReadPort _ _ ht
  | scanInterval cabinet =>
    unfold Machine.exec execScanInterval at ht
    exact h.cabinetEvent ht fun u hu => State.fireBoundary_isc u _ ▸ hu
  | pocketCount cabinet cycles =>
    unfold Machine.exec execPocketCount at ht
    exact h.cabinetEvent ht fun _ hu => hu.takeCount _ _
  | learnMeasurement cabinet cycles =>
    unfold Machine.exec execLearnMeasurement at ht
    exact h.cabinetEvent ht fun _ hu => hu.takeLearn _ _
  | pickTimeout request =>
    unfold Machine.exec execPickTimeout at ht
    exact h.event ht fun _ hu => hu.firePick _
  | latePickEnd cabinet pocket => exact h.execLatePickEnd _ _ ht
  | putawayTimeout tool =>
    unfold Machine.exec execPutawayTimeout at ht
    exact h.event ht fun _ hu => hu.firePutaway _
  | headStatus head status scaleTemp => exact h.execHeadStatus _ _ _ ht
  | capture head z x spindle scaleTemp toolTemp flags => exact h.execCapture _ _ _ _ _ _ _ ht
  | headFrameByteTimeout head =>
    unfold Machine.exec execHeadFrameByteTimeout at ht
    exact h.event ht fun u hu => State.fireHeadBytes_isc u _ ▸ hu
  | headSilence head =>
    unfold Machine.exec execHeadSilence at ht
    exact h.event ht fun _ hu => hu.fireSilence _
  | zeroAgeLapse head =>
    unfold Machine.exec execZeroAgeLapse at ht
    exact h.event ht fun u hu => State.fireLapse_isc u _ ▸ hu
  | headFrameDiscarded head bytes =>
    unfold Machine.exec execHeadFrameDiscarded at ht
    exact h.event ht fun _ hu => hu.headBytes _ _
  | handoffTimeout station =>
    unfold Machine.exec execHandoffTimeout at ht
    exact h.stationEvent ht fun u hu => hu.handsOff ((State.HandsOff.refl u).fireHandoff _)
  | holdOffExpiry station =>
    unfold Machine.exec execHoldOffExpiry at ht
    exact h.stationEvent ht fun u hu => hu.handsOff ((State.HandsOff.refl u).fireHoldOff _)
  | broadcastExpiry number =>
    unfold Machine.exec execBroadcastExpiry at ht
    exact h.event ht fun u hu => hu.handsOff ((State.HandsOff.refl u).fireBroadcast _)
  | stationBlock station bytes =>
    unfold Machine.exec execStationBlock at ht
    exact h.stationEvent ht fun _ hu => hu.linkBytes _ _
  | acquireTimeout station =>
    unfold Machine.exec execAcquireTimeout at ht
    exact h.stationEvent ht fun _ hu => hu.fireAcquire _
  | linkSilence station =>
    unfold Machine.exec execLinkSilence at ht
    exact h.stationEvent ht fun _ hu => hu.fireLinkSilence _
  | blockPeriod station =>
    unfold Machine.exec execBlockPeriod at ht
    exact h.stationEvent ht fun _ hu => hu.firePeriod _
  | outstandingTimeout station =>
    unfold Machine.exec execOutstandingTimeout at ht
    exact h.stationEvent ht fun _ hu => hu.fireOutstanding _
  | echoHeldTimeout station =>
    unfold Machine.exec execEchoHeldTimeout at ht
    exact h.stationEvent ht fun _ hu => hu.fireEchoHeld _
  | ppsPulse line =>
    unfold Machine.exec execPpsPulse at ht
    exact h.event ht fun u hu => hu.runsClock ((State.RunsClock.refl u).pulse _)
  | stepDeadline line =>
    unfold Machine.exec execStepDeadline at ht
    exact h.event ht fun u hu => hu.runsClock ((State.RunsClock.refl u).fireDeadline _)
  | hallSecond =>
    unfold Machine.exec execHallSecond at ht
    exact h.event ht fun u hu => hu.runsClock (State.RunsClock.refl u).expiryTest

theorem idle (h : s.isc.Sound) (ht : s.idle = .next t) : t.isc.Sound := by
  unfold State.idle at ht
  split at ht
  · exact h.exec ht
  · split at ht
    · cases ht
      exact h
    · cases ht
      exact h

end Isc.Sound

/-- Settles O58: every operation of the model keeps ISC within its ranges and its queue in service order, so every command and
event does, and the time base with them. -/
theorem stepKeepsRequestQueue : Obligations.StepKeepsRequestQueue := by
  intro s t hwithin horder ht
  have h : s.isc.Sound := ⟨hwithin, horder⟩
  unfold step at ht
  split at ht
  next i rest _ => exact Isc.Sound.exec (s := { s with pending := rest }) h ht
  next => exact h.idle ht

end Sys2Proof.Machine

/-! O23 and O55: the choices of allocation and put-away (R56, R68), and the presetting worklist (R73). -/

namespace Sys2Proof.Machine

/-! ### The first element, and the least -/

/-- What a list in order finds first is the least of what satisfies the test. -/
theorem find?_le_of_pairwise {xs : List Nat} (h : xs.Pairwise (· < ·)) {p : Nat → Bool} {a : Nat} (ha : xs.find? p = some a)
    {b : Nat} (hb : b ∈ xs) (hp : p b = true) : a ≤ b := by
  obtain ⟨-, before, after, rfl, hbefore⟩ := List.find?_eq_some_iff_append.1 ha
  obtain ⟨-, htail, -⟩ := List.pairwise_append.1 h
  rcases List.mem_append.1 hb with hb | hb
  · have := hbefore b hb
    rw [hp] at this
    cases this
  · rcases List.mem_cons.1 hb with rfl | hb
    · exact le_rfl
    · exact ((List.pairwise_cons.1 htail).1 b hb).le

theorem head?_le_of_pairwise {xs : List Nat} (h : xs.Pairwise (· < ·)) {a : Nat} (ha : xs.head? = some a) {b : Nat} (hb : b ∈ xs) :
    a ≤ b := by
  cases xs with
  | nil => cases ha
  | cons x rest =>
    cases ha
    rcases List.mem_cons.1 hb with rfl | hb
    · exact le_rfl
    · exact ((List.pairwise_cons.1 h).1 b hb).le

/-- A choice that keeps the lesser of what it holds and what it meets ends with the least. -/
theorem foldl_least {α β : Type} [LinearOrder β] (key : α → β) {f : Option α → α → Option α} (hnone : ∀ e, f none e = some e)
    (hsome : ∀ b e, f (some b) e = if key e < key b then some e else some b) (xs : List α) {x : α} (h : xs.foldl f none = some x) :
    ∀ e ∈ xs, key x ≤ key e := by
  have hfrom (xs : List α) : ∀ {b x : α}, xs.foldl f (some b) = some x → key x ≤ key b ∧ ∀ e ∈ xs, key x ≤ key e := by
    induction xs with
    | nil =>
      rintro b x h
      cases h
      exact ⟨le_rfl, by simp⟩
    | cons e rest ih =>
      intro b x h
      rw [List.foldl_cons, hsome] at h
      split at h
      next hlt =>
        obtain ⟨he, hrest⟩ := ih h
        exact ⟨he.trans hlt.le, List.forall_mem_cons.2 ⟨he, hrest⟩⟩
      next hge =>
        obtain ⟨hb, hrest⟩ := ih h
        exact ⟨hb, List.forall_mem_cons.2 ⟨hb.trans (not_lt.1 hge), hrest⟩⟩
  cases xs with
  | nil => cases h
  | cons e rest =>
    rw [List.foldl_cons, hnone] at h
    exact List.forall_mem_cons.2 (hfrom rest h)

theorem foldl_choice_eq_none {α : Type} {f : Option α → α → Option α} (hf : ∀ a e, ∃ x, f a e = some x) {xs : List α} :
    xs.foldl f none = none ↔ xs = [] := by
  have hfrom (xs : List α) : ∀ a, ∃ x, xs.foldl f (some a) = some x := by
    induction xs with
    | nil => exact fun a => ⟨a, rfl⟩
    | cons e rest ih =>
      intro a
      obtain ⟨x, hx⟩ := hf (some a) e
      rw [List.foldl_cons, hx]
      exact ih x
  cases xs with
  | nil => simp
  | cons e rest =>
    obtain ⟨a, ha⟩ := hf none e
    obtain ⟨x, hx⟩ := hfrom rest a
    rw [List.foldl_cons, ha, hx]
    simp

/-! ### Allocation -/

/-- The keys of R56, in their order. -/
def candidateRank (e : Nat × InstRec) : ℕ ×ₗ ℕ ×ₗ ℕ := toLex (e.2.life, toLex (e.2.measuredAt, e.1))

theorem candidateRank_le (a b : Nat × InstRec) : candidateRank a ≤ candidateRank b ↔
    a.2.life < b.2.life ∨ (a.2.life = b.2.life ∧ (a.2.measuredAt < b.2.measuredAt ∨ (a.2.measuredAt = b.2.measuredAt ∧ a.1 ≤ b.1))) := by
  simp [candidateRank, Prod.Lex.toLex_le_toLex]

theorem betterCandidate_iff (a b : Nat × InstRec) : betterCandidate a b = true ↔ candidateRank a < candidateRank b := by
  unfold betterCandidate
  simp only [candidateRank, Prod.Lex.toLex_lt_toLex]
  split_ifs <;> simp_all

/-- R56: an instance may answer a request. -/
theorem State.isCandidate_iff (s : State) (r : Request) (t : TypeRec) (i : InstRec) : s.isCandidate r t i = true ↔
    i.type = r.type ∧ t.held = false ∧ neededLife r t.budget ≤ i.life ∧
      ((i.custody = .ready ∧ ∃ c p, i.loc = .pocket c p ∧ (s.pocket c p).enabled = true ∧ (s.pocket c p).baseline ≠ none ∧
          (s.pocket c p).state ≠ .fault ∧ tget s.isc.latePicks (pocketKey c p) = none) ∨
        (i.custody = .staged ∧ i.loc = .bench ∧ r.prio = .urgent)) := by
  have hspot : (match i.custody, i.loc with
      | .ready, .pocket c p => (s.pocket c p).sensing && (tget s.isc.latePicks (pocketKey c p)).isNone
      | .staged, .bench => r.prio == .urgent
      | _, _ => false) = true ↔
      (i.custody = .ready ∧ ∃ c p, i.loc = .pocket c p ∧ (s.pocket c p).enabled = true ∧ (s.pocket c p).baseline ≠ none ∧
          (s.pocket c p).state ≠ .fault ∧ tget s.isc.latePicks (pocketKey c p) = none) ∨
        (i.custody = .staged ∧ i.loc = .bench ∧ r.prio = .urgent) := by
    split
    next c p hc hl => simp [hc, hl, Pocket.sensing, Option.isSome_iff_ne_none, and_assoc]
    next hc hl => simp [hc, hl]
    next hpocket hbench =>
      refine iff_of_false (by simp) ?_
      rintro (⟨hc, c, p, hl, -⟩ | ⟨hc, hl, -⟩)
      · exact hpocket c p hc hl
      · exact hbench hc hl
  unfold State.isCandidate
  rw [Bool.and_eq_true, Bool.and_eq_true, Bool.and_eq_true, decide_eq_true_eq, decide_eq_true_eq, Bool.not_eq_true', and_assoc, and_assoc]
  exact and_congr_right' (and_congr_right' (and_congr_right' hspot))

/-- R56: none is chosen only where there is no candidate. -/
theorem State.chooseCandidate_eq_none (s : State) (r : Request) : s.chooseCandidate r = none ↔
    ∀ t, s.type r.type = some t → ∀ e ∈ s.trg.insts, s.isCandidate r t e.2 = false := by
  unfold State.chooseCandidate
  cases ht : s.type r.type with
  | none => simp
  | some t =>
    dsimp only
    rw [foldl_choice_eq_none (fun a e => by cases a <;> dsimp only <;> [exact ⟨_, rfl⟩; (split <;> exact ⟨_, rfl⟩)]),
      List.filter_eq_nil_iff]
    simp

/-- R56: no candidate ranks before the one chosen. -/
theorem State.chooseCandidate_least {s : State} {r : Request} {x : Nat × InstRec} (h : s.chooseCandidate r = some x) {t : TypeRec}
    (ht : s.type r.type = some t) {e : Nat × InstRec} (he : e ∈ s.trg.insts) (hc : s.isCandidate r t e.2 = true) :
    candidateRank x ≤ candidateRank e := by
  unfold State.chooseCandidate at h
  rw [ht] at h
  refine foldl_least candidateRank (fun _ => rfl) (fun b e => ?_) _ h e (List.mem_filter.2 ⟨he, hc⟩)
  dsimp only
  simp only [betterCandidate_iff]

/-! ### Put-away -/

theorem Pocket.suitable_iff (p : Pocket) (z : Zone) :
    p.suitable z = true ↔ p.state = .empty ∧ p.enabled = true ∧ p.baseline ≠ none ∧ p.zone = z := by
  simp [Pocket.suitable, Option.isSome_iff_ne_none, and_assoc]

/-- The keys of the pockets that a put-away may take, in their order. -/
def State.suitableKeys (s : State) (z : Zone) : List Nat := (s.psc.pockets.filter (fun e => e.2.suitable z)).map (·.1)

theorem State.suitablePocket_eq (s : State) (z : Zone) (home : Option Nat) : s.suitablePocket z home =
    (home.bind (fun c => (s.suitableKeys z).find? (fun k => keyCabinet k == c))).or (s.suitableKeys z).head? := by
  unfold State.suitablePocket
  dsimp only
  split
  next k h => exact (congrArg (fun o : Option Nat => o.or (s.suitableKeys z).head?) h).symm
  next h => exact (congrArg (fun o : Option Nat => o.or (s.suitableKeys z).head?) h).symm

theorem State.suitableKeys_pairwise {s : State} (h : tableSorted s.psc.pockets = true) (z : Zone) : (s.suitableKeys z).Pairwise (· < ·) :=
  (tableSorted_iff _).1 (tableSorted_filter _ h)

/-- A pocket is suitable exactly where its key stands among the keys; a pocket not listed is as after power-on, without a baseline. -/
theorem State.mem_suitableKeys {s : State} (h : tableSorted s.psc.pockets = true) (z : Zone) (key : Nat) :
    key ∈ s.suitableKeys z ↔ (s.pocket (keyCabinet key) (keyPocket key)).suitable z = true := by
  unfold State.suitableKeys State.pocket
  rw [pocketKey_keys]
  constructor
  · intro hk
    obtain ⟨e, he, rfl⟩ := List.mem_map.1 hk
    obtain ⟨hin, hs⟩ := List.mem_filter.1 he
    rwa [dget_of_mem h hin]
  · intro hs
    unfold dget at hs
    cases hk : tget s.psc.pockets key with
    | none =>
      rw [hk] at hs
      exact absurd rfl ((Pocket.suitable_iff _ _).1 hs).2.2.1
    | some r =>
      rw [hk] at hs
      exact List.mem_map.2 ⟨(key, r), List.mem_filter.2 ⟨mem_of_tget hk, hs⟩, rfl⟩

theorem State.pocketKey_mem_suitableKeys {s : State} (h : tableSorted s.psc.pockets = true) {z : Zone} {c p : Nat}
    (hs : (s.pocket c p).suitable z = true) : pocketKey c p ∈ s.suitableKeys z := by
  rw [State.mem_suitableKeys h, State.pocket, pocketKey_keys]
  exact hs

/-- R68: a pocket of the home cabinet is taken where one is suitable, the lowest of them. -/
theorem State.suitablePocket_home {s : State} (h : tableSorted s.psc.pockets = true) {z : Zone} {home : Option Nat} {key b c : Nat}
    (hk : s.suitablePocket z home = some key) (hb : b ∈ s.suitableKeys z) (hbc : keyCabinet b = c) (hc : some c = home) :
    some (keyCabinet key) = home ∧ key ≤ b := by
  subst hc
  rw [State.suitablePocket_eq, Option.bind_some] at hk
  cases hf : (s.suitableKeys z).find? (fun k => keyCabinet k == c) with
  | none =>
    have := List.find?_eq_none.1 hf b hb
    simp [hbc] at this
  | some a =>
    rw [hf, Option.some_or] at hk
    cases hk
    have hkey := List.find?_some hf
    rw [beq_iff_eq] at hkey
    exact ⟨congrArg some hkey, find?_le_of_pairwise (State.suitableKeys_pairwise h z) hf hb (by simp [hbc])⟩

/-- R68: where no pocket of the home cabinet is suitable, the lowest of all is taken. -/
theorem State.suitablePocket_away {s : State} (h : tableSorted s.psc.pockets = true) {z : Zone} {home : Option Nat} {key b : Nat}
    (hk : s.suitablePocket z home = some key) (haway : ∀ b ∈ s.suitableKeys z, some (keyCabinet b) ≠ home)
    (hb : b ∈ s.suitableKeys z) : key ≤ b := by
  rw [State.suitablePocket_eq] at hk
  have hnone : home.bind (fun c => (s.suitableKeys z).find? (fun k => keyCabinet k == c)) = none := by
    cases home with
    | none => rfl
    | some c =>
      refine List.find?_eq_none.2 fun b hb hbc => haway b hb ?_
      rw [beq_iff_eq] at hbc
      rw [hbc]
  rw [hnone, Option.none_or] at hk
  exact head?_le_of_pairwise (State.suitableKeys_pairwise h z) hk hb

theorem State.suitablePocket_eq_none (s : State) (z : Zone) (home : Option Nat) :
    s.suitablePocket z home = none ↔ s.suitableKeys z = [] := by
  rw [State.suitablePocket_eq]
  constructor
  · intro h
    exact List.head?_eq_none_iff.1 (Option.or_eq_none_iff.1 h).2
  · intro h
    rw [h]
    cases home <;> rfl

/-- R68: the pocket taken is suitable. -/
theorem State.suitablePocket_mem {s : State} {z : Zone} {home : Option Nat} {key : Nat} (h : s.suitablePocket z home = some key) :
    key ∈ s.suitableKeys z := by
  rw [State.suitablePocket_eq] at h
  rcases Option.or_eq_some_iff.1 h with h | ⟨-, h⟩
  · obtain ⟨c, -, hc⟩ := Option.bind_eq_some_iff.1 h
    exact List.mem_of_find?_eq_some hc
  · exact List.mem_of_head? h

/-- Settles O23, by the fold over the candidates and the search through the keys of the suitable pockets. -/
theorem allocationAndPutAwayChoices : Obligations.AllocationAndPutAwayChoices := by
  refine ⟨fun s r => ?_, fun s z home h => ?_⟩
  · intro candidate
    have hcandidate (i : InstRec) : candidate i ↔ ∃ t, s.type r.type = some t ∧ s.isCandidate r t i = true := by
      simp only [State.isCandidate_iff]
      constructor
      · rintro ⟨htype, t, ht, hheld, hlife, hspot⟩
        exact ⟨t, ht, htype, hheld, hlife, hspot⟩
      · rintro ⟨t, ht, htype, hheld, hlife, hspot⟩
        exact ⟨htype, t, ht, hheld, hlife, hspot⟩
    refine ⟨?_, fun n i hchosen => ?_⟩
    · rw [State.chooseCandidate_eq_none]
      simp only [hcandidate]
      constructor
      · rintro hnone e he ⟨t, ht, hc⟩
        rw [hnone t ht e he] at hc
        cases hc
      · exact fun hnone t ht e he => Bool.eq_false_iff.2 fun hc => hnone e he ⟨t, ht, hc⟩
    · obtain ⟨hin, t, ht, hc⟩ := State.chooseCandidate_spec hchosen
      refine ⟨hin, (hcandidate i).2 ⟨t, ht, hc⟩, fun m j hj hjc => ?_⟩
      obtain ⟨t', ht', hjc⟩ := (hcandidate j).1 hjc
      exact (candidateRank_le _ _).1 (State.chooseCandidate_least hchosen ht' hj hjc)
  · intro suits
    have hsuits (c p : Nat) : suits c p ↔ (s.pocket c p).suitable z = true := (Pocket.suitable_iff _ _).symm
    have hmem {c p : Nat} (hs : suits c p) : pocketKey c p ∈ s.suitableKeys z :=
      State.pocketKey_mem_suitableKeys h ((hsuits c p).1 hs)
    have hkeys {key : Nat} (hkey : key ∈ s.suitableKeys z) :
        suits (keyCabinet key) (keyPocket key) ∧ 1 ≤ keyPocket key ∧ keyPocket key ≤ 64 :=
      ⟨(hsuits _ _).2 ((State.mem_suitableKeys h z key).1 hkey), by unfold keyPocket; omega, by unfold keyPocket; omega⟩
    refine ⟨?_, fun key hkey => ⟨(hkeys (State.suitablePocket_mem hkey)).1, fun c p h1 h2 hs hc => ?_, fun haway c p h1 h2 hs => ?_⟩⟩
    · rw [State.suitablePocket_eq_none]
      constructor
      · intro hnil c p h1 h2 hs
        have := hmem hs
        rw [hnil] at this
        cases this
      · intro hnone
        refine List.eq_nil_iff_forall_not_mem.2 fun key hkey => ?_
        obtain ⟨hs, h1, h2⟩ := hkeys hkey
        exact hnone _ _ h1 h2 hs
    · exact State.suitablePocket_home h hkey (hmem hs) (keyCabinet_pocketKey h1 h2) hc
    · refine State.suitablePocket_away h hkey (fun b hb => ?_) (hmem hs)
      obtain ⟨hbs, hb1, hb2⟩ := hkeys hb
      exact haway _ _ hb1 hb2 hbs

/-! ### The presetting worklist -/

/-- Insertion behind the elements with an equal key keeps the order of the keys, and of arrival where keys are equal. -/
theorem insertBy_stable {α : Type} (key : α → Nat) {R : α → α → Prop} {xs : List α} {x : α}
    (h : xs.Pairwise (fun a b => key a < key b ∨ (key a = key b ∧ R a b))) (hx : ∀ y ∈ xs, R y x) :
    (insertBy key x xs).Pairwise (fun a b => key a < key b ∨ (key a = key b ∧ R a b)) := by
  induction xs with
  | nil => exact List.pairwise_singleton _ x
  | cons y rest ih =>
    obtain ⟨hy, hrest⟩ := List.pairwise_cons.1 h
    unfold insertBy
    split
    next hlt =>
      refine List.pairwise_cons.2 ⟨fun z hz => .inl ?_, h⟩
      rcases List.mem_cons.1 hz with rfl | hz
      · exact hlt
      · rcases hy z hz with hz | ⟨hz, -⟩ <;> omega
    next hge =>
      refine List.pairwise_cons.2 ⟨fun z hz => ?_, ih hrest fun z hz => hx z (List.mem_cons_of_mem _ hz)⟩
      rcases List.mem_cons.1 ((insertBy_perm key x rest).mem_iff.1 hz) with rfl | hz
      · rcases Nat.lt_or_eq_of_le (not_lt.1 hge) with hlt | heq
        · exact .inl hlt
        · exact .inr ⟨heq, hx y List.mem_cons_self⟩
      · exact hy z hz

/-- Sorting by a key keeps the order of the list where keys are equal. -/
theorem sortBy_stable {α : Type} (key : α → Nat) {R : α → α → Prop} {xs : List α} (h : xs.Pairwise R) :
    (sortBy key xs).Pairwise (fun a b => key a < key b ∨ (key a = key b ∧ R a b)) := by
  have hfold (xs acc : List α) (hxs : xs.Pairwise R) (hcross : ∀ y ∈ acc, ∀ x ∈ xs, R y x)
      (hacc : acc.Pairwise (fun a b => key a < key b ∨ (key a = key b ∧ R a b))) :
      (xs.foldl (fun acc x => insertBy key x acc) acc).Pairwise (fun a b => key a < key b ∨ (key a = key b ∧ R a b)) := by
    induction xs generalizing acc with
    | nil => exact hacc
    | cons x rest ih =>
      obtain ⟨hx, hrest⟩ := List.pairwise_cons.1 hxs
      refine ih _ hrest (fun y hy z hz => ?_) (insertBy_stable key hacc fun y hy => hcross y hy x List.mem_cons_self)
      rcases List.mem_cons.1 ((insertBy_perm key x acc).mem_iff.1 hy) with rfl | hy
      · exact hx z hz
      · exact hcross y hy z (List.mem_cons_of_mem _ hz)
  exact hfold xs [] h (by simp) List.Pairwise.nil

/-- R73: an instance of the worklist is UNMEASURED and its type is not held. -/
theorem State.worklist_perm (s : State) :
    s.worklist.Perm (s.trg.insts.filter (fun e => decide (e.2.custody = .unmeasured) && !s.typeHeld e.2.type)) := by
  refine (sortBy_perm _ _).trans (List.Perm.of_eq (List.filter_congr fun e _ => ?_))
  rw [beq_eq_decide]

theorem State.worklist_pairwise {s : State} (h : tableSorted s.trg.insts = true) :
    s.worklist.Pairwise (fun a b => s.worklistKey a.2 < s.worklistKey b.2 ∨ (s.worklistKey a.2 = s.worklistKey b.2 ∧ a.1 < b.1)) :=
  sortBy_stable _ ((List.pairwise_map.1 ((tableSorted_iff _).1 h)).sublist List.filter_sublist)

/-- Settles O55: the worklist's key orders as its three parts do, since the needed-by of a request fits in its share. -/
theorem worklistInOrder : Obligations.WorklistInOrder := by
  intro s tag body htakes hsorted hneeded first rank needed spot ahead
  have hfirst (type : Nat) : s.rankingRequest type = first type := by
    refine congrArg (fun p => s.isc.queue.find? p) (funext fun r => ?_)
    rw [Bool.decide_and, beq_eq_decide, beq_eq_decide]
  have hbound (i : InstRec) : needed i ≤ 4294967296 := by
    dsimp only [needed]
    split
    next r hr =>
      cases hb : r.neededBy with
      | none => exact le_rfl
      | some b => exact (hneeded r (List.mem_of_find?_eq_some hr) b hb).trans (by decide)
    next => exact Nat.zero_le _
  have hkey (i : InstRec) : s.worklistKey i = (rank i * 8589934592 + needed i) * 2 + spot i := by
    unfold State.worklistKey
    rw [hfirst]
    dsimp only [rank, needed]
    cases first i.type <;> rfl
  have hspot (i : InstRec) : spot i ≤ 1 := by
    dsimp only [spot]
    split <;> decide
  refine ⟨s.worklist, s.worklist_perm, (State.worklist_pairwise hsorted).imp fun {a b} hab => ?_, ?_⟩
  · have := hbound a.2
    have := hbound b.2
    have := hspot a.2
    have := hspot b.2
    rw [hkey, hkey] at hab
    dsimp only [ahead]
    omega
  · simp only [← hfirst]
    unfold exec execNextToMeasure
    exact readCommand_answers htakes _

end Sys2Proof.Machine

/-! O18: what operations of issue report, the end of a live request, and CANCEL (R66). -/

namespace Sys2Proof.Machine

/-! ### The reports of an operation of issue -/

/-- Operations of issue lead from the one state to the other and hand the port these reports. -/
structure State.Tells (s t : State) (rs : List Report) : Prop where
  issues : s.Issues t
  svp : t.svp = s.svp.handed s.now rs

namespace State.Tells

variable {s t u : State} {rs qs : List Report}

theorem refl (s : State) : s.Tells s [] := ⟨.refl s, rfl⟩

theorem trans (h : s.Tells t rs) (k : t.Tells u qs) : s.Tells u (rs ++ qs) :=
  ⟨h.issues.trans k.issues, by rw [k.svp, h.svp, h.issues.now_eq, Svp.handed_append]⟩

/-- Every operation of issue hands the port some reports. -/
theorem of_issues (h : s.Issues t) : ∃ rs, s.Tells t rs := by
  obtain ⟨rs, hrs⟩ := h.1
  exact ⟨rs, h, hrs⟩

theorem setIsc (h : s.Tells t rs) (r : Isc) (hr : r = { r with
    pickTimeout := t.isc.pickTimeout, expiryGrace := t.isc.expiryGrace, putawayTimeout := t.isc.putawayTimeout }) :
    s.Tells (t.setIsc r) rs := ⟨h.issues.setIsc r hr, h.svp⟩

theorem report (h : s.Tells t rs) (r : Report) : s.Tells (t.report r) (rs ++ [r]) :=
  h.trans ⟨(State.Issues.refl t).report r, rfl⟩

theorem changeRequest (h : s.Tells t rs) (r : Request) (cause : ReqCause) :
    s.Tells (t.changeRequest r cause) (rs ++ [.requestState r cause]) := h.trans ⟨(State.Issues.refl t).changeRequest r cause, rfl⟩

theorem endRequest (h : s.Tells t rs) (r : Request) (state : ReqState) (cause : ReqCause) :
    s.Tells (t.endRequest r state cause) (rs ++ [.requestState { r with state := state } cause]) :=
  h.trans ⟨(State.Issues.refl t).endRequest r state cause, rfl⟩

theorem releaseTool {n : Nat} {i : InstRec} (hn : s.tool n = some i) (h : i.custody ≠ .issued) (redirected : Bool) :
    s.Tells (s.releaseTool n redirected) [i.releaseReport n redirected] :=
  ⟨(State.Issues.refl s).releaseTool n redirected, (State.releaseTool_does hn h redirected).2.2.2⟩

/-- Beside its reports the port is as it was, and beside the instances, the crib and issue so is the part. -/
theorem raises (h : s.Tells t rs) : s.Raises t rs := by
  obtain ⟨hissues, hsvp⟩ := h
  unfold State.Raises
  rw [← hsvp]
  exact hissues.runs.2

/-- A command that is taken at once and runs operations of issue. -/
theorem answers {kind tag : Byte} {body : List Byte} {run : State → State × Reply} {r : Reply}
    (hu : (s.taken kind tag body).Tells u rs) (h : s.takesNow kind tag body = true) (hr : run (s.taken kind tag body) = (u, r)) :
    ∃ t, hostCommand kind tag body run s = .next t ∧ s.ToolsOnly t ∧ t.hoe = s.hoe ∧ t.trg = u.trg ∧ t.isc = u.isc ∧
      t.svp = s.svpAnswered kind tag body rs r :=
  ⟨_, hostCommand_runs h hr hu.svp, hu.issues.runs.toolsOnly _, hu.issues.hoe_eq, rfl, rfl, rfl⟩

/-- An event that runs operations of issue. -/
theorem happens {f : State → State} (hu : s.quiet.Tells (f s.quiet) rs) :
    ∃ t, event f s = .next t ∧ s.ToolsOnly t ∧ t.hoe = s.hoe ∧ t.trg = (f s.quiet).trg ∧ t.isc = (f s.quiet).isc ∧
      t.svp = s.svpReported rs :=
  ⟨_, event_handed hu.svp, hu.issues.runs.toolsOnly_of_quiet _, hu.issues.hoe_eq, rfl, rfl, rfl⟩

end State.Tells

/-! ### What stands beside one instance -/

theorem State.AllPassedBy.othersPassed {s t : State} (h : s.AllPassedBy t) (n : Nat) : s.OthersPassedBy t n := fun m _ => h m

theorem State.othersStand_setTool (s : State) (n : Nat) (i : InstRec) {t : State} (h : t.trg = (s.setTool n i).trg) :
    s.OthersStand t n := fun m hm => (State.tool_of_trg h m).trans ((State.tool_setTool s n m i).trans (if_neg hm))

/-! ### Requests by number -/

theorem State.request_none_iff {s : State} {k : Nat} : s.request k = none ↔ ∀ r ∈ s.isc.queue, r.number ≠ k := by
  simp [State.request]

theorem State.mem_of_request {s : State} {k : Nat} {r : Request} (h : s.request k = some r) : r ∈ s.isc.queue :=
  List.mem_of_find?_eq_some h

/-- A number that no live request bears is borne by none after a pass. -/
theorem State.request_allocationPass_none {s : State} {k : Nat} (h : s.request k = none) : s.allocationPass.request k = none :=
  State.request_gone (s.allocationPass_misses k) h

theorem State.request_afterRelease_none {s : State} {k : Nat} (hs : tableSorted s.trg.insts = true) (n : Nat)
    (h : s.request k = none) : (s.afterRelease n).request k = none :=
  State.request_gone ((State.afterRelease_does hs n).2.2 k) h

/-! ### The release of a live request's reservation -/

/-- R61, R19: the custody in which a release leaves an instance. -/
def InstRec.custodyReleased (i : InstRec) : Custody :=
  if i.life = 0 then .regrindDue else if i.loc = .bench then .staged else .ready

/-- The instance lies in a pocket or at the bench, where reservations stand. -/
def InstRec.Reservable (i : InstRec) : Prop := i.loc = .bench ∨ ∃ c p, i.loc = .pocket c p

theorem InstRec.Reservable.released {i : InstRec} (h : i.Reservable) :
    i.released true = { i with custody := i.custodyReleased, link := none, qcause := none } := by
  unfold InstRec.custodyReleased
  rcases h with hl | ⟨c, p, hl⟩
  · rw [InstRec.released_bench hl, if_pos hl]
  · rw [InstRec.released_pocket hl, if_neg (show i.loc ≠ .bench by simp [hl])]

theorem InstRec.Reservable.releaseReport {i : InstRec} (h : i.Reservable) (hc : i.custody = .reserved) (n : Nat) :
    i.releaseReport n true = .custodyChange n i.type (some .reserved) i.loc (some i.custodyReleased) i.loc .release none :=
  InstRec.releaseReport_of hc h.released

/-- The state in which a live request holds no reservation any more (R61). -/
def State.releasing (s : State) (v : Request) : State :=
  match v.state, v.tool with
  | .reserved, some n => s.releaseTool n true
  | _, _ => s

/-- A live request as it leaves the queue once its reservation is released. -/
def Request.bare (v : Request) : Request := { v with tool := none, reserveTick := none }

theorem State.releasing_reserved (s : State) {v : Request} {n : Nat} (hst : v.state = .reserved) (hn : v.tool = some n) :
    s.releasing v = s.releaseTool n true := by
  simp only [State.releasing, hst, hn]

theorem State.releasing_open (s : State) {v : Request} (hst : v.state ≠ .reserved) : s.releasing v = s := by
  unfold State.releasing
  split
  next h _ => exact absurd h hst
  next => rfl

/-- R61: what the release of a live request's reservation reports first, and what it leaves. -/
theorem State.Releases.releasing {s : State} {v : Request} {n : Nat} {rel : List Report} (h : s.Releases v n rel) :
    s.Tells (s.releasing v) rel ∧ s.OthersStand (s.releasing v) n ∧ (s.releasing v).isc = s.isc ∧
      (tableSorted s.trg.insts = true → tableSorted (s.releasing v).trg.insts = true) := by
  rcases h with ⟨hst, rfl⟩ | ⟨hst, hn, i, hi, hc, hl, rfl⟩
  · rw [s.releasing_open (by rcases hst with h | h <;> simp [h])]
    exact ⟨.refl s, fun _ _ => rfl, rfl, id⟩
  · rw [s.releasing_reserved hst hn]
    have hissued : i.custody ≠ .issued := by simp [hc]
    obtain ⟨htrg, hisc, -, -⟩ := State.releaseTool_does hi hissued true
    have htells := State.Tells.releaseTool hi hissued true
    rw [InstRec.Reservable.releaseReport hl hc] at htells
    refine ⟨htells, s.othersStand_setTool n _ htrg, hisc, fun hs => ?_⟩
    rw [htrg]
    exact tableSorted_tset _ _ hs

/-! ### Cancelling -/

theorem State.cancelRequest_reserved (s : State) {r : Request} {n : Nat} (cause : ReqCause) (hst : r.state = .reserved)
    (hn : r.tool = some n) :
    s.cancelRequest r cause = ((s.releasing r).endRequest r.bare .cancelled cause).afterRelease n := by
  unfold State.cancelRequest
  rw [s.releasing_reserved hst hn]
  simp only [hst, hn]
  rfl

theorem State.cancelRequest_open (s : State) {r : Request} (cause : ReqCause) (hst : r.state ≠ .reserved) :
    s.cancelRequest r cause = s.endRequest r .cancelled cause := by
  unfold State.cancelRequest
  split
  next h _ => exact absurd h hst
  next => rfl

/-- R66: a live request whose reservation is released is cancelled, its number free. -/
theorem State.cancelRequest_releases {s : State} {r : Request} {n : Nat} {rel : List Report} (cause : ReqCause)
    (hs : tableSorted s.trg.insts = true) (h : s.Releases r n rel) (hst : r.state = .reserved) :
    ∃ rs, (s.cancelRequest r cause).request r.number = none ∧ s.OthersPassedBy (s.cancelRequest r cause) n ∧
      ((s.releasing r).AllPassedBy (s.cancelRequest r cause)) ∧
      s.Tells (s.cancelRequest r cause) (rel ++ .requestState { r.bare with state := .cancelled } cause :: rs) := by
  have hn : r.tool = some n := by
    rcases h with ⟨hopen | hopen, -⟩ | ⟨-, hn, -⟩
    · rw [hst] at hopen
      cases hopen
    · rw [hst] at hopen
      cases hopen
    · exact hn
  obtain ⟨htells, hstand, -, hsorted⟩ := h.releasing
  have hended := htells.endRequest r.bare .cancelled cause
  have hsorted : tableSorted ((s.releasing r).endRequest r.bare .cancelled cause).trg.insts = true := hsorted hs
  obtain ⟨hpass, -, -⟩ := State.afterRelease_does hsorted n
  obtain ⟨rs, hrs⟩ := State.Tells.of_issues ((State.Issues.refl ((s.releasing r).endRequest r.bare .cancelled cause)).afterRelease n)
  have htold := hended.trans hrs
  rw [List.append_assoc, List.singleton_append] at htold
  rw [s.cancelRequest_reserved cause hst hn]
  exact ⟨rs, State.request_afterRelease_none hsorted n State.request_endRequest, hpass.others hstand, hpass, htold⟩

theorem within_byte {body : List Byte} {off : Nat} (h : fieldAt body off 1 ≠ 0) : within 1 255 (fieldAt body off 1) = true :=
  within_iff.2 ⟨Nat.pos_of_ne_zero h, Nat.le_of_lt_succ (fieldAt_byte_lt body off)⟩

/-! ### Commands on a live request -/

section

variable {n : Nat} {f : State → Request → State × Reply} {s : State}

theorem withRequest_range (h : n = 0) : withRequest n f s = (s, .plain .range) := if_pos (by rw [h]; rfl)

theorem withRequest_absent (h : within 1 255 n = true) (hn : s.request n = none) : withRequest n f s = (s, .plain .noSuch) := by
  simp only [withRequest, h, hn]
  rfl

theorem withRequest_live {r : Request} (h : within 1 255 n = true) (hn : s.request n = some r) : withRequest n f s = f s r := by
  simp only [withRequest, h, hn]
  rfl

end

/-- CANCEL on a live request (R66). -/
def State.cancelLive (s : State) (r : Request) : State × Reply :=
  if r.state = .issued then (s, .plain .state) else (s.cancelRequest r .cancelledHost, .plain .ok)

theorem State.cancelLive_open (s : State) {r : Request} (h : r.state = .queued ∨ r.state = .waitingStock) :
    s.cancelLive r = (s.endRequest r .cancelled .cancelledHost, .plain .ok) := by
  unfold State.cancelLive
  rw [if_neg (by rcases h with h | h <;> simp [h]), s.cancelRequest_open _ (by rcases h with h | h <;> simp [h])]

/-- Settles O18: the release of the reservation, the end of the request, then what the pass and put-away add. -/
theorem cancelEndsRequest : Obligations.CancelEndsRequest := by
  intro s tag body htakes hs k
  have hexec : exec (.cancel tag body) s = hostCommand 0x19 tag body (whenRunning (withRequest k State.cancelLive)) s := rfl
  have hlive {r : Request} (hmode : s.svp.mode = .running) (hk : k ≠ 0) (hr : s.request k = some r) :
      whenRunning (withRequest k State.cancelLive) (s.taken 0x19 tag body) = (s.taken 0x19 tag body).cancelLive r :=
    (whenRunning_running hmode).trans (withRequest_live (s := s.taken 0x19 tag body) (within_byte hk) hr)
  rw [hexec]
  refine ⟨fun hmode => hostCommand_answers htakes (whenRunning_loading hmode), fun hmode hk => ?_, fun hmode hk hnone => ?_,
    fun r hmode hk hr => ⟨fun hst => ?_, fun hst => ?_, fun n i hst hn hi hc hl => ?_⟩⟩
  · exact hostCommand_answers htakes ((whenRunning_running hmode).trans (withRequest_range hk))
  · exact hostCommand_answers htakes ((whenRunning_running hmode).trans (withRequest_absent (within_byte hk) hnone))
  · exact hostCommand_answers htakes ((hlive hmode hk hr).trans (if_pos hst))
  · rw [hostCommand_runs htakes ((hlive hmode hk hr).trans (State.cancelLive_open _ hst))
      (((State.Tells.refl _).endRequest r .cancelled .cancelledHost).svp), show k = r.number from (State.request_number hr).symm]
    rfl
  · have hl : i.Reservable := hl
    have hrel : (s.taken 0x19 tag body).Releases r n
        [.custodyChange n i.type (some .reserved) i.loc (some i.custodyReleased) i.loc .release none] :=
      .inr ⟨hst, hn, i, hi, hc, hl, rfl⟩
    obtain ⟨rs, hgone, hothers, hpass, htells⟩ := State.cancelRequest_releases (s := s.taken 0x19 tag body) .cancelledHost hs hrel hst
    obtain ⟨t, ht, htools, hhoe, htrg, hisc, hsvp⟩ :=
      htells.answers htakes ((hlive hmode hk hr).trans (if_neg (by simp [hst])))
    have hreleased : ((s.taken 0x19 tag body).releasing r).tool n = some (i.released true) := by
      rw [State.releasing_reserved _ hst hn, State.tool_of_trg (State.releaseTool_does (s := s.taken 0x19 tag body) hi (by simp [hc]) true).1, State.tool_setTool,
        if_pos rfl]
    obtain ⟨j, hj, hij⟩ := (hpass n).2 _ hreleased
    rw [hl.released] at hij
    refine ⟨t, rs, j, ht, ?_, (State.tool_of_trg htrg n).trans hj, hij, fun m hm => ?_, htools, hhoe, hsvp⟩
    · rw [State.request_of_queue (congrArg Isc.queue hisc), show k = r.number from (State.request_number hr).symm]
      exact hgone
    · rw [State.tool_of_trg htrg]
      exact hothers m hm

end Sys2Proof.Machine

/-! O19: HAND_OUT (R60), BENCH_RETURN (R72) and SET_ISSUE (R74). -/

namespace Sys2Proof.Machine

/-! ### HAND_OUT -/

/-- The transition of HAND_OUT (R60). -/
def handOutMove (d : Dest) : Move := { cause := .handOut, custody := .issued, loc := d.transit }

theorem InstRec.moved_handOut {i : InstRec} (h : i.custody = .reserved) (d : Dest) :
    i.moved (handOutMove d) = { i with custody := .issued, qcause := none, loc := d.transit } := by
  simp [InstRec.moved, handOutMove, redirect_issued, h]

/-- The request of a reservation that is taken as picked (R59, R60). -/
def Request.asIssued (r : Request) : Request := { r with state := .issued, reserveTick := none }

theorem State.handOut_refused {s : State} {r : Request} (h : r.state ≠ .reserved) : s.handOut r = (s, .plain .state) := by
  unfold State.handOut
  split
  next hst _ => exact absurd hst h
  next => rfl

/-- An instance reserved at the bench is handed out (R60). -/
def State.handedOut (s : State) (r : Request) (n : Nat) (i : InstRec) : State :=
  ((s.move n i (handOutMove r.dest)).changeRequest r.asIssued .handOut).afterPick r.asIssued n

theorem State.handOut_reserved {s : State} {r : Request} {n : Nat} {i : InstRec} (hst : r.state = .reserved) (hn : r.tool = some n)
    (hi : s.tool n = some i) :
    s.handOut r = if i.loc = .bench then (s.handedOut r n i, .plain .ok) else (s, .plain .state) := by
  unfold State.handOut
  split
  next m _ hm =>
    cases hn.symm.trans hm
    simp only [hi]
    rfl
  next h => exact (h n hst hn).elim

/-- R60: a bench reservation is taken as picked. -/
theorem State.handedOut_does {s : State} {r : Request} {n : Nat} {i : InstRec} (hc : i.custody = .reserved) (hl : i.loc = .bench) :
    (∃ o, (s.handedOut r n i).tool n = some { i with custody := .issued, loc := r.dest.transit, qcause := none, owed := o }) ∧
      s.OthersStand (s.handedOut r n i) n ∧ (s.handedOut r n i).psc = s.psc ∧ s.Runs (s.handedOut r n i) ∧
      ∃ rs, (s.handedOut r n i).svp = s.svp.handed s.now
        (.custodyChange n i.type (some .reserved) .bench (some .issued) r.dest.transit .handOut i.link ::
          .requestState r.asIssued .handOut :: rs) := by
  let v := (s.move n i (handOutMove r.dest)).changeRequest r.asIssued .handOut
  have hmoved := InstRec.moved_handOut hc r.dest
  have hvtool (m : Nat) : v.tool m = if m = n then some (i.moved (handOutMove r.dest)) else s.tool m :=
    State.tool_move s n m i (handOutMove r.dest)
  have hvsvp : v.svp = s.svp.handed s.now [changeReport n i (i.moved (handOutMove r.dest)) .handOut, .requestState r.asIssued .handOut] :=
    rfl
  have hvpsc : v.psc = s.psc := rfl
  have hvruns : s.Runs v := ((State.Runs.refl s).move n i (handOutMove r.dest)).changeRequest r.asIssued .handOut
  change (∃ o, (v.afterPick r.asIssued n).tool n = _) ∧ s.OthersStand (v.afterPick r.asIssued n) n ∧
    (v.afterPick r.asIssued n).psc = s.psc ∧ s.Runs (v.afterPick r.asIssued n) ∧ ∃ rs, (v.afterPick r.asIssued n).svp = _
  clear_value v
  obtain ⟨hpsc, -, htouches, htool, -, -⟩ := v.afterPick_does r.asIssued n
  obtain ⟨⟨rs, hrs⟩, -⟩ := (State.Runs.refl v).afterPick r.asIssued n
  obtain ⟨o, ho⟩ := htool _ ((hvtool n).trans (if_pos rfl))
  rw [hmoved] at ho
  refine ⟨⟨o, ho⟩, fun m hm => (htouches.2 m hm).trans ((hvtool m).trans (if_neg hm)), hpsc.trans hvpsc,
    hvruns.afterPick r.asIssued n, rs, ?_⟩
  rw [hrs, hvsvp, hvruns.now_eq, ← Svp.handed_append, hmoved, changeReport, hc, hl]
  rfl

/-! ### BENCH_RETURN -/

/-- The transition of BENCH_RETURN (R72). -/
def benchReturnMove : Move := { cause := .benchReturn, custody := .returning, loc := .backBench }

/-- The record of an instance brought back to the bench (R72). -/
def InstRec.broughtBack (i : InstRec) : InstRec :=
  { i with custody := .returning, loc := .backBench, link := none, qcause := none, owed := false }

theorem InstRec.moved_benchReturn {i : InstRec} (h : i.custody = .issued) : i.moved benchReturnMove = i.broughtBack := by
  by_cases hl : i.life = 0 <;> simp [InstRec.moved, benchReturnMove, InstRec.broughtBack, redirect, hl, h]

/-- R72: an instance ISSUED to the bench comes back. -/
theorem State.benchReturn_does {s : State} {n : Nat} {i : InstRec} (hc : i.custody = .issued) :
    let u := (((s.move n i benchReturnMove).leftIssued n).loseRequest i.link).announce n
    u.tool n = some i.broughtBack ∧ s.OthersPassedBy u n ∧ s.Runs u ∧
      ∃ rs, u.svp = s.svp.handed s.now
        (.custodyChange n i.type (some .issued) i.loc (some .returning) .backBench .benchReturn none :: rs) := by
  intro u
  let v := s.move n i benchReturnMove
  let w := (v.leftIssued n).loseRequest i.link
  have hvtool (m : Nat) : v.tool m = if m = n then some i.broughtBack else s.tool m := by
    rw [← InstRec.moved_benchReturn hc]
    exact State.tool_move s n m i _
  have hvn : v.tool n = some i.broughtBack := (hvtool n).trans (if_pos rfl)
  have htrg : w.trg = (v.leftIssued n).trg := State.loseRequest_trg _ _
  have hwn : w.tool n = some i.broughtBack :=
    (State.tool_of_trg htrg n).trans ((State.SparesUnheld.leftIssued v n).2 n _ hvn rfl)
  have hquiet : u = w.tryPutaway n := State.announce_quiet hwn (by simp [InstRec.broughtBack]) (by simp [InstRec.broughtBack])
  have hutrg : u.trg = w.trg := by rw [hquiet, State.tryPutaway_trg]
  have hpass : v.AllPassedBy u :=
    ((State.HandsOff.refl v).leftIssued n).passes.trans (.of_trg (hutrg.trans htrg))
  have hvu : v.Runs u := (((State.Runs.refl v).leftIssued n).loseRequest _).announce n
  obtain ⟨⟨rs, hrs⟩, -⟩ := id hvu
  refine ⟨(State.tool_of_trg hutrg n).trans hwn, hpass.others fun m hm => (hvtool m).trans (if_neg hm),
    ((State.Runs.refl s).move n i benchReturnMove).trans hvu, rs, hrs.trans ?_⟩
  rw [show v.svp = s.svp.handed s.now [changeReport n i (i.moved benchReturnMove) .benchReturn] from rfl, show v.now = s.now from rfl,
    ← Svp.handed_append, InstRec.moved_benchReturn hc, changeReport, hc]
  rfl

theorem State.benchReturn_accepted {s : State} {n : Nat} {i : InstRec} (hc : i.custody = .issued) (hl : i.loc = .toBench) :
    s.benchReturn n i = ((((s.move n i benchReturnMove).leftIssued n).loseRequest i.link).announce n, .plain .ok) :=
  if_pos ⟨hc, hl⟩

/-! ### SET_ISSUE -/

/-- A fold whose every step leaves the state as it was. -/
theorem foldl_stands {α β : Type} {f : β → α → β} {s : β} {xs : List α} (h : ∀ x ∈ xs, f s x = s) : xs.foldl f s = s := by
  induction xs with
  | nil => rfl
  | cons x rest ih =>
    rw [List.foldl_cons, h x List.mem_cons_self]
    exact ih fun y hy => h y (List.mem_cons_of_mem _ hy)

/-- R62: the pick timeout of a request has run out. -/
theorem State.pickDue_iff (s : State) (r : Request) :
    s.pickDue r = true ↔ r.state = .reserved ∧ ∃ b ∈ r.reserveTick, b + s.isc.pickTimeout * 1000 ≤ s.tick := by
  unfold State.pickDue
  cases r.state <;> cases r.reserveTick <;> simp

theorem State.firePick_early {s : State} {k : Nat} (h : ∀ r ∈ s.isc.queue, s.pickDue r = false) : s.firePick k = s := by
  unfold State.firePick
  split
  next r hr => simp [h r (State.mem_of_request hr)]
  next => rfl

theorem State.firePutaway_early {s : State} {n : Nat} (h : ∀ e ∈ s.isc.assigned, s.putawayDue e.2 = false) : s.firePutaway n = s := by
  unfold State.firePutaway
  split
  next a ha => simp [h _ (mem_of_tget ha)]
  next => rfl

/-- R74: where nothing is past its timing, nothing times out. -/
theorem State.fireTimings_early {s : State} (hpick : ∀ r ∈ s.isc.queue, s.pickDue r = false)
    (hputaway : ∀ e ∈ s.isc.assigned, s.putawayDue e.2 = false) : s.fireTimings = s := by
  unfold State.fireTimings
  dsimp only
  rw [foldl_stands (s := s) fun _ _ => State.firePick_early hpick, foldl_stands fun _ _ => State.firePutaway_early hputaway]

theorem State.Issues.fireTimings (s : State) : s.Issues s.fireTimings := by
  unfold State.fireTimings
  exact ((State.Issues.refl s).foldl fun u number hu => hu.firePick number).foldl fun u n hu => hu.firePutaway n

/-- The settings of issue with the values given set (R74). -/
def Isc.timed (i : Isc) (pick grace putaway : Option Nat) : Isc :=
  { i with
    pickTimeout := pick.getD i.pickTimeout, expiryGrace := grace.getD i.expiryGrace, putawayTimeout := putaway.getD i.putawayTimeout }

/-- The values given are in their ranges (R74). -/
def TimingsInRange (pick grace putaway : Option Nat) : Prop :=
  (∀ v ∈ pick, 10 ≤ v ∧ v ≤ 600) ∧ (∀ v ∈ grace, v ≤ 3600) ∧ (∀ v ∈ putaway, 60 ≤ v ∧ v ≤ 1800)

/-- SET_ISSUE's test of a value that may be given. -/
theorem setting_fits_iff {lo hi : Nat} {v : Option Nat} : (match v with
    | some x => within lo hi x
    | none => true) = true ↔ ∀ x ∈ v, lo ≤ x ∧ x ≤ hi := by
  cases v with
  | none => simp
  | some x => simp [within_iff]

theorem State.setIssue_refused {s : State} {pick grace putaway : Option Nat} (h : ¬ TimingsInRange pick grace putaway) :
    s.setIssue pick grace putaway = (s, .plain .range) := by
  refine if_neg fun hfits => h ?_
  simp only [Bool.and_eq_true] at hfits
  obtain ⟨⟨hpick, hgrace⟩, hputaway⟩ := hfits
  exact ⟨setting_fits_iff.1 hpick, fun v hv => (setting_fits_iff.1 hgrace v hv).2, setting_fits_iff.1 hputaway⟩

theorem State.setIssue_accepted {s : State} {pick grace putaway : Option Nat} (h : TimingsInRange pick grace putaway) :
    s.setIssue pick grace putaway = ((s.setIsc (s.isc.timed pick grace putaway)).fireTimings, .plain .ok) := by
  obtain ⟨hpick, hgrace, hputaway⟩ := h
  refine if_pos ?_
  simp only [Bool.and_eq_true]
  exact ⟨⟨setting_fits_iff.2 hpick, setting_fits_iff.2 fun v hv => ⟨Nat.zero_le v, hgrace v hv⟩⟩, setting_fits_iff.2 hputaway⟩

/-- R74: SET_ISSUE at the step. -/
theorem execSetIssue_settles (s : State) (tag : Byte) (body : List Byte) (htakes : s.takesNow 0x1C tag body = true)
    {pick grace putaway : Option Nat}
    (hpick : pick = if flagAt body 0 0 then some (fieldAt body 1 2) else none)
    (hgrace : grace = if flagAt body 0 1 then some (fieldAt body 3 2) else none)
    (hputaway : putaway = if flagAt body 0 2 then some (fieldAt body 5 2) else none) :
    (¬ TimingsInRange pick grace putaway → exec (.setIssue tag body) s = .next (s.answered 0x1C tag body (.plain .range))) ∧
    (TimingsInRange pick grace putaway →
      ∃ t rs, exec (.setIssue tag body) s = .next t ∧ t.isc.pickTimeout = (s.isc.timed pick grace putaway).pickTimeout ∧
        t.isc.expiryGrace = (s.isc.timed pick grace putaway).expiryGrace ∧
        t.isc.putawayTimeout = (s.isc.timed pick grace putaway).putawayTimeout ∧ s.ToolsOnly t ∧
        t.svp = s.svpAnswered 0x1C tag body rs (.plain .ok) ∧
        ((∀ r ∈ s.isc.queue, ∀ b ∈ r.reserveTick, r.state = .reserved →
            s.tick < b + (s.isc.timed pick grace putaway).pickTimeout * 1000) →
          (∀ e ∈ s.isc.assigned, s.tick < e.2.tick + (s.isc.timed pick grace putaway).putawayTimeout * 1000) →
          t = { s with
            isc := s.isc.timed pick grace putaway, svp := s.svpAnswered 0x1C tag body [] (.plain .ok), lines := Lines.quiet })) := by
  have hexec : exec (.setIssue tag body) s = hostCommand 0x1C tag body (fun s => s.setIssue pick grace putaway) s := by
    rw [hpick, hgrace, hputaway]
    rfl
  rw [hexec]
  refine ⟨fun h => hostCommand_answers htakes (State.setIssue_refused h), fun h => ?_⟩
  have hrun := State.setIssue_accepted (s := s.taken 0x1C tag body) h
  let v := (s.taken 0x1C tag body).setIsc (s.isc.timed pick grace putaway)
  by_cases hearly : (∀ r ∈ s.isc.queue, ∀ b ∈ r.reserveTick, r.state = .reserved →
      s.tick < b + (s.isc.timed pick grace putaway).pickTimeout * 1000) ∧
    ∀ e ∈ s.isc.assigned, s.tick < e.2.tick + (s.isc.timed pick grace putaway).putawayTimeout * 1000
  · obtain ⟨hpick, hputaway⟩ := hearly
    have hstands : v.fireTimings = v := by
      refine State.fireTimings_early (fun r hr => Bool.eq_false_iff.2 fun hdue => ?_) fun e he => ?_
      · obtain ⟨hst, b, hb, hdue⟩ := (v.pickDue_iff r).1 hdue
        exact absurd hdue (not_le.2 (hpick r hr b hb hst))
      · exact decide_eq_false (not_le.2 (hputaway e he))
    rw [show ((s.taken 0x1C tag body).setIsc ((s.taken 0x1C tag body).isc.timed pick grace putaway)).fireTimings = v from hstands] at hrun
    have hnext := hostCommand_runs (run := fun s => s.setIssue pick grace putaway) (rs := []) htakes hrun rfl
    exact ⟨_, [], hnext, rfl, rfl, rfl, ((State.Runs.refl _).setIsc _).toolsOnly _, rfl, fun _ _ => rfl⟩
  · obtain ⟨⟨rs, hrs⟩, hframe⟩ := State.Issues.fireTimings v
    have hruns : (s.taken 0x1C tag body).Runs v.fireTimings := ((State.Runs.refl _).setIsc _).trans (State.Issues.fireTimings v).runs
    have hnext := hostCommand_runs (run := fun s => s.setIssue pick grace putaway) htakes hrun hrs
    refine ⟨_, rs, hnext, ?_, ?_, ?_, hruns.toolsOnly _, rfl, fun hp ha => absurd ⟨hp, ha⟩ hearly⟩
    · exact congrArg (fun u : State => u.isc.pickTimeout) hframe
    · exact congrArg (fun u : State => u.isc.expiryGrace) hframe
    · exact congrArg (fun u : State => u.isc.putawayTimeout) hframe

/-- HAND_OUT taken at once in RUNNING, on a live request. -/
theorem execHandOut_live {s : State} {tag : Byte} {body : List Byte} {r : Request} (hmode : s.svp.mode = .running)
    (hk : fieldAt body 0 1 ≠ 0) (hr : s.request (fieldAt body 0 1) = some r) :
    whenRunning (withRequest (fieldAt body 0 1) State.handOut) (s.taken 0x1A tag body) = (s.taken 0x1A tag body).handOut r :=
  (whenRunning_running hmode).trans (withRequest_live (s := s.taken 0x1A tag body) (within_byte hk) hr)

/-- BENCH_RETURN taken at once in RUNNING, on an instance that stands in the register. -/
theorem execBenchReturn_present {s : State} {tag : Byte} {body : List Byte} {i : InstRec} (hmode : s.svp.mode = .running)
    (hno : toolNo (fieldAt body 0 2) = true) (hi : s.tool (fieldAt body 0 2) = some i) :
    whenRunning (withTool (fieldAt body 0 2) (fun s r => s.benchReturn (fieldAt body 0 2) r)) (s.taken 0x1B tag body) =
      (s.taken 0x1B tag body).benchReturn (fieldAt body 0 2) i :=
  (whenRunning_running hmode).trans (withTool_present (s := s.taken 0x1B tag body) hno hi)

/-- Settles O19. -/
theorem benchMovesAndIssueSettings : Obligations.BenchMovesAndIssueSettings := by
  have hout (s : State) (tag : Byte) (body : List Byte) : exec (.handOut tag body) s =
      hostCommand 0x1A tag body (whenRunning (withRequest (fieldAt body 0 1) State.handOut)) s := rfl
  have hback (s : State) (tag : Byte) (body : List Byte) : exec (.benchReturn tag body) s =
      hostCommand 0x1B tag body
        (whenRunning (withTool (fieldAt body 0 2) (fun s r => s.benchReturn (fieldAt body 0 2) r))) s := rfl
  refine ⟨fun s tag body hmode => ⟨fun h => ?_, fun h => ?_⟩,
    fun s tag body hmode => ⟨fun h hk => ?_, fun h hk hnone => ?_, fun h hrange => ?_, fun h h1 h2 hnone => ?_,
      fun r h hk hr => ⟨fun hst => ?_, fun n i hst hn hi => ⟨fun hl => ?_, fun hl hc => ?_⟩⟩,
      fun i h hno hi => ⟨fun hrefused => ?_, fun hc hl => ?_⟩⟩, fun s tag body h => ?_⟩
  · rw [hout]
    exact hostCommand_answers h (whenRunning_loading hmode)
  · rw [hback]
    exact hostCommand_answers h (whenRunning_loading hmode)
  · rw [hout]
    exact hostCommand_answers h ((whenRunning_running hmode).trans (withRequest_range hk))
  · rw [hout]
    exact hostCommand_answers h ((whenRunning_running hmode).trans (withRequest_absent (within_byte hk) hnone))
  · rw [hback]
    exact hostCommand_answers h ((whenRunning_running hmode).trans (withTool_range hrange))
  · rw [hback]
    exact hostCommand_answers h ((whenRunning_running hmode).trans (withTool_absent (toolNo_iff.2 ⟨h1, h2⟩) hnone))
  · rw [hout]
    exact hostCommand_answers h ((execHandOut_live hmode hk hr).trans (State.handOut_refused hst))
  · rw [hout]
    exact hostCommand_answers h ((execHandOut_live hmode hk hr).trans
      ((State.handOut_reserved (s := s.taken 0x1A tag body) hst hn hi).trans (if_neg hl)))
  · obtain ⟨⟨o, ho⟩, hstand, hpsc, hruns, rs, hsvp⟩ :=
      State.handedOut_does (s := s.taken 0x1A tag body) (n := n) (r := r) hc hl
    have hnext := hostCommand_runs h ((execHandOut_live hmode hk hr).trans
      ((State.handOut_reserved (s := s.taken 0x1A tag body) hst hn hi).trans (if_pos hl))) hsvp
    rw [hout]
    exact ⟨_, rs, _, hnext, ho, rfl, hstand, hruns.toolsOnly _, hpsc, rfl⟩
  · rw [hback]
    exact hostCommand_answers h ((execBenchReturn_present hmode hno hi).trans (if_neg hrefused))
  · obtain ⟨htool, hpass, hruns, rs, hsvp⟩ :=
      State.benchReturn_does (s := s.taken 0x1B tag body) (n := fieldAt body 0 2) hc
    rw [hl] at hsvp
    have hnext := hostCommand_runs h ((execBenchReturn_present hmode hno hi).trans (State.benchReturn_accepted hc hl)) hsvp
    rw [hback]
    exact ⟨_, rs, hnext, htool, hpass, hruns.toolsOnly _, rfl⟩
  · intro pick grace putaway
    exact execSetIssue_settles s tag body h (pick := pick) (grace := grace) (putaway := putaway) rfl rfl rfl

end Sys2Proof.Machine

/-! O21: the ends of late-pick memories (R63), of requests (R65) and of assignments (R70). -/

namespace Sys2Proof.Machine

/-! ### Late-pick memories -/

theorem State.latePickDue_of {s : State} {key : Nat} {m : LatePick} (h : tget s.isc.latePicks key = some m) :
    s.latePickDue key = decide (m.endTick ≤ s.tick) := by
  simp only [State.latePickDue, h]

theorem pocketEvent_next {c p : Nat} {f : State → State} {s : State} (hc1 : 1 ≤ c) (hc2 : c ≤ 12) (hp1 : 1 ≤ p) (hp2 : p ≤ 64) :
    pocketEvent c p f s = event f s := if_pos (by simp [cabinetNo, pocketNo, within, hc1, hc2, hp1, hp2])

/-- R63: the end of a late-pick memory, and the pass that follows it. -/
theorem State.latePickEnds_does {s : State} (hs : tableSorted s.trg.insts = true) (key : Nat) :
    tget (s.clearLatePick key).allocationPass.isc.latePicks key = none ∧ s.AllPassedBy (s.clearLatePick key).allocationPass ∧
      s.Issues (s.clearLatePick key).allocationPass := by
  refine ⟨?_, (State.allocationPass_passes (s := s.clearLatePick key) hs).1, ((State.Issues.refl s).clearLatePick key).allocationPass⟩
  rw [State.allocationPass_latePicks]
  exact (tget_tdel _ _ _).trans (if_pos rfl)

/-! ### Requests that expire -/

theorem State.expired_eq (s : State) (r : Request) : s.expired r =
    (decide (r.state = .queued ∨ r.state = .waitingStock) && decide (r.prio ≠ .urgent) &&
      r.neededBy.any (fun b => decide (b + s.isc.expiryGrace < s.hck.hall.sec))) := by
  have hopen : r.open = decide (r.state = .queued ∨ r.state = .waitingStock) := by
    rw [Bool.eq_iff_iff, Request.open_iff, decide_eq_true_eq]
  have hprio : (r.prio != .urgent) = decide (r.prio ≠ .urgent) := by
    rw [Bool.eq_iff_iff, bne_iff_ne, decide_eq_true_eq]
  unfold State.expired
  rw [hopen, hprio]
  cases r.neededBy <;> rfl

/-- Requests that end one after the other are reported in their order, and leave the queue. -/
theorem State.foldl_endRequest (xs : List Request) (state : ReqState) (cause : ReqCause) (s : State) :
    xs.foldl (fun s r => s.endRequest r state cause) s = { s with
      isc := { s.isc with queue := s.isc.queue.filter (fun x => xs.all (fun r => decide (x.number ≠ r.number))) }
      svp := s.svp.handed s.now (xs.map (fun r => .requestState { r with state := state } cause)) } := by
  induction xs generalizing s with
  | nil =>
    simp only [List.foldl_nil, List.all_nil, List.filter_true, List.map_nil]
    rfl
  | cons r rest ih =>
    have hqueue : (s.endRequest r state cause).isc.queue.filter (fun x => rest.all (fun r => decide (x.number ≠ r.number))) =
        s.isc.queue.filter (fun x => (r :: rest).all (fun r => decide (x.number ≠ r.number))) := by
      refine (List.filter_filter ..).trans (List.filter_congr fun x _ => ?_)
      rw [List.all_cons, Bool.and_comm]
    rw [List.foldl_cons, ih, hqueue]
    rfl

/-- R65: the requests that expire leave the queue of distinct numbers, and no others. -/
theorem filter_expired {q : List Request} (h : (q.map (·.number)).Nodup) (p : Request → Bool) :
    q.filter (fun x => (q.filter p).all (fun r => decide (x.number ≠ r.number))) = q.filter (fun r => !p r) := by
  refine List.filter_congr fun x hx => ?_
  rw [Bool.eq_iff_iff, Bool.not_eq_true', List.all_eq_true]
  constructor
  · intro hall
    refine Bool.eq_false_iff.2 fun hp => ?_
    simpa using hall x (List.mem_filter.2 ⟨hx, hp⟩)
  · intro hp r hr
    obtain ⟨hr, hrp⟩ := List.mem_filter.1 hr
    rw [decide_eq_true_eq]
    intro hxr
    rw [List.inj_on_of_nodup_map h hx hr hxr, hrp] at hp
    cases hp

theorem State.expiryTest_eq {s : State} (h : (s.isc.queue.map (·.number)).Nodup) : s.expiryTest = { s with
    isc := { s.isc with queue := s.isc.queue.filter (fun r => !s.expired r) }
    svp := s.svp.handed s.now
      ((s.isc.queue.filter (fun r => s.expired r)).map (fun r => .requestState { r with state := .expired } .expired)) } := by
  unfold State.expiryTest
  rw [State.foldl_endRequest, filter_expired h]

/-! ### Assignments that time out -/

theorem State.vacateAssigned_svp (s : State) (a : Assignment) : (s.vacateAssigned a).svp = s.svp := by
  unfold State.vacateAssigned
  dsimp only
  split
  · exact State.noticeIfFree_svp _ _ _
  · rfl

/-- The transition of a put-away timeout (R70). -/
def putawayTimeoutMove : Move := { cause := .putawayTimeout, custody := .missing, loc := .nowhere }

/-- The record of an instance whose put-away has timed out (R70). -/
def InstRec.putawayLost (i : InstRec) : InstRec :=
  { i with
    custody := .missing, loc := .nowhere, qcause := none, link := none, owed := if i.custody = .issued then false else i.owed }

theorem InstRec.moved_putawayTimeout (i : InstRec) : i.moved putawayTimeoutMove = i.putawayLost := by
  by_cases hl : i.life = 0 <;> simp [InstRec.moved, putawayTimeoutMove, InstRec.putawayLost, redirect, hl]

/-- R70: what the timeout of an assignment does. -/
theorem State.putawayTimesOut_does {s : State} {n : Nat} {i : InstRec} (a : Assignment) (hn : s.tool n = some i) :
    (s.putawayTimesOut n a).tool n = some i.putawayLost ∧ s.OthersStand (s.putawayTimesOut n a) n ∧
      (s.putawayTimesOut n a).isc.queue = s.isc.queue ∧ tget (s.putawayTimesOut n a).isc.assigned n = none ∧
      s.Tells (s.putawayTimesOut n a)
        [.custodyChange n i.type (some i.custody) i.loc (some .missing) .nowhere .putawayTimeout none,
         .discrepancy .putawayTimeout a.cabinet a.pocket (some n) (some i.custody)] := by
  have hissues := (State.Issues.refl s).putawayTimesOut n a
  have hput := ((State.PutsAway.refl s).forgetAssignment n).vacateAssigned a
  have hsvp : ((s.forgetAssignment n).vacateAssigned a).svp = s.svp := State.vacateAssigned_svp _ a
  have hnow := (((State.Issues.refl s).forgetAssignment n).vacateAssigned a).now_eq
  have hstep : s.putawayTimesOut n a = (match ((s.forgetAssignment n).vacateAssigned a).tool n with
      | none => (s.forgetAssignment n).vacateAssigned a
      | some r => ((((s.forgetAssignment n).vacateAssigned a).move n r putawayTimeoutMove).leavePutaway n).report
          (.discrepancy .putawayTimeout a.cabinet a.pocket (some n) (some r.custody))) := rfl
  generalize (s.forgetAssignment n).vacateAssigned a = v at *
  simp only [(State.tool_of_trg hput.trg_eq n).trans hn] at hstep
  have hleft := (State.PutsAway.refl (v.move n i putawayTimeoutMove)).leavePutaway n
  have htool (m : Nat) : (s.putawayTimesOut n a).tool m = if m = n then some i.putawayLost else s.tool m := by
    rw [hstep, ← InstRec.moved_putawayTimeout, ← State.tool_of_trg hput.trg_eq]
    exact (State.tool_of_trg hleft.trg_eq m).trans (State.tool_move v n m i putawayTimeoutMove)
  refine ⟨(htool n).trans (if_pos rfl), fun m hm => (htool m).trans (if_neg hm), ?_, ?_, hissues, ?_⟩
  · rw [hstep]
    exact hleft.queue_eq.trans hput.queue_eq
  · rw [hstep]
    exact State.leavePutaway_unassigned _ n
  · have hmoved := State.move_svp v n i putawayTimeoutMove
    rw [InstRec.moved_putawayTimeout, hsvp, hnow] at hmoved
    have htold : (v.move n i putawayTimeoutMove).now = s.now := hnow
    have hkept := (State.leavePutaway_svp (v.move n i putawayTimeoutMove) n).trans hmoved
    have hnow' : ((v.move n i putawayTimeoutMove).leavePutaway n).now = s.now :=
      ((State.Issues.refl _).leavePutaway n).now_eq.trans htold
    rw [hstep, State.report_svp, hkept, hnow']
    rfl

theorem State.firePutaway_due {s : State} {n : Nat} {a : Assignment} (ha : tget s.isc.assigned n = some a)
    (h : a.tick + s.isc.putawayTimeout * 1000 ≤ s.tick) : s.firePutaway n = s.putawayTimesOut n a := by
  simp only [State.firePutaway, ha, State.putawayDue, h, decide_true, if_true]

theorem State.firePutaway_before {s : State} {n : Nat} {a : Assignment} (ha : tget s.isc.assigned n = some a)
    (h : s.tick < a.tick + s.isc.putawayTimeout * 1000) : s.firePutaway n = s := by
  simp only [State.firePutaway, ha, State.putawayDue, decide_eq_false (not_le.2 h), if_neg (Bool.false_ne_true)]

/-- An event that changes nothing. -/
theorem event_idle {f : State → State} {s : State} (h : f s.quiet = s.quiet) : event f s = .next s.idled := by
  rw [event_next]
  simp only [h]
  rfl

/-- Settles O21. -/
theorem issueTimersExpire : Obligations.IssueTimersExpire := by
  refine ⟨fun s c p m hc1 hc2 hp1 hp2 hs hm => ⟨fun hdue => ?_, fun hearly => ?_⟩, fun s hnodup => ?_,
    fun s n a i ha hi => ⟨fun hdue => ?_, fun hearly => ?_⟩⟩
  · obtain ⟨hgone, hpass, hissues⟩ := State.latePickEnds_does (s := s.quiet) hs (pocketKey c p)
    obtain ⟨rs, htells⟩ := State.Tells.of_issues hissues
    have hstep : (if s.quiet.latePickDue (pocketKey c p) then (s.quiet.clearLatePick (pocketKey c p)).allocationPass else s.quiet) =
        (s.quiet.clearLatePick (pocketKey c p)).allocationPass :=
      if_pos ((State.latePickDue_of (s := s.quiet) hm).trans (decide_eq_true hdue))
    rw [← hstep] at htells hgone hpass
    obtain ⟨t, ht, htools, hhoe, htrg, hisc, hsvp⟩ := State.Tells.happens (f := fun s =>
      if s.latePickDue (pocketKey c p) then (s.clearLatePick (pocketKey c p)).allocationPass else s) htells
    refine ⟨t, rs, (pocketEvent_next hc1 hc2 hp1 hp2).trans ht, ?_, fun k => ?_, htools, hhoe, hsvp⟩
    · rw [hisc]
      exact hgone
    · rw [State.tool_of_trg htrg]
      exact hpass k
  · refine (pocketEvent_next hc1 hc2 hp1 hp2).trans (event_idle (if_neg ?_))
    rw [State.latePickDue_of (s := s.quiet) hm, decide_eq_true_eq]
    exact not_le.2 hearly
  · intro late
    have hlate (r : Request) : s.quiet.expired r = late r := s.quiet.expired_eq r
    have hnext : exec .hallSecond s = event State.expiryTest s := rfl
    rw [hnext, event_next, State.expiryTest_eq (s := s.quiet) hnodup]
    simp only [hlate]
    rfl
  · obtain ⟨htool, hstand, hqueue, hassigned, htells⟩ := State.putawayTimesOut_does (s := s.quiet) a hi
    rw [← State.firePutaway_due (s := s.quiet) ha hdue] at htool hstand hqueue hassigned htells
    obtain ⟨t, ht, htools, hhoe, htrg, hisc, hsvp⟩ := State.Tells.happens (f := fun s => s.firePutaway n) htells
    refine ⟨t, ht, (State.tool_of_trg htrg n).trans htool, fun m hm => (State.tool_of_trg htrg m).trans (hstand m hm), htools, hhoe, ?_,
      ?_, hsvp⟩
    · rw [hisc]
      exact hqueue
    · rw [hisc]
      exact hassigned
  · exact event_idle (f := fun s => s.firePutaway n) (State.firePutaway_before (s := s.quiet) ha hearly)

end Sys2Proof.Machine

/-! What a pass and the entry, merging and eviction of a request leave (R50 to R58). -/

namespace Sys2Proof.Machine

/-! ### A live request through a pass -/

/-- The one request is the other but for its state and its reservation (R55 to R58). -/
def Request.Continues (r q : Request) : Prop := q = { r with state := q.state, tool := q.tool, reserveTick := q.reserveTick }

theorem Request.Continues.refl (r : Request) : r.Continues r := rfl

theorem Request.Continues.trans {r q x : Request} (h : r.Continues q) (k : q.Continues x) : r.Continues x := by
  unfold Request.Continues at h k ⊢
  rw [k, h]

theorem Request.Continues.number {r q : Request} (h : r.Continues q) : q.number = r.number := by rw [h]

/-- A request that a pass has reached (R55). -/
def Request.Passed (r : Request) : Prop := r.state = .waitingStock ∨ r.state = .reserved

theorem State.reserve_queue (s : State) (r : Request) (n : Nat) (i : InstRec) :
    (s.reserve r n i).isc.queue = (s.putRequest (r.reservedFor n s.tick)).isc.queue ∧
      (s.reserve r n i).isc.nextNumber = s.isc.nextNumber := by
  rcases i.loc.pocket_or with ⟨c, p, hl⟩ | hl
  · obtain ⟨q, hq⟩ := s.reserve_pocket r n c p hl
    rw [hq]
    exact ⟨rfl, rfl⟩
  · obtain ⟨q, hq⟩ := s.reserve_bench r n hl
    have hput := (State.PutsAway.refl (s.reserving r n i)).leavePutaway n
    have hnext := congrArg (fun u : State => u.isc.nextNumber) hput.2
    rw [hq]
    exact ⟨hput.queue_eq, hnext⟩

/-- R55: what an allocation does to the queue: nothing, or the request with its number is rewritten where it stands. -/
theorem State.allocateFor_queue (s : State) (m : Nat) : (s.allocateFor m).isc.nextNumber = s.isc.nextNumber ∧
    ((s.allocateFor m).isc.queue = s.isc.queue ∨ ∃ r q, s.request m = some r ∧ r.Continues q ∧ q.Passed ∧
      (s.allocateFor m).isc.queue = (s.putRequest q).isc.queue) := by
  rcases s.allocateFor_cases m with hs | ⟨r, hr, hs⟩ | ⟨r, _, n, i, hr, -, -, -, hs⟩
  · rw [hs]
    exact ⟨rfl, .inl rfl⟩
  · rw [hs, State.enterWaiting_isc]
    exact ⟨rfl, .inr ⟨r, { r with state := .waitingStock }, hr, rfl, .inl rfl, rfl⟩⟩
  · obtain ⟨hqueue, hnext⟩ := s.reserve_queue r n i
    rw [hs]
    exact ⟨hnext, .inr ⟨r, r.reservedFor n s.tick, hr, rfl, .inr rfl, hqueue⟩⟩

/-- R55, R58: a QUEUED request that an allocation reaches is QUEUED no more. -/
theorem State.allocateFor_queued {s : State} {m : Nat} {r : Request} (hr : s.request m = some r) (hst : r.state = .queued) :
    ∃ q, r.Continues q ∧ q.Passed ∧ (s.allocateFor m).isc.queue = (s.putRequest q).isc.queue := by
  have hopen : r.open = true := Request.open_iff.2 (.inl hst)
  unfold State.allocateFor
  simp only [hr, hopen, if_true]
  split
  next n i _ => exact ⟨r.reservedFor n s.tick, rfl, .inr rfl, (s.reserve_queue r n i).1⟩
  next =>
    rw [if_pos hst, State.enterWaiting_isc]
    exact ⟨{ r with state := .waitingStock }, rfl, .inl rfl, rfl⟩

/-- A live request through one allocation. -/
theorem State.allocateFor_continues {s : State} {k : Nat} {x : Request} (hx : s.request k = some x) (m : Nat) :
    ∃ y, (s.allocateFor m).request k = some y ∧ x.Continues y ∧ (y = x ∨ y.Passed) ∧
      (m = k → x.state = .queued → y.Passed) := by
  have hput {r q : Request} (hr : s.request m = some r) (hq : r.Continues q)
      (hqueue : (s.allocateFor m).isc.queue = (s.putRequest q).isc.queue) :
      (s.allocateFor m).request k = if k = m then some q else some x := by
    rw [State.request_of_queue hqueue, State.request_putRequest, hq.number, State.request_number hr, hx, Option.map_some]
  by_cases hmk : m = k ∧ x.state = .queued
  · obtain ⟨rfl, hst⟩ := hmk
    obtain ⟨q, hq, hpassed, hqueue⟩ := State.allocateFor_queued hx hst
    exact ⟨q, (hput hx hq hqueue).trans (if_pos rfl), hq, .inr hpassed, fun _ _ => hpassed⟩
  · rcases (s.allocateFor_queue m).2 with hqueue | ⟨r, q, hr, hq, hpassed, hqueue⟩
    · exact ⟨x, (State.request_of_queue hqueue k).trans hx, .refl x, .inl rfl, fun h1 h2 => absurd ⟨h1, h2⟩ hmk⟩
    · by_cases hk : k = m
      · subst hk
        cases hx.symm.trans hr
        exact ⟨q, (hput hr hq hqueue).trans (if_pos rfl), hq, .inr hpassed, fun _ _ => hpassed⟩
      · exact ⟨x, (hput hr hq hqueue).trans (if_neg hk), .refl x, .inl rfl, fun h => absurd h.symm hk⟩

theorem State.allocationPass_nextNumber (s : State) : s.allocationPass.isc.nextNumber = s.isc.nextNumber :=
  State.allocationPass_keeps (P := fun u => u.isc.nextNumber = s.isc.nextNumber)
    (fun u m h => (u.allocateFor_queue m).1.trans h) rfl

/-- R55: a pass leaves a live request as it was, but for its state and its reservation. -/
theorem State.allocationPass_continues {s : State} {k : Nat} {r : Request} (hr : s.request k = some r) :
    ∃ x, s.allocationPass.request k = some x ∧ r.Continues x := by
  refine State.allocationPass_keeps (P := fun u => ∃ x, u.request k = some x ∧ r.Continues x) (fun u m hu => ?_) ⟨r, hr, .refl r⟩
  obtain ⟨x, hx, hrx⟩ := hu
  obtain ⟨y, hy, hxy, -⟩ := State.allocateFor_continues hx m
  exact ⟨y, hy, hrx.trans hxy⟩

/-- The request with a number, after the pass reaches the numbers of a list (R55). -/
theorem State.foldl_allocateFor_passed {k : Nat} {xs : List Nat} {s : State} {r : Request} (hr : s.request k = some r)
    (hst : r.state = .queued ∨ r.Passed) (hk : r.Passed ∨ k ∈ xs) :
    ∃ x, (xs.foldl (fun s n => s.allocateFor n) s).request k = some x ∧ x.Passed := by
  induction xs generalizing s r with
  | nil => exact ⟨r, hr, hk.resolve_right (List.not_mem_nil)⟩
  | cons m rest ih =>
    obtain ⟨y, hy, -, hsame, hreached⟩ := State.allocateFor_continues hr m
    refine ih hy ?_ ?_
    · rcases hsame with rfl | hpassed
      · exact hst
      · exact .inr hpassed
    · rcases hk with hpassed | hmem
      · rcases hsame with rfl | hpassed
        · exact .inl hpassed
        · exact .inl hpassed
      · rcases List.mem_cons.1 hmem with rfl | hmem
        · rcases hst with hst | hpassed
          · exact .inl (hreached rfl hst)
          · rcases hsame with rfl | hpassed
            · exact .inl hpassed
            · exact .inl hpassed
        · exact .inr hmem

/-- R55, R58: no request stays QUEUED through a pass. -/
theorem State.allocationPass_passed {s : State} {k : Nat} {r : Request} (hrun : s.running = true) (hr : s.request k = some r)
    (hst : r.state = .queued) : ∃ x, s.allocationPass.request k = some x ∧ r.Continues x ∧ x.Passed := by
  obtain ⟨x, hx, hrx⟩ := State.allocationPass_continues hr
  have hmem : k ∈ s.isc.queue.map (·.number) :=
    List.mem_map.2 ⟨r, State.mem_of_request hr, State.request_number hr⟩
  obtain ⟨y, hy, hpassed⟩ := State.foldl_allocateFor_passed hr (.inl hst) (.inr hmem)
  unfold State.allocationPass at hx ⊢
  rw [if_pos hrun] at hx ⊢
  cases hx.symm.trans hy
  exact ⟨x, hx, hrx, hpassed⟩

/-! ### What follows a change of the queue -/

/-- The pass and, for the instance of a request released, put-away (R54, R61). -/
def State.settlesAfter (s : State) (v : Request) : State :=
  match v.state, v.tool with
  | .reserved, some n => s.afterRelease n
  | _, _ => s.allocationPass

theorem State.settlesAfter_cases (s : State) (v : Request) :
    s.settlesAfter v = s.allocationPass ∨ ∃ n, s.settlesAfter v = s.allocationPass.tryPutaway n := by
  unfold State.settlesAfter
  split
  · exact .inr ⟨_, rfl⟩
  · exact .inl rfl

/-- R54, R61: what the pass and put-away after an eviction leave, and what they add to the reports. -/
theorem State.settlesAfter_does {s : State} (hs : tableSorted s.trg.insts = true) (v : Request) :
    s.AllPassedBy (s.settlesAfter v) ∧ (s.settlesAfter v).isc.queue = s.allocationPass.isc.queue ∧
      ∃ rs, s.Tells (s.settlesAfter v) rs := by
  rcases s.settlesAfter_cases v with h | ⟨n, h⟩ <;> rw [h]
  · exact ⟨(State.allocationPass_passes hs).1, rfl, State.Tells.of_issues (State.Issues.refl s).allocationPass⟩
  · have hput := (State.PutsAway.refl s.allocationPass).tryPutaway n
    exact ⟨(State.allocationPass_passes hs).1.trans (.of_trg hput.trg_eq), hput.queue_eq,
      State.Tells.of_issues ((State.Issues.refl s).allocationPass.tryPutaway n)⟩

/-! ### Entry -/

theorem State.admits_eq_none_iff (s : State) :
    s.admits = none ↔ 64 ≤ s.isc.queue.length ∨ s.freeNumber 255 s.isc.nextNumber = none := by
  unfold State.admits
  split <;> simp <;> omega

theorem State.admits_eq_some {s : State} {k : Nat} (hroom : s.isc.queue.length < 64)
    (hk : s.freeNumber 255 s.isc.nextNumber = some k) : s.admits = some k := (if_pos hroom).trans hk

theorem State.freeNumber_unused {s : State} {fuel next k : Nat} (h : s.freeNumber fuel next = some k) : s.numberInUse k = false := by
  induction fuel generalizing next with
  | zero => cases h
  | succ fuel ih =>
    unfold State.freeNumber at h
    split at h
    · exact ih h
    next hfree =>
      cases h
      exact Bool.eq_false_iff.2 hfree

theorem State.request_none_of_unused {s : State} {k : Nat} (h : s.numberInUse k = false) : s.request k = none := by
  refine State.request_none_iff.2 fun r hr hk => ?_
  rw [(s.numberInUse_iff k).2 (.inl ⟨r, hr, hk⟩)] at h
  cases h

/-- R48, R49: the request that enters is live under its number, and the others stand as they stood. -/
theorem State.request_enterAs {s : State} (q : NewRequest) {k : Nat} (hk : s.request k = none) (j : Nat) :
    (s.enterAs q k).request j = if j = k then some (s.entrant q k) else s.request j := by
  have hqueue : (s.enterAs q k).isc.queue = placeRequest s.isc.queue (s.entrant q k) := rfl
  obtain ⟨front, back, hplace, hsplit, -⟩ := placeRequest_splits s.isc.queue (s.entrant q k)
  have hfront : ∀ x ∈ front, x.number ≠ k := fun x hx =>
    State.request_none_iff.1 hk x (hsplit ▸ List.mem_append_left _ hx)
  unfold State.request
  rw [hqueue, hplace, hsplit, List.find?_append, List.find?_append, List.find?_cons]
  split
  next hj =>
    have : k = j := beq_iff_eq.1 hj
    rw [if_pos this.symm, List.find?_eq_none.2 (by simpa [← this] using hfront), Option.none_or]
  next hj =>
    rw [if_neg (by rintro rfl; simp [State.entrant] at hj)]

theorem State.Tells.enterAs {s t : State} {rs : List Report} (h : s.Tells t rs) (q : NewRequest) (k : Nat) :
    s.Tells (t.enterAs q k) (rs ++ [.requestState (t.entrant q k) .entered]) := h.trans ⟨(State.Issues.refl t).enterAs q k, rfl⟩

/-- R196: a report leaves the mode as it was. -/
theorem Svp.report_mode (v : Svp) (time : HallTime) (r : Report) : (v.report time r).mode = v.mode := by
  unfold Svp.report
  split_ifs <;> rfl

theorem State.enterAs_running (s : State) (q : NewRequest) (k : Nat) : (s.enterAs q k).running = s.running :=
  congrArg (· == Mode.running) (Svp.report_mode s.svp s.now _)

theorem State.enter_admitted {s : State} (q : NewRequest) {k : Nat} (h : s.admits = some k) :
    s.enter q = ((s.enterAs q k).allocationPass, .entered k) := by
  unfold State.enter
  simp only [h]

/-- R50, R54: a request that a place and a number admit. -/
theorem State.enter_does {s : State} (q : NewRequest) {k : Nat} (hs : tableSorted s.trg.insts = true) (h : s.admits = some k) :
    ∃ t rs r, s.enter q = (t, .entered k) ∧ s.AllPassedBy t ∧ s.Tells t (.requestState (s.entrant q k) .entered :: rs) ∧
      t.request k = some r ∧ (s.entrant q k).Continues r ∧ (s.running = true → r.Passed) ∧
      t.isc.nextNumber = cyclicNext 255 k := by
  have hunused := State.request_none_of_unused (State.freeNumber_unused (State.admits_some h).2)
  have hentered : (s.enterAs q k).request k = some (s.entrant q k) := (State.request_enterAs q hunused k).trans (if_pos rfl)
  obtain ⟨rs, hrs⟩ := State.Tells.of_issues (State.Issues.refl (s.enterAs q k)).allocationPass
  obtain ⟨r, hr, hcontinues⟩ := State.allocationPass_continues hentered
  refine ⟨_, rs, r, State.enter_admitted q h, (State.allocationPass_passes (s := s.enterAs q k) hs).1,
    ((State.Tells.refl s).enterAs q k).trans hrs, hr, hcontinues, fun hrun => ?_, State.allocationPass_nextNumber _⟩
  obtain ⟨x, hx, -, hpassed⟩ := State.allocationPass_passed ((s.enterAs_running q k).trans hrun) hentered rfl
  cases hr.symm.trans hx
  exact hpassed

theorem State.enter_refused {s : State} {q : NewRequest} (h : s.admits = none) (hq : q.prio ≠ .urgent ∨ s.evictable = none) :
    s.enter q = (s, s.notEntered) := by
  unfold State.enter
  simp only [h]
  split
  next v hprio hv =>
    rcases hq with hq | hq
    · exact absurd hprio hq
    · rw [hq] at hv
      cases hv
  next => rfl

/-! ### Eviction -/

/-- R54: an eviction takes none of a request that is not PREFETCH, QUEUED, WAITING_STOCK or RESERVED. -/
theorem State.evictable_eq_none {s : State} (h : ∀ r ∈ s.isc.queue, r.prio = .prefetch →
    r.state ≠ .queued ∧ r.state ≠ .waitingStock ∧ r.state ≠ .reserved) : s.evictable = none := by
  unfold State.evictable
  rw [List.filter_eq_nil_iff.2 fun r hr => ?_]
  · rfl
  · rw [Bool.and_eq_true, Bool.or_eq_true, Request.open_iff, beq_iff_eq, beq_iff_eq]
    rintro ⟨hprio, (hst | hst) | hst⟩
    · exact (h r hr hprio).1 hst
    · exact (h r hr hprio).2.1 hst
    · exact (h r hr hprio).2.2 hst

/-- The order in which requests are evicted, the first to go first (R54). -/
def Request.evictionRank (r : Request) : (ℕ ×ₗ ℕ)ᵒᵈ := OrderDual.toDual (toLex (r.enqTick, r.entry))

theorem Request.evictionRank_lt (a b : Request) :
    a.evictionRank < b.evictionRank ↔ b.enqTick < a.enqTick ∨ (b.enqTick = a.enqTick ∧ b.entry < a.entry) := by
  simp [Request.evictionRank, Prod.Lex.toLex_lt_toLex]

/-- A request whose reservation can be released is in a state in which it may be evicted. -/
theorem State.Releases.state {s : State} {v : Request} {n : Nat} {rel : List Report} (h : s.Releases v n rel) :
    v.open = true ∨ v.state = .reserved := by
  rcases h with ⟨hst, -⟩ | ⟨hst, -⟩
  · exact .inl (Request.open_iff.2 hst)
  · exact .inr hst

/-- R54: the request that an URGENT one evicts. -/
theorem State.Evicts.evictable {s : State} {v : Request} (h : s.Evicts v) (hst : v.open = true ∨ v.state = .reserved) :
    s.evictable = some v := by
  obtain ⟨hin, hprio, -, hlast⟩ := h
  have hv : v ∈ s.isc.queue.filter (fun r => r.prio == .prefetch && (r.open || r.state == .reserved)) := by
    rw [List.mem_filter, Bool.and_eq_true, Bool.or_eq_true, beq_iff_eq, beq_iff_eq]
    exact ⟨hin, hprio, hst⟩
  cases hx : s.evictable with
  | none =>
    have := (foldl_choice_eq_none (fun a e => by cases a <;> dsimp only <;> [exact ⟨_, rfl⟩; (split <;> exact ⟨_, rfl⟩)])).1 hx
    rw [this] at hv
    cases hv
  | some x =>
    have hleast := foldl_least Request.evictionRank (fun _ => rfl)
      (fun b e => by simp only [Request.evictionRank_lt]) _ hx v hv
    rcases foldl_choice_mem (fun a e => by cases a <;> dsimp only <;> [exact .inl rfl; (split <;> simp)]) _ _ hx with hmem | hnone
    · obtain ⟨hxin, hxt⟩ := List.mem_filter.1 hmem
      rw [Bool.and_eq_true, Bool.or_eq_true, Request.open_iff, beq_iff_eq, beq_iff_eq] at hxt
      obtain ⟨hxprio, hxst⟩ := hxt
      by_cases hxv : x = v
      · rw [hxv]
      · have hbefore := hlast x hxin hxv hxprio (by rcases hxst with (h | h) | h <;> simp [h])
        exact absurd hleast (not_le.2 ((Request.evictionRank_lt v x).2 hbefore))
    · cases hnone

/-- The report of an eviction (R54). -/
def Request.evictedReport (v : Request) : Report := .requestState { v.bare with state := .cancelled } .evicted

theorem State.evict_eq (s : State) (v : Request) : s.evict v = (s.releasing v).endRequest v.bare .cancelled .evicted := rfl

/-- R48: the numbers in use once a request is evicted: its own is free, and so is the request link of an instance it released. -/
theorem State.numberInUse_evict {s : State} {v : Request} {n : Nat} {rel : List Report} (hs : tableSorted s.trg.insts = true)
    (h : s.Releases v n rel) (k : Nat) : (s.evict v).numberInUse k = (s.without v).numberInUse k := by
  rw [Bool.eq_iff_iff, State.numberInUse_iff, State.numberInUse_iff]
  have hqueue : (s.evict v).isc.queue = (s.without v).isc.queue := by
    rw [State.evict_eq]
    exact congrArg (fun i : Isc => i.queue.filter (fun x => x.number ≠ v.number)) h.releasing.2.2.1
  rw [hqueue]
  refine or_congr Iff.rfl ?_
  have hwithout : (s.without v).trg.insts =
      s.trg.insts.map (fun e => if v.state = .reserved ∧ v.tool = some e.1 then (e.1, { e.2 with link := none }) else e) := rfl
  have hevict : (s.evict v).trg = (s.releasing v).trg := rfl
  rw [hwithout, hevict]
  rcases h with ⟨hst, -⟩ | ⟨hst, hn, i, hi, hc, -⟩
  · have hreserved : v.state ≠ .reserved := by rcases hst with h | h <;> simp [h]
    simp [s.releasing_open hreserved, hreserved]
  · have htrg : (s.releasing v).trg.insts = tset s.trg.insts n (i.released true) := by
      rw [s.releasing_reserved hst hn, (State.releaseTool_does hi (by simp [hc]) true).1]
      rfl
    rw [htrg]
    constructor
    · rintro ⟨⟨m, j⟩, hj, hlink⟩
      have hm := tget_of_mem (tableSorted_tset _ _ hs) hj
      rw [tget_tset] at hm
      split at hm
      · cases hm
        cases hlink
      next hne =>
        refine ⟨(m, j), List.mem_map.2 ⟨(m, j), mem_of_tget hm, if_neg ?_⟩, hlink⟩
        rintro ⟨-, hvn⟩
        exact hne (Option.some.inj (hvn.symm.trans hn))
    · rintro ⟨e, he, hlink⟩
      obtain ⟨⟨m, j⟩, hj, rfl⟩ := List.mem_map.1 he
      split at hlink
      · cases hlink
      next hne =>
        refine ⟨(m, j), mem_of_tget ((tget_tset_ne _ _ ?_).trans (tget_of_mem hs hj)), hlink⟩
        rintro rfl
        exact hne ⟨hst, hn⟩

theorem State.freeNumber_congr {s t : State} (h : ∀ k, s.numberInUse k = t.numberInUse k) (fuel next : Nat) :
    s.freeNumber fuel next = t.freeNumber fuel next := by
  induction fuel generalizing next with
  | zero => rfl
  | succ fuel ih =>
    unfold State.freeNumber
    rw [h, ih]

/-- The queue has 64 requests, or room but no number is free: an URGENT request that enters must evict (R54). -/
def State.Crowded (s : State) : Prop :=
  s.isc.queue.length = 64 ∨ (s.isc.queue.length < 64 ∧ s.freeNumber 255 s.isc.nextNumber = none)

theorem State.Crowded.admits {s : State} (h : s.Crowded) : s.admits = none := by
  rw [State.admits_eq_none_iff]
  rcases h with h | ⟨-, h⟩
  · exact .inl h.ge
  · exact .inr h

/-- R54: what an eviction leaves, before the entry and the pass. -/
theorem State.Releases.evict {s : State} {v : Request} {n : Nat} {rel : List Report} (h : s.Releases v n rel)
    (hs : tableSorted s.trg.insts = true) :
    s.Tells (s.evict v) (rel ++ [v.evictedReport]) ∧ s.OthersStand (s.evict v) n ∧ tableSorted (s.evict v).trg.insts = true ∧
      (s.evict v).request v.number = none ∧ (s.evict v).isc.entries = s.isc.entries := by
  obtain ⟨htells, hstand, hisc, hsorted⟩ := h.releasing
  rw [State.evict_eq]
  exact ⟨htells.endRequest v.bare .cancelled .evicted, hstand, hsorted hs, State.request_endRequest (r := v.bare),
    show (s.releasing v).isc.entries = s.isc.entries by rw [hisc]⟩

/-- R48, R54: whether a number is free once a request is evicted; a place is. -/
theorem State.Evicts.admits {s : State} {v : Request} {n : Nat} {rel : List Report} (h : s.Evicts v) (hrel : s.Releases v n rel)
    (hs : tableSorted s.trg.insts = true) (hcrowded : s.Crowded) :
    (s.evict v).isc.queue.length < 64 ∧ (s.evict v).admits = (s.without v).freeNumber 255 s.isc.nextNumber := by
  have hqueue : (s.evict v).isc.queue = s.isc.queue.filter (fun x => x.number ≠ v.number) := by
    rw [State.evict_eq]
    exact congrArg (fun i : Isc => i.queue.filter (fun x => x.number ≠ v.number)) hrel.releasing.2.2.1
  have hnext : (s.evict v).isc.nextNumber = s.isc.nextNumber := by
    have hisc := hrel.releasing.2.2.1
    show (s.releasing v).isc.nextNumber = s.isc.nextNumber
    rw [hisc]
  have hfewer : (s.evict v).isc.queue.length < s.isc.queue.length := by
    rw [hqueue]
    exact List.length_filter_lt_length_iff_exists.2 ⟨v, h.1, by simp⟩
  have hroom : (s.evict v).isc.queue.length < 64 := by
    rcases hcrowded with hlen | ⟨hlen, -⟩ <;> omega
  refine ⟨hroom, (if_pos hroom).trans ?_⟩
  rw [hnext]
  exact State.freeNumber_congr (State.numberInUse_evict hs hrel) 255 _

theorem State.enter_evicts {s : State} {q : NewRequest} {v : Request} (h : s.admits = none) (hq : q.prio = .urgent)
    (hv : s.evictable = some v) : s.enter q = match (s.evict v).admits with
      | some k => (((s.evict v).enterAs q k).settlesAfter v, .entered k)
      | none => ((s.evict v).settlesAfter v, (s.evict v).notEntered) := by
  unfold State.enter
  simp only [h, hq, hv]
  rfl

/-- R54: an URGENT request that enters in the place of the one it evicts. -/
theorem State.enter_evicts_entered {s : State} {q : NewRequest} {v : Request} {n k : Nat} {rel : List Report}
    (hs : tableSorted s.trg.insts = true) (hcrowded : s.Crowded) (hq : q.prio = .urgent) (hv : s.Evicts v) (hrel : s.Releases v n rel)
    (hk : (s.without v).freeNumber 255 s.isc.nextNumber = some k) :
    ∃ t rs r, s.enter q = (t, .entered k) ∧ s.OthersPassedBy t n ∧ t.request k = some r ∧ (s.entrant q k).Continues r ∧
      (k ≠ v.number → t.request v.number = none) ∧
      s.Tells t (rel ++ v.evictedReport :: .requestState (s.entrant q k) .entered :: rs) := by
  obtain ⟨htells, hstand, hsorted, hgone, hentries⟩ := hrel.evict hs
  have hadmits : (s.evict v).admits = some k := (hv.admits hrel hs hcrowded).2.trans hk
  have hunused := State.request_none_of_unused (State.freeNumber_unused (State.admits_some hadmits).2)
  have hentrant : (s.evict v).entrant q k = s.entrant q k := by
    have htick : (s.evict v).tick = s.tick := by
      rw [htells.issues.2]
      rfl
    unfold State.entrant
    rw [htick, hentries]
  have hentered := State.request_enterAs q hunused
  have htold := htells.enterAs q k
  rw [hentrant] at hentered htold
  obtain ⟨hpass, hqueue, rs, hrs⟩ := State.settlesAfter_does (s := (s.evict v).enterAs q k) hsorted v
  obtain ⟨r, hr, hcontinues⟩ := State.allocationPass_continues ((hentered k).trans (if_pos rfl))
  have htold := htold.trans hrs
  rw [List.append_assoc, List.append_assoc] at htold
  refine ⟨_, rs, r, ?_, hpass.others hstand, (State.request_of_queue hqueue k).trans hr, hcontinues, fun hne => ?_, htold⟩
  · rw [State.enter_evicts hcrowded.admits hq (hv.evictable hrel.state)]
    simp only [hadmits]
  · exact (State.request_of_queue hqueue _).trans
      (State.request_allocationPass_none ((hentered v.number).trans ((if_neg (Ne.symm hne)).trans hgone)))

/-- R54: an URGENT request that evicts and still finds no number free. -/
theorem State.enter_evicts_refused {s : State} {q : NewRequest} {v : Request} {n : Nat} {rel : List Report}
    (hs : tableSorted s.trg.insts = true) (hcrowded : s.Crowded) (hq : q.prio = .urgent) (hv : s.Evicts v) (hrel : s.Releases v n rel)
    (hk : (s.without v).freeNumber 255 s.isc.nextNumber = none) :
    ∃ t rs, s.enter q = (t, .noNumber) ∧ s.OthersPassedBy t n ∧ t.request v.number = none ∧
      s.Tells t (rel ++ v.evictedReport :: rs) := by
  obtain ⟨htells, hstand, hsorted, hgone, -⟩ := hrel.evict hs
  obtain ⟨hroom, hadmits⟩ := hv.admits hrel hs hcrowded
  obtain ⟨hpass, hqueue, rs, hrs⟩ := State.settlesAfter_does hsorted v
  have htold := htells.trans hrs
  rw [List.append_assoc] at htold
  refine ⟨_, rs, ?_, hpass.others hstand,
    (State.request_of_queue hqueue _).trans (State.request_allocationPass_none hgone), htold⟩
  rw [State.enter_evicts hcrowded.admits hq (hv.evictable hrel.state)]
  simp only [hadmits.trans hk]
  rw [State.notEntered, if_pos hroom]

/-! ### Merging -/

theorem State.TouchesOnly.releaseTool (s : State) (n : Nat) (redirected : Bool) : s.TouchesOnly (s.releaseTool n redirected) n := by
  have hset (i : InstRec) {t : State} (h : t.trg = (s.setTool n i).trg) : s.TouchesOnly t n :=
    (State.TouchesOnly.setTool s n i).trans (.of_trg h n)
  have hpocket {u : State} (hu : s.TouchesOnly u n) (l : Location) : s.TouchesOnly (match l with
      | .pocket c p =>
        let k := u.pocket c p
        if k.state = .expectTake then u.setPocket c p { k with state := .occupied } else u
      | _ => u) n := by
    split
    · dsimp only
      split
      · exact hu.trans (.of_trg rfl n)
      · exact hu
    · exact hu
  unfold State.releaseTool
  split
  · exact .of_trg rfl n
  · refine hpocket ?_ _
    split
    · exact hset _ rfl
    · exact hset _ rfl

theorem State.TouchesOnly.releaseToQueue (s : State) (n : Nat) (redirected : Bool) :
    s.TouchesOnly (s.releaseToQueue n redirected) n := by
  unfold State.releaseToQueue
  split
  · exact .releaseTool s n redirected
  · exact (State.TouchesOnly.releaseTool s n redirected).trans (.of_trg rfl n)

/-- R53: the live request with the new need folded in takes its new place, and is reported. -/
def State.mergedIn (s : State) (r : Request) (q : NewRequest) : State :=
  (s.replaceRequest (r.folded q)).report (.requestState (r.folded q) .merged)

theorem State.merge_cases (s : State) (r : Request) (q : NewRequest) :
    s.merge r q = s.mergedIn r q ∨ s.merge r q = (s.mergedIn r q).allocationPass ∨
      ∃ n, r.tool = some n ∧ s.merge r q = ((s.mergedIn r q).releaseToQueue n true).afterRelease n := by
  unfold State.merge
  dsimp only
  split
  next n _ hn =>
    split
    · exact .inr (.inr ⟨n, hn, rfl⟩)
    · exact .inl rfl
  next =>
    split
    · exact .inr (.inl rfl)
    · exact .inl rfl

/-- R53: a merge is reported first; what it releases or offers anew follows. -/
theorem State.merge_does {s : State} (hs : tableSorted s.trg.insts = true) (r : Request) (q : NewRequest) :
    s.OthersPassedBy (s.merge r q) (r.tool.getD 0) ∧
      ∃ rs, s.Tells (s.merge r q) (.requestState (r.folded q) .merged :: rs) := by
  have htells : s.Tells (s.mergedIn r q) [.requestState (r.folded q) .merged] :=
    ⟨((State.Issues.refl s).replaceRequest _).report _, rfl⟩
  rcases s.merge_cases r q with h | h | ⟨n, hn, h⟩ <;> rw [h]
  · exact ⟨fun m _ => State.AllPassedBy.refl s m, [], htells⟩
  · obtain ⟨rs, hrs⟩ := State.Tells.of_issues (State.Issues.refl (s.mergedIn r q)).allocationPass
    exact ⟨(State.allocationPass_passes (s := s.mergedIn r q) hs).1.othersPassed _, rs, htells.trans hrs⟩
  · obtain ⟨hsorted, hstand⟩ := State.TouchesOnly.releaseToQueue (s.mergedIn r q) n true
    obtain ⟨hpass, -, -⟩ := State.afterRelease_does (hsorted hs) n
    obtain ⟨rs, hrs⟩ := State.Tells.of_issues (((State.Issues.refl (s.mergedIn r q)).releaseToQueue n true).afterRelease n)
    rw [hn, Option.getD_some]
    exact ⟨hpass.others (s := s) hstand, rs, htells.trans hrs⟩

end Sys2Proof.Machine

/-! O17: ISSUE (R51), CALL (R50), CALL_CANCEL (R66) and automatic requests (R52). -/

namespace Sys2Proof.Machine

/-! ### The fields of ISSUE -/

theorem priorityOf_inRange {n : Nat} (h : 1 ≤ n ∧ n ≤ 3) :
    priorityOf n = some (if n = 1 then .urgent else if n = 2 then .normal else .prefetch) := by
  obtain ⟨h1, h3⟩ := h
  have : n = 1 ∨ n = 2 ∨ n = 3 := by omega
  rcases this with rfl | rfl | rfl <;> rfl

theorem priorityOf_outside {n : Nat} (h : ¬ (1 ≤ n ∧ n ≤ 3)) : priorityOf n = none := by
  unfold priorityOf
  split
  · exact absurd (by decide) h
  · exact absurd (by decide) h
  · exact absurd (by decide) h
  · rfl

/-- The values of ISSUE's fields are in range (R51, 11.3). -/
def State.IssueInRange (s : State) (body : List Byte) : Prop :=
  (1 ≤ fieldAt body 0 2 ∧ fieldAt body 0 2 ≤ 512) ∧
  (fieldAt body 2 1 = 0 ∨
    ((1 ≤ fieldAt body 2 1 ∧ fieldAt body 2 1 ≤ 32) ∧ 1 ≤ fieldAt body 3 1 ∧ fieldAt body 3 1 ≤ (s.station (fieldAt body 2 1)).places)) ∧
  (1 ≤ fieldAt body 4 1 ∧ fieldAt body 4 1 ≤ 3) ∧
  (flagAt body 5 1 = true → 1 ≤ fieldAt body 10 3 ∧ fieldAt body 10 3 ≤ 4000000)

/-- The new need that ISSUE's fields name (R51). -/
def issueNeed (body : List Byte) : NewRequest :=
  { origin := .supervisor, type := fieldAt body 0 2
    dest := if fieldAt body 2 1 = 0 then .bench else .station (fieldAt body 2 1) (fieldAt body 3 1)
    prio := if fieldAt body 4 1 = 1 then .urgent else if fieldAt body 4 1 = 2 then .normal else .prefetch
    neededBy := if flagAt body 5 0 then some (fieldAt body 6 4) else none
    minLife := if flagAt body 5 1 then some (fieldAt body 10 3) else none }

/-- ISSUE's test of the values beside the priority. -/
theorem State.issue_test_iff (s : State) (body : List Byte) :
    (typeNo (fieldAt body 0 2) && (decide (fieldAt body 2 1 = 0) ||
        (stationNo (fieldAt body 2 1) && (s.station (fieldAt body 2 1)).hasPlace (fieldAt body 3 1))) &&
      ((if flagAt body 5 1 then some (fieldAt body 10 3) else none : Option Nat).isNone || within 1 4000000 (fieldAt body 10 3))) = true ↔
      (1 ≤ fieldAt body 0 2 ∧ fieldAt body 0 2 ≤ 512) ∧
      (fieldAt body 2 1 = 0 ∨ ((1 ≤ fieldAt body 2 1 ∧ fieldAt body 2 1 ≤ 32) ∧
        1 ≤ fieldAt body 3 1 ∧ fieldAt body 3 1 ≤ (s.station (fieldAt body 2 1)).places)) ∧
      (flagAt body 5 1 = true → 1 ≤ fieldAt body 10 3 ∧ fieldAt body 10 3 ≤ 4000000) := by
  have hlife : ((if flagAt body 5 1 then some (fieldAt body 10 3) else none : Option Nat).isNone ||
      within 1 4000000 (fieldAt body 10 3)) = true ↔
      (flagAt body 5 1 = true → 1 ≤ fieldAt body 10 3 ∧ fieldAt body 10 3 ≤ 4000000) := by
    cases flagAt body 5 1 <;> simp [within_iff]
  rw [Bool.and_eq_true, Bool.and_eq_true, hlife, and_assoc]
  simp [typeNo, stationNo, Station.hasPlace, within_iff]

theorem State.issueFields_inRange {s : State} {body : List Byte} (h : s.IssueInRange body) :
    s.issueFields body = some (issueNeed body) := by
  obtain ⟨htype, hdest, hprio, hlife⟩ := h
  unfold State.issueFields
  simp only [priorityOf_inRange hprio]
  exact if_pos ((s.issue_test_iff body).2 ⟨htype, hdest, hlife⟩)

theorem State.issueFields_outside {s : State} {body : List Byte} (h : ¬ s.IssueInRange body) : s.issueFields body = none := by
  unfold State.issueFields
  by_cases hprio : 1 ≤ fieldAt body 4 1 ∧ fieldAt body 4 1 ≤ 3
  · simp only [priorityOf_inRange hprio]
    refine if_neg fun htest => h ?_
    obtain ⟨htype, hdest, hlife⟩ := (s.issue_test_iff body).1 htest
    exact ⟨htype, hdest, hprio, hlife⟩
  · simp only [priorityOf_outside hprio]

/-- The request that ISSUE merges into: none for the bench (R49, R51). -/
theorem State.mergeTarget_issueNeed (s : State) (body : List Byte) : s.mergeTarget (issueNeed body) =
    if fieldAt body 2 1 = 0 then none else s.requestFor (fieldAt body 2 1) (fieldAt body 3 1) (fieldAt body 0 2) := by
  unfold State.mergeTarget issueNeed
  by_cases h : fieldAt body 2 1 = 0 <;> simp only [h, if_true, if_false]

/-! ### ISSUE in range -/

section

variable {s t : State} {q : NewRequest}

theorem State.issue_absent (h : s.type q.type = none) : s.issue q = (s, .plain .noSuch) := if_pos (by rw [h]; rfl)

theorem State.issue_merges {r : Request} {ty : TypeRec} (hty : s.type q.type = some ty) (hr : s.mergeTarget q = some r) :
    s.issue q = (s.merge r q, { code := .accepted, data := .requestHandle r.number true }) := by
  unfold State.issue
  rw [hty, hr]
  rfl

theorem State.issue_entered {ty : TypeRec} {k : Nat} (hty : s.type q.type = some ty) (hr : s.mergeTarget q = none)
    (he : s.enter q = (t, .entered k)) : s.issue q = (t, { code := .accepted, data := .requestHandle k false }) := by
  unfold State.issue
  rw [hty, hr, he]
  rfl

theorem State.issue_full {ty : TypeRec} {e : Entry} (hty : s.type q.type = some ty) (hr : s.mergeTarget q = none)
    (he : s.enter q = (t, e)) (hk : ∀ k, e ≠ .entered k) : s.issue q = (t, .plain .full) := by
  unfold State.issue
  rw [hty, hr, he]
  cases e with
  | entered k => exact absurd rfl (hk k)
  | noRoom => rfl
  | noNumber => rfl

end

theorem State.notEntered_ne (s : State) (k : Nat) : s.notEntered ≠ .entered k := by
  unfold State.notEntered
  split <;> simp

/-! ### The step of ISSUE -/

section

variable {s : State} {tag : Byte} {body : List Byte}

theorem execIssue_run (hmode : s.svp.mode = .running) (hrange : s.IssueInRange body) :
    whenRunning (fun s => match s.issueFields body with
      | none => (s, .plain .range)
      | some q => s.issue q) (s.taken 0x18 tag body) = (s.taken 0x18 tag body).issue (issueNeed body) := by
  have hfields : (s.taken 0x18 tag body).issueFields body = some (issueNeed body) :=
    State.issueFields_inRange (s := s.taken 0x18 tag body) hrange
  rw [whenRunning_running hmode]
  simp only [hfields]

theorem execIssue_refused {r : Reply} (h : s.takesNow 0x18 tag body = true) (hmode : s.svp.mode = .running)
    (hrange : s.IssueInRange body)
    (hissue : (s.taken 0x18 tag body).issue (issueNeed body) = (s.taken 0x18 tag body, r)) :
    exec (.issue tag body) s = .next (s.answered 0x18 tag body r) := by
  change execIssue tag body s = _
  unfold execIssue
  exact hostCommand_answers h ((execIssue_run hmode hrange).trans hissue)

/-- An accepted ISSUE: what its operations left, with the reply. -/
theorem execIssue_answers {u : State} {r : Reply} {rs : List Report} (h : s.takesNow 0x18 tag body = true)
    (hmode : s.svp.mode = .running) (hrange : s.IssueInRange body) (htells : (s.taken 0x18 tag body).Tells u rs)
    (hissue : (s.taken 0x18 tag body).issue (issueNeed body) = (u, r)) :
    ∃ t, exec (.issue tag body) s = .next t ∧ s.ToolsOnly t ∧ t.hoe = s.hoe ∧ t.trg = u.trg ∧ t.isc = u.isc ∧
      t.svp = s.svpAnswered 0x18 tag body rs r :=
  htells.answers h ((execIssue_run hmode hrange).trans hissue)

end

theorem State.OthersPassedBy.of_trg {s t u : State} {n : Nat} (h : s.OthersPassedBy u n) (htrg : t.trg = u.trg) :
    s.OthersPassedBy t n := h.trans (.of_trg htrg)

/-- What a request keeps of another that it continues. -/
theorem Request.Continues.fields {r q : Request} (h : r.Continues q) : q.number = r.number ∧ q.origin = r.origin ∧ q.type = r.type ∧
    q.dest = r.dest ∧ q.prio = r.prio ∧ q.neededBy = r.neededBy ∧ q.minLife = r.minLife ∧ q.misses = r.misses ∧
    q.enqTick = r.enqTick := by
  rw [h]
  exact ⟨rfl, rfl, rfl, rfl, rfl, rfl, rfl, rfl, rfl⟩

/-- The search for a free number in the state in which a command runs. -/
theorem State.freeNumber_taken (s : State) (kind tag : Byte) (body : List Byte) (fuel next : Nat) :
    (s.taken kind tag body).freeNumber fuel next = s.freeNumber fuel next :=
  State.freeNumber_congr (s := s.taken kind tag body) (t := s) (fun _ => rfl) fuel next

theorem State.freeNumber_without_taken (s : State) (kind tag : Byte) (body : List Byte) (v : Request) (fuel next : Nat) :
    ((s.taken kind tag body).without v).freeNumber fuel next = (s.without v).freeNumber fuel next :=
  State.freeNumber_congr (s := (s.taken kind tag body).without v) (t := s.without v) (fun _ => rfl) fuel next

theorem State.admits_taken (s : State) (kind tag : Byte) (body : List Byte) : (s.taken kind tag body).admits = s.admits :=
  ite_congr rfl (fun _ => s.freeNumber_taken kind tag body 255 s.isc.nextNumber) fun _ => rfl

theorem State.Crowded.taken {s : State} (h : s.Crowded) (kind tag : Byte) (body : List Byte) : (s.taken kind tag body).Crowded := by
  unfold State.Crowded
  rw [s.freeNumber_taken]
  exact h

/-- ISSUE, for every state (R51, R54). -/
theorem execIssue_settles (s : State) (tag : Byte) (body : List Byte) (htakes : s.takesNow 0x18 tag body = true)
    (hs : tableSorted s.trg.insts = true) :
    (s.svp.mode = .loading → exec (.issue tag body) s = .next (s.answered 0x18 tag body (.plain .notInMode))) ∧
    (s.svp.mode = .running → ¬ s.IssueInRange body → exec (.issue tag body) s = .next (s.answered 0x18 tag body (.plain .range))) ∧
    (s.svp.mode = .running → s.IssueInRange body →
      (s.type (fieldAt body 0 2) = none → exec (.issue tag body) s = .next (s.answered 0x18 tag body (.plain .noSuch))) ∧
      (∀ ty r, s.type (fieldAt body 0 2) = some ty →
        (fieldAt body 2 1 ≠ 0 ∧ s.requestFor (fieldAt body 2 1) (fieldAt body 3 1) (fieldAt body 0 2) = some r) →
        ∃ t rs, exec (.issue tag body) s = .next t ∧ s.OthersPassedBy t (r.tool.getD 0) ∧ s.ToolsOnly t ∧ t.hoe = s.hoe ∧
          t.svp = s.svpAnswered 0x18 tag body (.requestState (r.folded (issueNeed body)) .merged :: rs)
            { code := .accepted, data := .requestHandle r.number true }) ∧
      (∀ ty, s.type (fieldAt body 0 2) = some ty →
        (fieldAt body 2 1 = 0 ∨ s.requestFor (fieldAt body 2 1) (fieldAt body 3 1) (fieldAt body 0 2) = none) →
        64 ≤ s.isc.queue.length ∨ s.freeNumber 255 s.isc.nextNumber = none →
        ((issueNeed body).prio ≠ .urgent ∨
          ∀ r ∈ s.isc.queue, r.prio = .prefetch → r.state ≠ .queued ∧ r.state ≠ .waitingStock ∧ r.state ≠ .reserved) →
        exec (.issue tag body) s = .next (s.answered 0x18 tag body (.plain .full))) ∧
      (∀ ty k, s.type (fieldAt body 0 2) = some ty →
        (fieldAt body 2 1 = 0 ∨ s.requestFor (fieldAt body 2 1) (fieldAt body 3 1) (fieldAt body 0 2) = none) →
        s.isc.queue.length < 64 → s.freeNumber 255 s.isc.nextNumber = some k →
        ∃ t rs r, exec (.issue tag body) s = .next t ∧ s.AllPassedBy t ∧ s.ToolsOnly t ∧ t.hoe = s.hoe ∧ r ∈ t.isc.queue ∧
          (s.entrant (issueNeed body) k).Continues r ∧ r.Passed ∧ t.isc.nextNumber = cyclicNext 255 k ∧
          t.svp = s.svpAnswered 0x18 tag body (.requestState (s.entrant (issueNeed body) k) .entered :: rs)
            { code := .accepted, data := .requestHandle k false }) ∧
      (∀ ty v n rel, s.type (fieldAt body 0 2) = some ty →
        (fieldAt body 2 1 = 0 ∨ s.requestFor (fieldAt body 2 1) (fieldAt body 3 1) (fieldAt body 0 2) = none) →
        (issueNeed body).prio = .urgent → s.Crowded → s.Evicts v → s.Releases v n rel →
        (∀ k, (s.without v).freeNumber 255 s.isc.nextNumber = some k →
          ∃ t rs, exec (.issue tag body) s = .next t ∧ s.OthersPassedBy t n ∧ s.ToolsOnly t ∧ t.hoe = s.hoe ∧
            (∃ r ∈ t.isc.queue, (s.entrant (issueNeed body) k).Continues r) ∧
            (k ≠ v.number → t.request v.number = none) ∧
            t.svp = s.svpAnswered 0x18 tag body
              (rel ++ v.evictedReport :: .requestState (s.entrant (issueNeed body) k) .entered :: rs)
              { code := .accepted, data := .requestHandle k false }) ∧
        ((s.without v).freeNumber 255 s.isc.nextNumber = none →
          ∃ t rs, exec (.issue tag body) s = .next t ∧ s.OthersPassedBy t n ∧ s.ToolsOnly t ∧ t.hoe = s.hoe ∧
            t.request v.number = none ∧
            t.svp = s.svpAnswered 0x18 tag body (rel ++ v.evictedReport :: rs) (.plain .full)))) := by
  have hsorted : tableSorted (s.taken 0x18 tag body).trg.insts = true := hs
  have htarget := (s.taken 0x18 tag body).mergeTarget_issueNeed body
  have hnew (h : fieldAt body 2 1 = 0 ∨ s.requestFor (fieldAt body 2 1) (fieldAt body 3 1) (fieldAt body 0 2) = none) :
      (s.taken 0x18 tag body).mergeTarget (issueNeed body) = none := by
    rw [htarget]
    rcases h with h | h
    · exact if_pos h
    · split
      · rfl
      · exact h
  refine ⟨fun hmode => hostCommand_answers htakes (whenRunning_loading hmode), fun hmode hrange => ?_, fun hmode hrange =>
    ⟨fun hty => ?_, fun ty r hty hserves => ?_, fun ty hty hneed hfull hprio => ?_, fun ty k hty hneed hroom hk => ?_,
      fun ty v n rel hty hneed hprio hcrowded hv hrel => ⟨fun k hk => ?_, fun hk => ?_⟩⟩⟩
  · change execIssue tag body s = _
    unfold execIssue
    refine hostCommand_answers htakes ((whenRunning_running hmode).trans ?_)
    simp only [State.issueFields_outside (s := s.taken 0x18 tag body) hrange]
  · exact execIssue_refused htakes hmode hrange (State.issue_absent (s := s.taken 0x18 tag body) hty)
  · obtain ⟨hst, hr⟩ := hserves
    obtain ⟨hothers, rs, htells⟩ := State.merge_does hsorted r (issueNeed body)
    obtain ⟨t, ht, htools, hhoe, htrg, -, hsvp⟩ := execIssue_answers htakes hmode hrange htells
      (State.issue_merges (s := s.taken 0x18 tag body) hty (htarget.trans ((if_neg hst).trans hr)))
    exact ⟨t, rs, ht, hothers.of_trg htrg, htools, hhoe, hsvp⟩
  · have hadmits : (s.taken 0x18 tag body).admits = none := (s.admits_taken _ _ _).trans ((State.admits_eq_none_iff s).2 hfull)
    have hevictable := hprio.imp id (State.evictable_eq_none (s := s.taken 0x18 tag body))
    exact execIssue_refused htakes hmode hrange (State.issue_full (s := s.taken 0x18 tag body) hty (hnew hneed)
      (State.enter_refused hadmits hevictable) (State.notEntered_ne _))
  · have hadmits : (s.taken 0x18 tag body).admits = some k := (s.admits_taken _ _ _).trans (State.admits_eq_some hroom hk)
    obtain ⟨u, rs, r, henter, hpass, htells, hr, hcontinues, hpassed, hnext⟩ := State.enter_does (issueNeed body) hsorted hadmits
    obtain ⟨t, ht, htools, hhoe, htrg, hisc, hsvp⟩ := execIssue_answers htakes hmode hrange htells
      (State.issue_entered (s := s.taken 0x18 tag body) hty (hnew hneed) henter)
    refine ⟨t, rs, r, ht, hpass.trans (.of_trg htrg), htools, hhoe, ?_, hcontinues, hpassed (State.taken_running.2 hmode), ?_, hsvp⟩
    · rw [hisc]
      exact State.mem_of_request hr
    · rw [hisc]
      exact hnext
  · obtain ⟨u, rs, r, henter, hothers, hr, hcontinues, hgone, htells⟩ := State.enter_evicts_entered (q := issueNeed body) hsorted
      (hcrowded.taken 0x18 tag body) hprio hv hrel ((s.freeNumber_without_taken _ _ _ _ _ _).trans hk)
    obtain ⟨t, ht, htools, hhoe, htrg, hisc, hsvp⟩ := execIssue_answers htakes hmode hrange htells
      (State.issue_entered (s := s.taken 0x18 tag body) hty (hnew hneed) henter)
    have hqueue := congrArg Isc.queue hisc
    exact ⟨t, rs, ht, hothers.of_trg htrg, htools, hhoe, ⟨r, hqueue ▸ State.mem_of_request hr, hcontinues⟩,
      fun hne => (State.request_of_queue hqueue _).trans (hgone hne), hsvp⟩
  · obtain ⟨u, rs, henter, hothers, hgone, htells⟩ := State.enter_evicts_refused (q := issueNeed body) hsorted
      (hcrowded.taken 0x18 tag body) hprio hv hrel ((s.freeNumber_without_taken _ _ _ _ _ _).trans hk)
    obtain ⟨t, ht, htools, hhoe, htrg, hisc, hsvp⟩ := execIssue_answers htakes hmode hrange htells
      (State.issue_full (s := s.taken 0x18 tag body) hty (hnew hneed) henter nofun)
    exact ⟨t, rs, ht, hothers.of_trg htrg, htools, hhoe, (State.request_of_queue (congrArg Isc.queue hisc) _).trans hgone, hsvp⟩

/-! ### The messages of the stations -/

section

variable {s t : State}

theorem State.running_iff : s.running = true ↔ s.svp.mode = .running := beq_iff_eq

theorem State.not_running_iff : s.running = false ↔ s.svp.mode = .loading := by
  unfold State.running
  cases s.svp.mode <;> decide

theorem State.stationEffect_loading (n : Nat) (m : StationMsg) (h : s.svp.mode = .loading) :
    s.stationEffect n m = (s, .notRunning, none) := if_pos (State.not_running_iff.2 h)

theorem State.stationEffect_call (n type place : Nat) (prio : Priority) (offset minLife : Option Nat) (h : s.svp.mode = .running) :
    s.stationEffect n (.call type place prio offset minLife) = s.call n type place prio offset minLife :=
  if_neg (by rw [State.running_iff.2 h]; decide)

theorem State.stationEffect_callCancel (n place type : Nat) (h : s.svp.mode = .running) :
    s.stationEffect n (.callCancel place type) = ((s.callCancel n place type).1, (s.callCancel n place type).2, none) :=
  if_neg (by rw [State.running_iff.2 h]; decide)

theorem Station.hasPlace_iff {st : Station} {place : Nat} : st.hasPlace place = true ↔ 1 ≤ place ∧ place ≤ st.places := by
  simp [Station.hasPlace]

/-- The new need of a CALL (R50). -/
def State.callNeed (s : State) (n type place : Nat) (prio : Priority) (offset minLife : Option Nat) : NewRequest :=
  { origin := .station n, type := type, dest := .station n place, prio := prio
    neededBy := offset.map (fun o => min (s.hck.hall.sec + o) 4294967295), minLife := minLife }

variable {n type place : Nat} {prio : Priority} {offset minLife : Option Nat}

theorem State.call_unplaced (h : ¬ (1 ≤ place ∧ place ≤ (s.station n).places)) :
    s.call n type place prio offset minLife = (s, .placeRange, none) :=
  if_pos (Bool.eq_false_iff.2 (mt Station.hasPlace_iff.1 h))

theorem State.call_absent (h : 1 ≤ place ∧ place ≤ (s.station n).places) (hty : s.type type = none) :
    s.call n type place prio offset minLife = (s, .badType, none) := by
  unfold State.call
  rw [Station.hasPlace_iff.2 h, hty]
  rfl

theorem State.call_merges {r : Request} {ty : TypeRec} (h : 1 ≤ place ∧ place ≤ (s.station n).places) (hty : s.type type = some ty)
    (hr : s.requestFor n place type = some r) : s.call n type place prio offset minLife =
      (s.merge r (s.callNeed n type place prio offset minLife), .merged, some r.number) := by
  unfold State.call
  rw [Station.hasPlace_iff.2 h, hty]
  simp only [hr]
  rfl

theorem State.call_enters {ty : TypeRec} {e : Entry} (h : 1 ≤ place ∧ place ≤ (s.station n).places) (hty : s.type type = some ty)
    (hr : s.requestFor n place type = none) (he : s.enter (s.callNeed n type place prio offset minLife) = (t, e)) :
    s.call n type place prio offset minLife = (t, e.stationCode) := by
  unfold State.call
  rw [Station.hasPlace_iff.2 h, hty]
  simp only [hr]
  change ((s.enter (s.callNeed n type place prio offset minLife)).1,
    (s.enter (s.callNeed n type place prio offset minLife)).2.stationCode) = _
  rw [he]

theorem State.notEntered_stationCode (s : State) : s.notEntered.stationCode = (.queueFull, none) := by
  unfold State.notEntered
  split <;> rfl

theorem State.callCancel_unplaced (h : ¬ (1 ≤ place ∧ place ≤ (s.station n).places)) : s.callCancel n place type = (s, .placeRange) :=
  if_pos (Bool.eq_false_iff.2 (mt Station.hasPlace_iff.1 h))

theorem State.callCancel_none (h : 1 ≤ place ∧ place ≤ (s.station n).places) (hr : s.requestFor n place type = none) :
    s.callCancel n place type = (s, .stale) := by
  unfold State.callCancel
  rw [Station.hasPlace_iff.2 h]
  simp only [hr]
  rfl

theorem State.callCancel_live {r : Request} (h : 1 ≤ place ∧ place ≤ (s.station n).places) (hr : s.requestFor n place type = some r) :
    s.callCancel n place type = if r.state = .issued then (s, .stale) else (s.cancelRequest r .cancelledStation, .ok) := by
  unfold State.callCancel
  rw [Station.hasPlace_iff.2 h]
  simp only [hr]
  rfl

end

/-- CALL, for every state (R50, R54). -/
theorem call_settles (s : State) (n place type : Nat) (prio : Priority) (offset minLife : Option Nat) :
    let m : StationMsg := .call type place prio offset minLife
    let q := s.callNeed n type place prio offset minLife
    let placed := 1 ≤ place ∧ place ≤ (s.station n).places
    (s.svp.mode = .loading → s.stationEffect n m = (s, .notRunning, none)) ∧
    (s.svp.mode = .running → ¬ placed → s.stationEffect n m = (s, .placeRange, none)) ∧
    (s.svp.mode = .running → placed → s.type type = none → s.stationEffect n m = (s, .badType, none)) ∧
    (∀ ty, s.type type = some ty → s.svp.mode = .running → placed → tableSorted s.trg.insts = true →
      (∀ r, s.requestFor n place type = some r →
        ∃ t rs, s.stationEffect n m = (t, .merged, some r.number) ∧ s.OthersPassedBy t (r.tool.getD 0) ∧
          s.Raises t (.requestState (r.folded q) .merged :: rs) ∧ t.hoe = s.hoe) ∧
      (s.requestFor n place type = none →
        (s.isc.queue.length < 64 → ∀ k, s.freeNumber 255 s.isc.nextNumber = some k →
          ∃ t rs, s.stationEffect n m = (t, .ok, some k) ∧ s.AllPassedBy t ∧ t.hoe = s.hoe ∧
            (∃ r ∈ t.isc.queue, r.number = k ∧ r.type = type ∧ r.dest = .station n place) ∧
            s.Raises t (.requestState (s.entrant q k) .entered :: rs)) ∧
        (64 ≤ s.isc.queue.length ∨ s.freeNumber 255 s.isc.nextNumber = none →
          (prio ≠ .urgent ∨ ∀ r ∈ s.isc.queue, r.prio = .prefetch → r.state = .issued ∨ r.state = .delivered ∨
            r.state = .cancelled ∨ r.state = .expired) →
          s.stationEffect n m = (s, .queueFull, none)) ∧
        (∀ v k rel, prio = .urgent → s.Crowded → s.Evicts v → s.Releases v k rel →
          (∀ j, (s.without v).freeNumber 255 s.isc.nextNumber = some j →
            ∃ t rs, s.stationEffect n m = (t, .ok, some j) ∧ s.OthersPassedBy t k ∧ t.hoe = s.hoe ∧
              (j ≠ v.number → t.request v.number = none) ∧
              s.Raises t (rel ++ v.evictedReport :: .requestState (s.entrant q j) .entered :: rs)) ∧
          ((s.without v).freeNumber 255 s.isc.nextNumber = none →
            ∃ t rs, s.stationEffect n m = (t, .queueFull, none) ∧ s.OthersPassedBy t k ∧ t.hoe = s.hoe ∧
              t.request v.number = none ∧ s.Raises t (rel ++ v.evictedReport :: rs))))) := by
  intro m q placed
  refine ⟨State.stationEffect_loading n m,
    fun hmode hplace => (State.stationEffect_call n type place prio offset minLife hmode).trans (State.call_unplaced hplace),
    fun hmode hplace hty => (State.stationEffect_call n type place prio offset minLife hmode).trans (State.call_absent hplace hty),
    fun ty hty hmode hplace hs => ?_⟩
  have hcall : s.stationEffect n m = s.call n type place prio offset minLife :=
    State.stationEffect_call n type place prio offset minLife hmode
  rw [hcall]
  refine ⟨fun r hr => ?_, fun hr => ⟨fun hroom k hk => ?_, fun hfull hprio => ?_,
    fun v k rel hprio hcrowded hv hrel => ⟨fun j hj => ?_, fun hj => ?_⟩⟩⟩
  · obtain ⟨hothers, rs, htells⟩ := State.merge_does hs r q
    exact ⟨_, rs, State.call_merges hplace hty hr, hothers, htells.raises, htells.issues.hoe_eq⟩
  · obtain ⟨t, rs, r, henter, hpass, htells, hrk, hcontinues, -, -⟩ := State.enter_does q hs (State.admits_eq_some hroom hk)
    obtain ⟨hnumber, -, htype, hdest, -⟩ := hcontinues.fields
    exact ⟨t, rs, State.call_enters hplace hty hr henter, hpass, htells.issues.hoe_eq,
      ⟨r, State.mem_of_request hrk, hnumber, htype, hdest⟩, htells.raises⟩
  · have hevictable : q.prio ≠ .urgent ∨ s.evictable = none := by
      refine hprio.imp id fun hnone => State.evictable_eq_none fun r hr hp => ?_
      rcases hnone r hr hp with h | h | h | h <;> simp [h]
    rw [State.call_enters hplace hty hr (State.enter_refused ((State.admits_eq_none_iff s).2 hfull) hevictable),
      State.notEntered_stationCode]
  · obtain ⟨t, rs, -, henter, hothers, -, -, hgone, htells⟩ := State.enter_evicts_entered (q := q) hs hcrowded hprio hv hrel hj
    exact ⟨t, rs, State.call_enters hplace hty hr henter, hothers, htells.issues.hoe_eq, hgone, htells.raises⟩
  · obtain ⟨t, rs, henter, hothers, hgone, htells⟩ := State.enter_evicts_refused (q := q) hs hcrowded hprio hv hrel hj
    exact ⟨t, rs, State.call_enters hplace hty hr henter, hothers, htells.issues.hoe_eq, hgone, htells.raises⟩

/-- CALL_CANCEL of a live request that is not ISSUED (R66). -/
theorem callCancel_ends {s : State} {n place type k : Nat} {r : Request} {rel : List Report}
    (hplace : 1 ≤ place ∧ place ≤ (s.station n).places) (hr : s.requestFor n place type = some r) (hrel : s.Releases r k rel)
    (hs : tableSorted s.trg.insts = true) :
    ∃ t rs, s.callCancel n place type = (t, .ok) ∧ t.request r.number = none ∧ s.OthersPassedBy t k ∧ t.hoe = s.hoe ∧
      s.Raises t (rel ++ .requestState
        { r with
          state := .cancelled, tool := if rel = [] then r.tool else none
          reserveTick := if rel = [] then r.reserveTick else none } .cancelledStation :: rs) ∧
      (rel = [] → rs = [] ∧ t.trg = s.trg) := by
  have hcancel (h : r.state ≠ .issued) : s.callCancel n place type = (s.cancelRequest r .cancelledStation, .ok) :=
    (State.callCancel_live hplace hr).trans (if_neg h)
  rcases hrel with ⟨hst, rfl⟩ | ⟨hst, hk, i, hi, hc, hl, rfl⟩
  · have hreserved : r.state ≠ .reserved := by rcases hst with h | h <;> simp [h]
    have hissued : r.state ≠ .issued := by rcases hst with h | h <;> simp [h]
    have htells := (State.Tells.refl s).endRequest r .cancelled .cancelledStation
    refine ⟨s.endRequest r .cancelled .cancelledStation, [], ?_, State.request_endRequest, fun m _ => State.AllPassedBy.refl s m, rfl,
      htells.raises, fun _ => ⟨rfl, rfl⟩⟩
    rw [hcancel hissued, s.cancelRequest_open _ hreserved]
  · obtain ⟨rs, hgone, hothers, -, htells⟩ :=
      State.cancelRequest_releases .cancelledStation hs (.inr ⟨hst, hk, i, hi, hc, hl, rfl⟩) hst
    exact ⟨_, rs, hcancel (by simp [hst]), hgone, hothers, htells.issues.hoe_eq, htells.raises, nofun⟩

/-! ### Automatic requests -/

/-- The new need of an automatic request (R52). -/
def autoNeed (st place type : Nat) (prio : Priority) : NewRequest :=
  { origin := .auto, type := type, dest := .station st place, prio := prio, neededBy := none, minLife := none }

section

variable {s t : State} {st place type : Nat} {prio : Priority}

theorem State.autoRequest_merges {r : Request} (hr : s.requestFor st place type = some r) :
    s.autoRequest st place type prio = s.merge r (autoNeed st place type prio) := by
  unfold State.autoRequest
  simp only [hr]
  rfl

theorem State.autoRequest_entered {k : Nat} (hr : s.requestFor st place type = none)
    (he : s.enter (autoNeed st place type prio) = (t, .entered k)) : s.autoRequest st place type prio = t := by
  unfold autoNeed at he
  unfold State.autoRequest
  simp only [hr, he]

theorem State.autoRequest_noNumber (hr : s.requestFor st place type = none)
    (he : s.enter (autoNeed st place type prio) = (t, .noNumber)) :
    s.autoRequest st place type prio = t.report (.requestDropped st place type prio .noNumber) := by
  unfold autoNeed at he
  unfold State.autoRequest
  simp only [hr, he]

theorem State.autoRequest_noRoom (hr : s.requestFor st place type = none)
    (he : s.enter (autoNeed st place type prio) = (t, .noRoom)) :
    s.autoRequest st place type prio = t.report (.requestDropped st place type prio .queueFull) := by
  unfold autoNeed at he
  unfold State.autoRequest
  simp only [hr, he]

end

/-- An automatic request that evicts (R52, R54). -/
theorem autoRequest_evicts {s : State} {st place type k : Nat} {prio : Priority} {v : Request} {rel : List Report}
    (hs : tableSorted s.trg.insts = true) (hr : s.requestFor st place type = none) (hprio : prio = .urgent) (hcrowded : s.Crowded)
    (hv : s.Evicts v) (hrel : s.Releases v k rel) :
    ∃ t rs, s.autoRequest st place type prio = t ∧ s.OthersPassedBy t k ∧ t.hoe = s.hoe ∧
      (∀ j, (s.without v).freeNumber 255 s.isc.nextNumber = some j →
        (j ≠ v.number → t.request v.number = none) ∧
        s.Raises t (rel ++ v.evictedReport :: .requestState (s.entrant (autoNeed st place type prio) j) .entered :: rs)) ∧
      ((s.without v).freeNumber 255 s.isc.nextNumber = none →
        t.request v.number = none ∧
        s.Raises t (rel ++ v.evictedReport :: rs ++ [.requestDropped st place type prio .noNumber])) := by
  cases hj : (s.without v).freeNumber 255 s.isc.nextNumber with
  | some j =>
    obtain ⟨t, rs, -, henter, hothers, -, -, hgone, htells⟩ :=
      State.enter_evicts_entered (q := autoNeed st place type prio) hs hcrowded hprio hv hrel hj
    refine ⟨t, rs, State.autoRequest_entered hr henter, hothers, htells.issues.hoe_eq, fun i hi => ?_, nofun⟩
    cases hi
    exact ⟨hgone, htells.raises⟩
  | none =>
    obtain ⟨t, rs, henter, hothers, hgone, htells⟩ :=
      State.enter_evicts_refused (q := autoNeed st place type prio) hs hcrowded hprio hv hrel hj
    have hdropped := htells.report (.requestDropped st place type prio .noNumber)
    exact ⟨_, rs, State.autoRequest_noNumber hr henter, hothers, hdropped.issues.hoe_eq, nofun, fun _ => ⟨hgone, hdropped.raises⟩⟩

/-- Settles O17: each need in its turn merges, is admitted, evicts or is refused. -/
theorem issueEntersOrMerges : Obligations.IssueEntersOrMerges := by
  refine ⟨fun s tag body htakes hs => ?_, fun s n place type prio offset minLife => ?_, fun s n place type => ?_,
    fun s st place type prio hs => ?_, fun s st place type prio hr hfull hprio => ?_⟩
  · intro type st place inRange q serves newNeed
    obtain ⟨hloading, houtside, hinside⟩ := execIssue_settles s tag body htakes hs
    refine ⟨hloading, houtside, fun hmode hrange => ?_⟩
    obtain ⟨habsent, hmerges, hfull, hentered, hevicts⟩ := hinside hmode hrange
    refine ⟨habsent, hmerges, hfull, fun ty k hty hneed hroom hk => ?_,
      fun ty v n rel hty hneed hprio hcrowded _ hv hrel => ⟨fun k hk => ?_, (hevicts ty v n rel hty hneed hprio hcrowded hv hrel).2⟩⟩
    · obtain ⟨t, rs, r, ht, hpass, htools, hhoe, hin, hcontinues, hpassed, hnext, hsvp⟩ := hentered ty k hty hneed hroom hk
      obtain ⟨hnumber, horigin, htype, hdest, hp, hn, hl, hmisses, henq⟩ := hcontinues.fields
      exact ⟨t, rs, r, ht, hpass, htools, hhoe, hin, hnumber, horigin, htype, hdest, hp, hn, hl, hmisses, henq, hpassed, hnext, hsvp⟩
    · obtain ⟨t, rs, ht, hothers, htools, hhoe, ⟨r, hin, hcontinues⟩, hgone, hsvp⟩ :=
        (hevicts ty v n rel hty hneed hprio hcrowded hv hrel).1 k hk
      obtain ⟨hnumber, horigin, htype, hdest, -⟩ := hcontinues.fields
      exact ⟨t, rs, ht, hothers, htools, hhoe, ⟨r, hin, hnumber, htype, hdest, horigin⟩, hgone, hsvp⟩
  · intro m q placed
    obtain ⟨hloading, hunplaced, habsent, hplaced⟩ := call_settles s n place type prio offset minLife
    refine ⟨hloading, hunplaced, habsent, fun ty hty hmode hplace hs => ?_⟩
    obtain ⟨hmerges, hneed⟩ := hplaced ty hty hmode hplace hs
    refine ⟨hmerges, fun hr => ?_⟩
    obtain ⟨hentered, hfull, hevicts⟩ := hneed hr
    exact ⟨hentered, hfull, fun v k rel hprio hcrowded _ hv hrel => hevicts v k rel hprio hcrowded hv hrel⟩
  · intro m placed
    refine ⟨State.stationEffect_loading n m, fun hmode hplace => ?_, fun hmode hplace => ⟨fun hr => ?_, fun r hr => ⟨fun hst => ?_,
      fun k rel hrel hs => ?_⟩⟩⟩
    · rw [State.stationEffect_callCancel n place type hmode, State.callCancel_unplaced hplace]
    · rw [State.stationEffect_callCancel n place type hmode, State.callCancel_none hplace hr]
    · rw [State.stationEffect_callCancel n place type hmode, State.callCancel_live hplace hr, if_pos hst]
    · obtain ⟨t, rs, hcancel, hrest⟩ := callCancel_ends hplace hr hrel hs
      refine ⟨t, rs, ?_, hrest⟩
      rw [State.stationEffect_callCancel n place type hmode, hcancel]
  · intro q
    refine ⟨fun r hr => ?_, fun k hr hroom hk => ?_, fun v k rel hr hprio hcrowded _ hv hrel =>
      autoRequest_evicts hs hr hprio hcrowded hv hrel⟩
    · obtain ⟨hothers, rs, htells⟩ := State.merge_does hs r q
      exact ⟨_, rs, State.autoRequest_merges hr, hothers, htells.issues.hoe_eq, htells.raises⟩
    · obtain ⟨t, rs, r, henter, hpass, htells, hrk, hcontinues, -, -⟩ := State.enter_does q hs (State.admits_eq_some hroom hk)
      obtain ⟨hnumber, -, htype, hdest, -⟩ := hcontinues.fields
      exact ⟨t, rs, State.autoRequest_entered hr henter, hpass, htells.issues.hoe_eq,
        ⟨r, State.mem_of_request hrk, hnumber, htype, hdest⟩, htells.raises⟩
  · intro dropped
    have hadmits := (State.admits_eq_none_iff s).2 hfull
    have hevictable : (autoNeed st place type prio).prio ≠ .urgent ∨ s.evictable = none :=
      hprio.imp id fun hnone => State.evictable_eq_none fun r hr hp => absurd hp (hnone r hr)
    have henter := State.enter_refused hadmits hevictable
    by_cases hlen : 64 ≤ s.isc.queue.length
    · rw [State.notEntered, if_neg (not_lt.2 hlen)] at henter
      rw [State.autoRequest_noRoom hr henter, show dropped = .requestDropped st place type prio .queueFull from
        congrArg (Report.requestDropped st place type prio) (if_pos hlen)]
      rfl
    · rw [State.notEntered, if_pos (not_le.1 hlen)] at henter
      rw [State.autoRequest_noNumber hr henter, show dropped = .requestDropped st place type prio .noNumber from
        congrArg (Report.requestDropped st place type prio) (if_neg hlen)]
      rfl

end Sys2Proof.Machine

/-! O40 fails: that a TYPE_HOLD finding four OPEN records answers BUSY is said of every state, also of one where two transactions of a
queue were made as the same one. -/

namespace Sys2Proof.Machine

/-- A transaction of station 1, the first that was made. -/
def firstMade (kind : TxnKind) (state : TxnState) (broadcast : Option Nat) : Txn :=
  { id := 0, number := 1, kind := kind, state := state, busyRetries := 0, holdOff := none, firstSent := none, delivered := false
    broadcast := broadcast, body := [], handed := false, slot := 0 }

/-- An OPEN record of a hold on type 2, waiting for station 1. -/
def openHold (number : Nat) : Broadcast :=
  { number := number, kind := .hold, type := 2, results := [(1, none)], done := false, tick := 0, time := ⟨0, 0⟩ }

/-- All four records are OPEN. Station 1 holds an ISSUED instance of type 1; in its queue a notice of the first record and the PENDING
TOOL_DATA of that instance share an identity. Group 1 is station 2, whose link runs. -/
def fourOpenHolds : State :=
  { State.reset with
    svp := { State.reset.svp with mode := .running }
    trg := { types := [(1, { heldType with held := false })], insts := [(1, issuedAt 1 false)] }
    slc := { State.reset.slc with links := [(2, { Link.reset with state := .checked })] }
    hoe := { State.reset.hoe with
      groups := [(1, [2])]
      entries := 1
      broadcasts := [some (openHold 1), some (openHold 2), some (openHold 3), some (openHold 4)]
      stations := [(1, { Station.reset with
        queue := [firstMade (.notice .hold 2) .inFlight (some 1), firstMade (.toolData 1 1 0) .pending none] })] } }

/-- Cancelling the data ends the notice, so that the first record is DONE and gives way to one for type 1, whose notice enters at
station 2 (R172, R173). -/
theorem fourOpenHolds_held :
    ∃ t, exec (.typeHold 9 [0, 1, 1]) fourOpenHolds = .next t ∧ tget (t.station 2).unacked 1 = none :=
  ⟨_, rfl, by decide +kernel⟩

/-- Refutes O40: with four OPEN records a member's hold set need not take the type. The statement's hypotheses let a TOOL_DATA to be
cancelled share its identity with a broadcast notice, which the invariant of O57 excludes. -/
theorem not_typeHoldBarsInstances : ¬ Obligations.TypeHoldBarsInstances := by
  unfold Obligations.TypeHoldBarsInstances
  intro h
  obtain ⟨-, hmembers, -⟩ := h
  obtain ⟨t, rs, r, ht, -, hfull, -⟩ := hmembers fourOpenHolds 9 [0, 1, 1] { heldType with held := false } (by decide +kernel) rfl
    (by decide) (by decide +kernel) rfl rfl rfl (by decide) (by decide) (by decide +kernel)
  obtain ⟨-, hawaits⟩ := hfull (by decide +kernel)
  obtain ⟨⟨e, he, -⟩, -⟩ := hawaits 2 (by decide +kernel)
  obtain ⟨u, hu, hnone⟩ := fourOpenHolds_held
  generalize exec (.typeHold 9 [0, 1, 1]) fourOpenHolds = out at ht hu
  obtain rfl : t = u := by
    rw [ht] at hu
    exact Host.Outcome.next.inj hu
  cases hnone.symm.trans he

end Sys2Proof.Machine
